-- ==== Sys2Proof/Word.lean ====
section
/-!
DEFINITION. The word types of the Mbotrum 4816 node and the sixteen format codes of Table 2-4.
-/

namespace Sys2Proof

/-- A byte of memory, flash or a message. -/
abbrev Byte := BitVec 8

/-- A 32-bit register or record field. -/
abbrev W32 := BitVec 32

/-- A 64-bit word: a core register, an address as it is computed, a 64-bit page register. -/
abbrev Word := BitVec 64

/-- A wide-lane register (R120). -/
abbrev Wide := BitVec 512

/-- The format codes of Table 2-4, with the layouts of R39, R40 and R52. -/
inductive Fmt where
  | fp64 | fp32 | bf16 | fp16 | e4m3 | e5m2 | e3m2 | e2m3 | e2m1
  | int64 | int32 | int16 | int8 | int4 | ue8m0 | w64s
  deriving DecidableEq, Repr

/-- The code of a format (Tables 3-1 and 3-2). -/
def Fmt.code : Fmt → Nat
  | .fp64 => 0 | .fp32 => 1 | .bf16 => 2 | .fp16 => 3 | .e4m3 => 4 | .e5m2 => 5 | .e3m2 => 6
  | .e2m3 => 7 | .e2m1 => 8 | .int64 => 9 | .int32 => 10 | .int16 => 11 | .int8 => 12
  | .int4 => 13 | .ue8m0 => 14 | .w64s => 15

/-- The format of a code. -/
def Fmt.ofCode : Nat → Option Fmt
  | 0 => some .fp64 | 1 => some .fp32 | 2 => some .bf16 | 3 => some .fp16 | 4 => some .e4m3
  | 5 => some .e5m2 | 6 => some .e3m2 | 7 => some .e2m3 | 8 => some .e2m1 | 9 => some .int64
  | 10 => some .int32 | 11 => some .int16 | 12 => some .int8 | 13 => some .int4
  | 14 => some .ue8m0 | 15 => some .w64s
  | _ => none

/-- The width of one element in bits; W64S counts one plane (Table 3-2). -/
def Fmt.bits : Fmt → Nat
  | .fp64 => 64 | .fp32 => 32 | .bf16 => 16 | .fp16 => 16 | .e4m3 => 8 | .e5m2 => 8 | .e3m2 => 6
  | .e2m3 => 6 | .e2m1 => 4 | .int64 => 64 | .int32 => 32 | .int16 => 16 | .int8 => 8
  | .int4 => 4 | .ue8m0 => 8 | .w64s => 8

/-- True of the integer formats of Table 3-2. -/
def Fmt.isInt : Fmt → Bool
  | .int64 | .int32 | .int16 | .int8 | .int4 => true
  | .fp64 | .fp32 | .bf16 | .fp16 | .e4m3 | .e5m2 | .e3m2 | .e2m3 | .e2m1 | .ue8m0 | .w64s => false

/-- True of the fourteen scalar formats of Table 3-6. -/
def Fmt.isScalar : Fmt → Bool
  | .ue8m0 | .w64s => false
  | .fp64 | .fp32 | .bf16 | .fp16 | .e4m3 | .e5m2 | .e3m2 | .e2m3 | .e2m1
  | .int64 | .int32 | .int16 | .int8 | .int4 => true

/-- The element types of the wide-lane extension (R138). -/
inductive ElemType where
  | i8 | i16 | i32 | i64 | f16 | bf16 | f32 | f64
  deriving DecidableEq, Repr

/-- The width of a wide-lane element (R138). -/
def ElemType.width : ElemType → Nat
  | .i8 => 8 | .i16 => 16 | .i32 => 32 | .i64 => 64 | .f16 => 16 | .bf16 => 16 | .f32 => 32 | .f64 => 64

/-- The number of wide-lane elements n (R138). -/
def ElemType.count : ElemType → Nat
  | .i8 => 64 | .i16 => 32 | .i32 => 16 | .i64 => 8 | .f16 => 32 | .bf16 => 32 | .f32 => 16 | .f64 => 8

/-- True of the four floating element types (ET 4 to 7, R138). -/
def ElemType.isFloat : ElemType → Bool
  | .i8 | .i16 | .i32 | .i64 => false
  | .f16 | .bf16 | .f32 | .f64 => true

/-- The storage format of an element type. -/
def ElemType.fmt : ElemType → Fmt
  | .i8 => .int8 | .i16 => .int16 | .i32 => .int32 | .i64 => .int64
  | .f16 => .fp16 | .bf16 => .bf16 | .f32 => .fp32 | .f64 => .fp64

/-- The two scalar types of the core floating instructions (Table 7-6, FN[5:4] and TYPE). -/
inductive FType where
  | d | s
  deriving DecidableEq, Repr

/-- The format of a scalar core type. -/
def FType.fmt : FType → Fmt
  | .d => .fp64
  | .s => .fp32

end Sys2Proof
end

