-- ==== Sys2Proof/Syntax.lean ====
section
/-!
DEFINITION. The commands of the block: the records they carry and the one inductive of them (spec/opcode_table.json).
-/

namespace Sys2Proof

/-! ### Cores -/

/-- The atomic operations of Table 7-8. -/
inductive AmoOp where
  | swap | add | and | or | xor | min | max | minu | maxu | cas | fadd | addp | ldacq | strel
  deriving DecidableEq, Repr

/-- AOP of an atomic (Table 7-8). -/
def AmoOp.code : AmoOp → Nat
  | .swap => 0 | .add => 1 | .and => 2 | .or => 3 | .xor => 4 | .min => 5 | .max => 6 | .minu => 7 | .maxu => 8
  | .cas => 9 | .fadd => 10 | .addp => 11 | .ldacq => 12 | .strel => 13

/-- The atomic of an AOP (Table 7-8); 14 and 15 are reserved. -/
def AmoOp.ofCode : Nat → Option AmoOp
  | 0 => some .swap | 1 => some .add | 2 => some .and | 3 => some .or | 4 => some .xor | 5 => some .min | 6 => some .max
  | 7 => some .minu | 8 => some .maxu | 9 => some .cas | 10 => some .fadd | 11 => some .addp | 12 => some .ldacq
  | 13 => some .strel | _ => none

/-- The destination types of FCVT (Table 7-6, FN[9:6]). -/
inductive CvtType where
  | fp64 | fp32 | int64 | int32
  deriving DecidableEq, Repr

/-- The format of an FCVT type. -/
def CvtType.fmt : CvtType → Fmt
  | .fp64 => .fp64 | .fp32 => .fp32 | .int64 => .int64 | .int32 => .int32

/-! ### Fabric -/

/-- A request as it travels (Table 10-2) without its TYPE, which the command names, followed by its payload. -/
structure Req where
  opf : BitVec 8
  flags : BitVec 8
  /-- ORIG in [2:0], RETRY in [4:3] -/
  orig : BitVec 8
  src : BitVec 16
  dst : BitVec 16
  tag : BitVec 16
  sess : BitVec 16
  seq : BitVec 32
  ackFloor : BitVec 32
  age : BitVec 16
  len : BitVec 16
  addr : BitVec 64
  payload : List Byte
  deriving DecidableEq, Repr

/-- A response as it travels (Table 10-4) without its TYPE, followed by the data of an RSP_DATA. -/
structure Rsp where
  err : BitVec 8
  flags : BitVec 8
  src : BitVec 16
  dst : BitVec 16
  tag : BitVec 16
  age : BitVec 16
  seq : BitVec 32
  data : List Byte
  deriving DecidableEq, Repr

/-! ### Memory -/

/-- What the check of a line finds (R162, R163). -/
inductive Ecc where
  | clean | corrected | uncorrectable
  deriving DecidableEq, Repr

/-- How the training of a channel ends (R175): within its margins, with the old settings kept, or with those failing too. -/
inductive Trained where
  | done | aborted | failed
  deriving DecidableEq, Repr

/-! ### Links and the switch -/

/-- A frame as the receiver of a port finds it (R226, R227): the codewords its decoder could not correct, the symbols it
corrected, and the 5,140 bytes that it delivers. -/
structure Frame where
  uncorrectable : BitVec 4
  corrected : BitVec 16
  bytes : List Byte
  deriving DecidableEq, Repr

/-- What follows the route prefix of a packet: a request or a response, with its TYPE (Tables 10-2 to 10-4). -/
inductive Cargo where
  | request (typ : BitVec 8) (q : Req)
  | response (typ : BitVec 8) (p : Rsp)
  deriving DecidableEq, Repr

/-- A packet in the switch: the route prefix (Table 11-4) and what it carries. -/
structure Packet where
  rflags : BitVec 8
  hops : BitVec 8
  inter : BitVec 16
  target : BitVec 16
  cargo : Cargo
  deriving DecidableEq, Repr

/-- An identity record (R234): node ID, port, kind (1 node, 2 gateway), stepping, the credit advertised (six dedicated counts and
the shared one) and the BOOT flag. -/
structure IdentRec where
  node : BitVec 14
  port : BitVec 6
  kind : BitVec 2
  stepping : BitVec 8
  credits : List (BitVec 16)
  boot : Bool
  deriving DecidableEq, Repr

/-- A partner's messages of the link key exchange (R326): nonce, X25519 key, ML-KEM-768 key, identity keys, endorsement, its
encapsulation to this node's key, and its signatures. -/
structure KeyMsg where
  nonce : List Byte
  x25519 : List Byte
  mlkem : List Byte
  idEd : List Byte
  idMl : List Byte
  endEd : List Byte
  endMl : List Byte
  ct : List Byte
  sigEd : List Byte
  sigMl : List Byte
  deriving DecidableEq, Repr

/-- The reference inputs (Table 20-7). -/
inductive RefClk where
  | sys | xtal | fab | pcie
  deriving DecidableEq, Repr

/-- Who makes a register access: the host driver through BAR0, or the board over SMBus; JTAG goes through the debug bridge
(R356, R360). -/
inductive Requester where
  | host | smbus
  deriving DecidableEq, Repr

/-- One command of the block: one constructor per row of spec/opcode_table.json, with the row's operands. -/
inductive Instr where
  /-- JOB_LOAD (R19). Host command that checks the step graph image, its arguments, tables and descriptors, and loads the job or refuses it. -/
  | jobLoad (seq : BitVec 16) (addr len sess step : Word)
  /-- JOB_LOAD_COMPLETE (R104). Loading finishes: patterns are compiled, LLM modes are set, the job reaches READY and LOADED is posted. -/
  | jobLoadComplete
  /-- RUN (R34). Host command that clears SCH_RUN_LEFT, keeps or clears SCH_HOLD_AT, and dispatches the job. -/
  | run (seq : BitVec 16)
  /-- RUN_N (R28). Host command that acts as RUN with SCH_RUN_LEFT set to N. -/
  | runN (seq : BitVec 16) (n : Word)
  /-- HOLD (R33). Host command that starts a job-wide hold by proposing a hold target. -/
  | hold (seq : BitVec 16)
  /-- END (R33). Host command that starts a job-wide end, with an optional checkpoint first. -/
  | endJob (seq : BitVec 16) (ckpt : Word)
  /-- CKPT (R277). Host command that triggers one checkpoint, at the next boundary or at once in READY or HOLD. -/
  | ckpt (seq : BitVec 16) (dest : Word)
  /-- ARM_CKPT (R275). Host command that arms or disarms the checkpoint on heartbeat lapse. -/
  | armCkpt (seq : BitVec 16) (dest arm : Word)
  /-- ATTACH (R36). Host command that clears LAPSE, restarts the heartbeat timer and returns SCH_STEP. -/
  | attach (seq : BitVec 16) (driver : Word)
  /-- RESTORE (R289). Host command that loads a job from a committed checkpoint selected by a restore record. -/
  | restore (seq : BitVec 16) (record : Word)
  /-- RESTORE_READ_DONE (R290). The reads of one restore candidate complete; the node verifies it, then accepts it, refuses it or stops. -/
  | restoreReadDone
  /-- ABORT (R31). Host command that stops every segment at once, without a boundary. -/
  | abort (seq : BitVec 16)
  /-- ABORT_COMPLETE (R31). Every engine has stopped and every segment grant is released, so the job reaches IDLE. -/
  | abortComplete
  /-- QUIET_END (R212). The 4 ms quiet time after a job ends expires, and a held JOB_LOAD or RESTORE proceeds. -/
  | quietEnd
  /-- SEGMENT_START (R21). A segment starts once its predecessors are complete and its wake has been admitted; its wake is requested at that point. -/
  | segmentStart (seg : Fin 256)
  /-- SEGMENT_DONE (R24). A segment completes and SCH releases the grants of domains that no running or ready segment needs. -/
  | segmentDone (seg : Fin 256)
  /-- SCH_EVT_POP (R37). A write that removes the oldest event record. -/
  | schEvtPop
  /-- SCH_HB (R35). A host heartbeat write that restarts the heartbeat age in the AON domain. -/
  | schHb
  /-- HEARTBEAT_LAPSE (R35). SCH_HB_AGE reaches 5,000 ms; SCH sets LAPSE, posts LAPSE and starts a job-wide hold according to state. -/
  | heartbeatLapse
  /-- SCH_HOLD_AT (R33). A write of a hold target by the host or another node of the node set keeps the maximum and starts or joins the hold. -/
  | schHoldAt (node : Option (BitVec 14)) (v : Word)
  /-- SEED_WRITE (R270). A host write of a Seed bank entry, accepted only in READY. -/
  | seedWrite (seed : Fin 16) (word : Fin 2) (v : Word)
  /-- CKPT_SHARDS_DURABLE (R286). Every object piece of a node is acknowledged; the node stores its rank entry at the coordinator and posts CKPT_DONE. -/
  | ckptShardsDurable
  /-- CKPT_MANIFEST_PUT (R286). The coordinator finds every rank entry for the step and puts the MANIFEST. -/
  | ckptManifestPut
  /-- CKPT_COMMIT (R286). The LAST piece of the manifest is acknowledged; the step is committed and CKPT_DONE is posted. -/
  | ckptCommit
  /-- CKPT_TIMEOUT (R287). SCH_CKPT_TIMEOUT passes while the coordinator waits; it posts CKPT_DONE with E_CKPT_INCOMPLETE. -/
  | ckptTimeout
  /-- FETCH (R63). Tile command that reads operand rows through the converter into slots. -/
  | fetch (t : Fin 256)
  /-- MMA (R66). Tile command that multiplies short-format blocks into an accumulator bank in fixed group order. -/
  | mma (t : Fin 256)
  /-- WMMA (R72). Tile command that forms Walnut FP64 slice products exactly into the long store. -/
  | wmma (t : Fin 256)
  /-- DRAIN (R64). Tile command that converts and writes a bank or the long store to a field or to a vector engine tile buffer. -/
  | drain (t : Fin 256)
  /-- LADD (R78). Tile command that adds long-accumulator records from a field into the long store. -/
  | ladd (t : Fin 256)
  /-- DRAIN_ACCEPT (R90). A waiting DRAIN to a vector engine half is accepted once the half is EMPTY and the tile is next in its fill order. -/
  | drainAccept (t : Fin 256)
  /-- VLD (R92). Vector instruction that loads field elements through an access descriptor. -/
  | vld (v : Fin 16)
  /-- VST (R93). Vector instruction that stores elements through the result stage in the field's format. -/
  | vst (v : Fin 16)
  /-- TAKE (R90). Vector instruction that waits for a half to be FULL and marks it TAKEN. -/
  | take (v : Fin 16)
  /-- REL (R90). Vector instruction that releases a half and advances its fill order. -/
  | rel (v : Fin 16)
  /-- LOOP (R88). Vector instruction that repeats the next L instructions a given number of times, advancing descriptors. -/
  | loop (v : Fin 16)
  /-- VEC_MOV (R87). Vector element-wise copy. -/
  | vecMov (v : Fin 16)
  /-- VEC_ADD (R87). Vector element-wise addition rounded once. -/
  | vecAdd (v : Fin 16)
  /-- VEC_SUB (R87). Vector element-wise subtraction. -/
  | vecSub (v : Fin 16)
  /-- VEC_MUL (R87). Vector element-wise multiplication. -/
  | vecMul (v : Fin 16)
  /-- VEC_FMA (R87). Vector fused multiply-add rounded once. -/
  | vecFma (v : Fin 16)
  /-- VEC_MIN (R87). Vector element-wise minimum. -/
  | vecMin (v : Fin 16)
  /-- VEC_MAX (R87). Vector element-wise maximum. -/
  | vecMax (v : Fin 16)
  /-- VEC_ABS (R87). Vector element-wise absolute value. -/
  | vecAbs (v : Fin 16)
  /-- VEC_NEG (R87). Vector element-wise negation. -/
  | vecNeg (v : Fin 16)
  /-- RELU (R87). Vector element-wise rectifier. -/
  | relu (v : Fin 16)
  /-- VEC_CLAMP (R87). Vector element-wise clamp between two bounds. -/
  | vecClamp (v : Fin 16)
  /-- VEC_CMPLT (R87). Vector element-wise less-than compare giving an all-ones mask. -/
  | vecCmplt (v : Fin 16)
  /-- VEC_CMPEQ (R87). Vector element-wise equality compare giving an all-ones mask. -/
  | vecCmpeq (v : Fin 16)
  /-- SEL (R87). Vector element-wise select on a mask. -/
  | sel (v : Fin 16)
  /-- VEC_AND (R87). Vector bitwise AND. -/
  | vecAnd (v : Fin 16)
  /-- VEC_OR (R87). Vector bitwise OR. -/
  | vecOr (v : Fin 16)
  /-- VEC_XOR (R87). Vector bitwise XOR. -/
  | vecXor (v : Fin 16)
  /-- VEC_SHL (R87). Vector INT32 shift left. -/
  | vecShl (v : Fin 16)
  /-- VEC_SHRA (R87). Vector INT32 arithmetic shift right. -/
  | vecShra (v : Fin 16)
  /-- VEC_DIV (R87). Vector element-wise division. -/
  | vecDiv (v : Fin 16)
  /-- VEC_SQRT (R87). Vector element-wise square root. -/
  | vecSqrt (v : Fin 16)
  /-- EXP2 (R87). Vector element-wise power of two, rounded once. -/
  | exp2 (v : Fin 16)
  /-- LOG2 (R87). Vector element-wise base-2 logarithm, rounded once. -/
  | log2 (v : Fin 16)
  /-- RSUM (R89). Vector sum reduction in the fixed tree. -/
  | rsum (v : Fin 16)
  /-- RMAX (R89). Vector maximum reduction in the fixed tree. -/
  | rmax (v : Fin 16)
  /-- RMIN (R89). Vector minimum reduction in the fixed tree. -/
  | rmin (v : Fin 16)
  /-- CLEAR (R101). Assembly instruction that writes +0 to a range of destination elements. -/
  | clear (u : Fin 4)
  /-- GSS (R101). Assembly gather-scale-scatter over index fields in ascending j. -/
  | gss (u : Fin 4)
  /-- GSP (R101). Assembly gather-scale-scatter with a product of two sources. -/
  | gsp (u : Fin 4)
  /-- FACTOR (R108). Solver command that factors along the schedule with static pivoting, or reuses a valid factor. -/
  | factor (id : Fin 16)
  /-- SOLVE (R115). Solver command that starts a solve from the factor or from a warm guess. -/
  | solve (id : Fin 16)
  /-- RESID (R116). Solver command that forms the residual, the norms and the convergence test. -/
  | resid (id : Fin 16)
  /-- CORR (R117). Solver command that runs one refinement sweep or skips it. -/
  | corr (id : Fin 16)
  /-- EXTADD (R108). Solver task, started when ready, that adds a child's contribution block into a front. -/
  | extadd (e : Fin 4)
  /-- PANEL (R108). Solver task that processes a supernode's pivot columns, applying static pivoting. -/
  | panel (e : Fin 4)
  /-- UPDATE (R109). Solver task that forms the contribution block, natively or by Walnut offload to FEED tiles. -/
  | update (e : Fin 4)
  /-- ADD (R134). Core ALU 64-bit addition. -/
  | aluAdd (t : Fin 512) (rd rs1 rs2 : BitVec 5)
  /-- SUB (R134). Core ALU subtraction. -/
  | aluSub (t : Fin 512) (rd rs1 rs2 : BitVec 5)
  /-- AND (R134). Core ALU bitwise AND. -/
  | aluAnd (t : Fin 512) (rd rs1 rs2 : BitVec 5)
  /-- OR (R134). Core ALU bitwise OR. -/
  | aluOr (t : Fin 512) (rd rs1 rs2 : BitVec 5)
  /-- XOR (R134). Core ALU bitwise XOR. -/
  | aluXor (t : Fin 512) (rd rs1 rs2 : BitVec 5)
  /-- ANDN (R134). Core ALU rs1 AND NOT rs2. -/
  | aluAndn (t : Fin 512) (rd rs1 rs2 : BitVec 5)
  /-- SHL (R134). Core ALU shift left by rs2 mod 64. -/
  | aluShl (t : Fin 512) (rd rs1 rs2 : BitVec 5)
  /-- SHRL (R134). Core ALU logical shift right. -/
  | aluShrl (t : Fin 512) (rd rs1 rs2 : BitVec 5)
  /-- SHRA (R134). Core ALU arithmetic shift right. -/
  | aluShra (t : Fin 512) (rd rs1 rs2 : BitVec 5)
  /-- CMPEQ (R134). Core ALU equality compare writing 1 or 0. -/
  | aluCmpeq (t : Fin 512) (rd rs1 rs2 : BitVec 5)
  /-- CMPLT (R134). Core ALU signed less-than compare. -/
  | aluCmplt (t : Fin 512) (rd rs1 rs2 : BitVec 5)
  /-- CMPLTU (R134). Core ALU unsigned less-than compare. -/
  | aluCmpltu (t : Fin 512) (rd rs1 rs2 : BitVec 5)
  /-- MULLO (R134). Core ALU low half of product. -/
  | aluMullo (t : Fin 512) (rd rs1 rs2 : BitVec 5)
  /-- MULHI (R134). Core ALU signed high half of product. -/
  | aluMulhi (t : Fin 512) (rd rs1 rs2 : BitVec 5)
  /-- MULHIU (R134). Core ALU unsigned high half of product. -/
  | aluMulhiu (t : Fin 512) (rd rs1 rs2 : BitVec 5)
  /-- DIVS (R134). Core ALU signed division without a fault. -/
  | aluDivs (t : Fin 512) (rd rs1 rs2 : BitVec 5)
  /-- DIVU (R134). Core ALU unsigned division. -/
  | aluDivu (t : Fin 512) (rd rs1 rs2 : BitVec 5)
  /-- MODS (R134). Core ALU signed remainder. -/
  | aluMods (t : Fin 512) (rd rs1 rs2 : BitVec 5)
  /-- MODU (R134). Core ALU unsigned remainder. -/
  | aluModu (t : Fin 512) (rd rs1 rs2 : BitVec 5)
  /-- MIN (R134). Core ALU signed minimum. -/
  | aluMin (t : Fin 512) (rd rs1 rs2 : BitVec 5)
  /-- MAX (R134). Core ALU signed maximum. -/
  | aluMax (t : Fin 512) (rd rs1 rs2 : BitVec 5)
  /-- MINU (R134). Core ALU unsigned minimum. -/
  | aluMinu (t : Fin 512) (rd rs1 rs2 : BitVec 5)
  /-- MAXU (R134). Core ALU unsigned maximum. -/
  | aluMaxu (t : Fin 512) (rd rs1 rs2 : BitVec 5)
  /-- CLZ (R134). Core ALU count of leading zeros. -/
  | aluClz (t : Fin 512) (rd rs1 rs2 : BitVec 5)
  /-- CTZ (R134). Core ALU count of trailing zeros. -/
  | aluCtz (t : Fin 512) (rd rs1 rs2 : BitVec 5)
  /-- POPC (R134). Core ALU population count. -/
  | aluPopc (t : Fin 512) (rd rs1 rs2 : BitVec 5)
  /-- IADD (R134). Core add of a sign-extended immediate. -/
  | iadd (t : Fin 512) (rd rs1 : BitVec 5) (imm : BitVec 16)
  /-- IAND (R134). Core AND with an immediate. -/
  | iand (t : Fin 512) (rd rs1 : BitVec 5) (imm : BitVec 16)
  /-- IOR (R134). Core OR with an immediate. -/
  | ior (t : Fin 512) (rd rs1 : BitVec 5) (imm : BitVec 16)
  /-- IXOR (R134). Core XOR with an immediate. -/
  | ixor (t : Fin 512) (rd rs1 : BitVec 5) (imm : BitVec 16)
  /-- ISHF_SHL (R134). Core immediate shift left. -/
  | ishfShl (t : Fin 512) (rd rs1 : BitVec 5) (sh : BitVec 6)
  /-- ISHF_SHRL (R134). Core immediate logical shift right. -/
  | ishfShrl (t : Fin 512) (rd rs1 : BitVec 5) (sh : BitVec 6)
  /-- ISHF_SHRA (R134). Core immediate arithmetic shift right. -/
  | ishfShra (t : Fin 512) (rd rs1 : BitVec 5) (sh : BitVec 6)
  /-- ICMPLT (R134). Core signed compare with an immediate. -/
  | icmplt (t : Fin 512) (rd rs1 : BitVec 5) (imm : BitVec 16)
  /-- IHI (R134). Core load of an upper immediate. -/
  | ihi (t : Fin 512) (rd : BitVec 5) (imm : BitVec 21)
  /-- PCHI (R134). Core PC plus an upper immediate. -/
  | pchi (t : Fin 512) (rd : BitVec 5) (imm : BitVec 21)
  /-- LD8S (R130). Core signed byte load, local or remote. -/
  | ld8s (t : Fin 512) (rd rs1 : BitVec 5) (imm : BitVec 16)
  /-- LD8U (R130). Core unsigned byte load. -/
  | ld8u (t : Fin 512) (rd rs1 : BitVec 5) (imm : BitVec 16)
  /-- LD16S (R130). Core signed 16-bit load. -/
  | ld16s (t : Fin 512) (rd rs1 : BitVec 5) (imm : BitVec 16)
  /-- LD16U (R130). Core unsigned 16-bit load. -/
  | ld16u (t : Fin 512) (rd rs1 : BitVec 5) (imm : BitVec 16)
  /-- LD32S (R130). Core signed 32-bit load. -/
  | ld32s (t : Fin 512) (rd rs1 : BitVec 5) (imm : BitVec 16)
  /-- LD32U (R130). Core unsigned 32-bit load. -/
  | ld32u (t : Fin 512) (rd rs1 : BitVec 5) (imm : BitVec 16)
  /-- LD64 (R130). Core 64-bit load. -/
  | ld64 (t : Fin 512) (rd rs1 : BitVec 5) (imm : BitVec 16)
  /-- ST8 (R130). Core byte store, local or posted remote. -/
  | st8 (t : Fin 512) (rs2 rs1 : BitVec 5) (imm : BitVec 16)
  /-- ST16 (R130). Core 16-bit store. -/
  | st16 (t : Fin 512) (rs2 rs1 : BitVec 5) (imm : BitVec 16)
  /-- ST32 (R130). Core 32-bit store. -/
  | st32 (t : Fin 512) (rs2 rs1 : BitVec 5) (imm : BitVec 16)
  /-- ST64 (R130). Core 64-bit store. -/
  | st64 (t : Fin 512) (rs2 rs1 : BitVec 5) (imm : BitVec 16)
  /-- FLD32 (R135). Core FP32 load into an f register. -/
  | fld32 (t : Fin 512) (fd rs1 : BitVec 5) (imm : BitVec 16)
  /-- FLD64 (R135). Core FP64 load into an f register. -/
  | fld64 (t : Fin 512) (fd rs1 : BitVec 5) (imm : BitVec 16)
  /-- FST32 (R135). Core FP32 store from an f register. -/
  | fst32 (t : Fin 512) (fs2 rs1 : BitVec 5) (imm : BitVec 16)
  /-- FST64 (R135). Core FP64 store from an f register. -/
  | fst64 (t : Fin 512) (fs2 rs1 : BitVec 5) (imm : BitVec 16)
  /-- BRZ (R134). Core conditional branch testing one register against zero. -/
  | brz (t : Fin 512) (rs1 : BitVec 5) (cond : BitVec 4) (off : BitVec 17)
  /-- CALL (R134). Core PC-relative call. -/
  | call (t : Fin 512) (rd : BitVec 5) (off : BitVec 21)
  /-- CALLR (R134). Core register-indirect call. -/
  | callr (t : Fin 512) (rd rs1 : BitVec 5) (imm : BitVec 16)
  /-- AMO_SWAP (R133). Core atomic swap. -/
  | amoSwap (t : Fin 512) (rd rs1 rs2 : BitVec 5) (ord : BitVec 2) (w : Bool)
  /-- AMO_ADD (R133). Core atomic wrapping add with result. -/
  | amoAdd (t : Fin 512) (rd rs1 rs2 : BitVec 5) (ord : BitVec 2) (w : Bool)
  /-- AMO_AND (R133). Core atomic AND. -/
  | amoAnd (t : Fin 512) (rd rs1 rs2 : BitVec 5) (ord : BitVec 2) (w : Bool)
  /-- AMO_OR (R133). Core atomic OR. -/
  | amoOr (t : Fin 512) (rd rs1 rs2 : BitVec 5) (ord : BitVec 2) (w : Bool)
  /-- AMO_XOR (R133). Core atomic XOR. -/
  | amoXor (t : Fin 512) (rd rs1 rs2 : BitVec 5) (ord : BitVec 2) (w : Bool)
  /-- AMO_MIN (R133). Core atomic signed minimum. -/
  | amoMin (t : Fin 512) (rd rs1 rs2 : BitVec 5) (ord : BitVec 2) (w : Bool)
  /-- AMO_MAX (R133). Core atomic signed maximum. -/
  | amoMax (t : Fin 512) (rd rs1 rs2 : BitVec 5) (ord : BitVec 2) (w : Bool)
  /-- AMO_MINU (R133). Core atomic unsigned minimum. -/
  | amoMinu (t : Fin 512) (rd rs1 rs2 : BitVec 5) (ord : BitVec 2) (w : Bool)
  /-- AMO_MAXU (R133). Core atomic unsigned maximum. -/
  | amoMaxu (t : Fin 512) (rd rs1 rs2 : BitVec 5) (ord : BitVec 2) (w : Bool)
  /-- CAS (R133). Core atomic compare-and-swap. -/
  | cas (t : Fin 512) (rd rs1 rs2 : BitVec 5) (ord : BitVec 2) (w : Bool)
  /-- AMO_FADD (R158). Core atomic float add, ordered and logged with a key in an ordered region, otherwise unordered. -/
  | amoFadd (t : Fin 512) (rd rs1 rs2 : BitVec 5) (ord : BitVec 2) (w : Bool)
  /-- ADDP (R133). Core posted atomic add without a result. -/
  | addp (t : Fin 512) (rd rs1 rs2 : BitVec 5) (ord : BitVec 2) (w : Bool)
  /-- LDACQ (R131). Core acquire load. -/
  | ldacq (t : Fin 512) (rd rs1 rs2 : BitVec 5) (ord : BitVec 2) (w : Bool)
  /-- STREL (R131). Core release store that issues after earlier writes are acknowledged. -/
  | strel (t : Fin 512) (rd rs1 rs2 : BitVec 5) (ord : BitVec 2) (w : Bool)
  /-- FENCE_L (R131). Core fence that waits until earlier local accesses are performed. -/
  | fenceL (t : Fin 512)
  /-- FENCE_G (R131). Core fence that also waits for acknowledgements per destination sequence. -/
  | fenceG (t : Fin 512)
  /-- HALT (R122). Core instruction that ends a thread after a FENCE.G wait. -/
  | halt (t : Fin 512)
  /-- YIELD (R123). Core instruction that ends the thread's turn. -/
  | yield (t : Fin 512)
  /-- FRET (R128). Core return from a fault handler to FEPC. -/
  | fret (t : Fin 512)
  /-- FADD (R137). Core scalar float addition. -/
  | fadd (t : Fin 512) (ty : FType) (fd fs1 fs2 : BitVec 5)
  /-- FSUB (R137). Core scalar float subtraction. -/
  | fsub (t : Fin 512) (ty : FType) (fd fs1 fs2 : BitVec 5)
  /-- FMUL (R137). Core scalar float multiplication. -/
  | fmul (t : Fin 512) (ty : FType) (fd fs1 fs2 : BitVec 5)
  /-- FDIV (R137). Core scalar float division. -/
  | fdiv (t : Fin 512) (ty : FType) (fd fs1 fs2 : BitVec 5)
  /-- FSQRT (R137). Core scalar float square root. -/
  | fsqrt (t : Fin 512) (ty : FType) (fd fs1 fs2 : BitVec 5)
  /-- FMIN (R137). Core scalar float minimum. -/
  | fmin (t : Fin 512) (ty : FType) (fd fs1 fs2 : BitVec 5)
  /-- FMAX (R137). Core scalar float maximum. -/
  | fmax (t : Fin 512) (ty : FType) (fd fs1 fs2 : BitVec 5)
  /-- FCPYS (R137). Core copy of magnitude with another sign. -/
  | fcpys (t : Fin 512) (ty : FType) (fd fs1 fs2 : BitVec 5)
  /-- FCMPEQ (R137). Core float equality compare into an x register. -/
  | fcmpeq (t : Fin 512) (ty : FType) (rd fs1 fs2 : BitVec 5)
  /-- FCMPLT (R137). Core float less-than compare. -/
  | fcmplt (t : Fin 512) (ty : FType) (rd fs1 fs2 : BitVec 5)
  /-- FCMPLE (R137). Core float less-or-equal compare. -/
  | fcmple (t : Fin 512) (ty : FType) (rd fs1 fs2 : BitVec 5)
  /-- FCVT (R136). Core scalar conversion, always RNE. -/
  | fcvt (t : Fin 512) (src dst : CvtType) (fd fs1 : BitVec 5)
  /-- FTOX (R137). Core move of float bits to an x register. -/
  | ftox (t : Fin 512) (ty : FType) (rd fs1 : BitVec 5)
  /-- XTOF (R137). Core move of x bits to an f register. -/
  | xtof (t : Fin 512) (ty : FType) (fd rs1 : BitVec 5)
  /-- FMADD (R136). Core scalar fused multiply-add in one of four sign variants. -/
  | fmadd (t : Fin 512) (ty : FType) (var : BitVec 2) (fd fs1 fs2 fs3 : BitVec 5)
  /-- CSR_READ (R136). Core read of a CSR. -/
  | csrRead (t : Fin 512) (rd : BitVec 5) (csr : BitVec 12)
  /-- CSR_WRITE (R136). Core read then write of a CSR, with a fault for read-only or reserved values. -/
  | csrWrite (t : Fin 512) (rd rs1 : BitVec 5) (csr : BitVec 12)
  /-- WADD (R138). WL float addition. -/
  | wadd (t : Fin 512) (et : ElemType) (k : BitVec 3) (z : Bool) (wd ws1 ws2 : BitVec 5)
  /-- WSUB (R138). WL float subtraction. -/
  | wsub (t : Fin 512) (et : ElemType) (k : BitVec 3) (z : Bool) (wd ws1 ws2 : BitVec 5)
  /-- WMUL (R138). WL float multiplication. -/
  | wmul (t : Fin 512) (et : ElemType) (k : BitVec 3) (z : Bool) (wd ws1 ws2 : BitVec 5)
  /-- WDIV (R138). WL float division. -/
  | wdiv (t : Fin 512) (et : ElemType) (k : BitVec 3) (z : Bool) (wd ws1 ws2 : BitVec 5)
  /-- WSQRT (R138). WL float square root. -/
  | wsqrt (t : Fin 512) (et : ElemType) (k : BitVec 3) (z : Bool) (wd ws1 ws2 : BitVec 5)
  /-- WMIN (R138). WL float minimum. -/
  | wmin (t : Fin 512) (et : ElemType) (k : BitVec 3) (z : Bool) (wd ws1 ws2 : BitVec 5)
  /-- WMAX (R138). WL float maximum. -/
  | wmax (t : Fin 512) (et : ElemType) (k : BitVec 3) (z : Bool) (wd ws1 ws2 : BitVec 5)
  /-- WABS (R138). WL float absolute value. -/
  | wabs (t : Fin 512) (et : ElemType) (k : BitVec 3) (z : Bool) (wd ws1 ws2 : BitVec 5)
  /-- WNEG (R138). WL float negation. -/
  | wneg (t : Fin 512) (et : ElemType) (k : BitVec 3) (z : Bool) (wd ws1 ws2 : BitVec 5)
  /-- WSGNJ (R138). WL sign injection. -/
  | wsgnj (t : Fin 512) (et : ElemType) (k : BitVec 3) (z : Bool) (wd ws1 ws2 : BitVec 5)
  /-- WINT_ADD (R138). WL wrapping integer addition. -/
  | wintAdd (t : Fin 512) (et : ElemType) (k : BitVec 3) (z : Bool) (wd ws1 ws2 : BitVec 5)
  /-- WINT_SUB (R138). WL wrapping integer subtraction. -/
  | wintSub (t : Fin 512) (et : ElemType) (k : BitVec 3) (z : Bool) (wd ws1 ws2 : BitVec 5)
  /-- WMULLO (R138). WL integer low-half product. -/
  | wmullo (t : Fin 512) (et : ElemType) (k : BitVec 3) (z : Bool) (wd ws1 ws2 : BitVec 5)
  /-- WMULHI (R138). WL integer signed high-half product. -/
  | wmulhi (t : Fin 512) (et : ElemType) (k : BitVec 3) (z : Bool) (wd ws1 ws2 : BitVec 5)
  /-- WMULHIU (R138). WL integer unsigned high-half product. -/
  | wmulhiu (t : Fin 512) (et : ElemType) (k : BitVec 3) (z : Bool) (wd ws1 ws2 : BitVec 5)
  /-- WINT_MIN (R138). WL integer signed minimum. -/
  | wintMin (t : Fin 512) (et : ElemType) (k : BitVec 3) (z : Bool) (wd ws1 ws2 : BitVec 5)
  /-- WINT_MAX (R138). WL integer signed maximum. -/
  | wintMax (t : Fin 512) (et : ElemType) (k : BitVec 3) (z : Bool) (wd ws1 ws2 : BitVec 5)
  /-- WMINU (R138). WL integer unsigned minimum. -/
  | wminu (t : Fin 512) (et : ElemType) (k : BitVec 3) (z : Bool) (wd ws1 ws2 : BitVec 5)
  /-- WMAXU (R138). WL integer unsigned maximum. -/
  | wmaxu (t : Fin 512) (et : ElemType) (k : BitVec 3) (z : Bool) (wd ws1 ws2 : BitVec 5)
  /-- WAND (R138). WL bitwise AND. -/
  | wand (t : Fin 512) (et : ElemType) (k : BitVec 3) (z : Bool) (wd ws1 ws2 : BitVec 5)
  /-- WOR (R138). WL bitwise OR. -/
  | wor (t : Fin 512) (et : ElemType) (k : BitVec 3) (z : Bool) (wd ws1 ws2 : BitVec 5)
  /-- WXOR (R138). WL bitwise XOR. -/
  | wxor (t : Fin 512) (et : ElemType) (k : BitVec 3) (z : Bool) (wd ws1 ws2 : BitVec 5)
  /-- WANDN (R138). WL a AND NOT b. -/
  | wandn (t : Fin 512) (et : ElemType) (k : BitVec 3) (z : Bool) (wd ws1 ws2 : BitVec 5)
  /-- WSHL (R138). WL shift left. -/
  | wshl (t : Fin 512) (et : ElemType) (k : BitVec 3) (z : Bool) (wd ws1 ws2 : BitVec 5)
  /-- WSHR (R138). WL logical shift right. -/
  | wshr (t : Fin 512) (et : ElemType) (k : BitVec 3) (z : Bool) (wd ws1 ws2 : BitVec 5)
  /-- WSHRA (R138). WL arithmetic shift right. -/
  | wshra (t : Fin 512) (et : ElemType) (k : BitVec 3) (z : Bool) (wd ws1 ws2 : BitVec 5)
  /-- WCMP_EQ (R138). WL equality compare into a mask register. -/
  | wcmpEq (t : Fin 512) (et : ElemType) (k : BitVec 3) (z : Bool) (kd ws1 ws2 : BitVec 5)
  /-- WCMP_NE (R138). WL inequality compare. -/
  | wcmpNe (t : Fin 512) (et : ElemType) (k : BitVec 3) (z : Bool) (kd ws1 ws2 : BitVec 5)
  /-- WCMP_LT (R138). WL signed or float less-than compare. -/
  | wcmpLt (t : Fin 512) (et : ElemType) (k : BitVec 3) (z : Bool) (kd ws1 ws2 : BitVec 5)
  /-- WCMP_LE (R138). WL signed or float less-or-equal compare. -/
  | wcmpLe (t : Fin 512) (et : ElemType) (k : BitVec 3) (z : Bool) (kd ws1 ws2 : BitVec 5)
  /-- WCMP_LTU (R138). WL unsigned less-than compare. -/
  | wcmpLtu (t : Fin 512) (et : ElemType) (k : BitVec 3) (z : Bool) (kd ws1 ws2 : BitVec 5)
  /-- WCMP_LEU (R138). WL unsigned less-or-equal compare. -/
  | wcmpLeu (t : Fin 512) (et : ElemType) (k : BitVec 3) (z : Bool) (kd ws1 ws2 : BitVec 5)
  /-- WCMP_UNORD (R138). WL unordered test for NaN. -/
  | wcmpUnord (t : Fin 512) (et : ElemType) (k : BitVec 3) (z : Bool) (kd ws1 ws2 : BitVec 5)
  /-- WMOV (R138). WL masked register move. -/
  | wmov (t : Fin 512) (et : ElemType) (k : BitVec 3) (z : Bool) (wd ws1 : BitVec 5)
  /-- WBCX (R138). WL broadcast from an x register. -/
  | wbcx (t : Fin 512) (et : ElemType) (k : BitVec 3) (z : Bool) (wd rs1 : BitVec 5)
  /-- WBCF (R138). WL broadcast from an f register. -/
  | wbcf (t : Fin 512) (et : ElemType) (k : BitVec 3) (z : Bool) (wd fs1 : BitVec 5)
  /-- WEXTX (R138). WL extraction of one element to an x register. -/
  | wextx (t : Fin 512) (et : ElemType) (k : BitVec 3) (z : Bool) (rd ws1 rs2 : BitVec 5)
  /-- WINSX (R138). WL insertion of an x value into one element. -/
  | winsx (t : Fin 512) (et : ElemType) (k : BitVec 3) (z : Bool) (wd rs1 rs2 : BitVec 5)
  /-- WPERM (R138). WL element permutation. -/
  | wperm (t : Fin 512) (et : ElemType) (k : BitVec 3) (z : Bool) (wd ws1 ws2 : BitVec 5)
  /-- WREDADD (R138). WL sum reduction in the fixed tree. -/
  | wredadd (t : Fin 512) (et : ElemType) (k : BitVec 3) (z : Bool) (wd ws1 : BitVec 5)
  /-- WREDMAX (R138). WL maximum reduction. -/
  | wredmax (t : Fin 512) (et : ElemType) (k : BitVec 3) (z : Bool) (wd ws1 : BitVec 5)
  /-- WREDMIN (R138). WL minimum reduction. -/
  | wredmin (t : Fin 512) (et : ElemType) (k : BitVec 3) (z : Bool) (wd ws1 : BitVec 5)
  /-- KMOVX (R138). Move of an x register into a mask register. -/
  | kmovx (t : Fin 512) (kd rs1 : BitVec 5)
  /-- XMOVK (R138). Move of a mask register into an x register. -/
  | xmovk (t : Fin 512) (rd ks1 : BitVec 5)
  /-- KAND (R138). Mask AND. -/
  | kand (t : Fin 512) (kd ks1 ks2 : BitVec 5)
  /-- KOR (R138). Mask OR. -/
  | kor (t : Fin 512) (kd ks1 ks2 : BitVec 5)
  /-- KXOR (R138). Mask XOR. -/
  | kxor (t : Fin 512) (kd ks1 ks2 : BitVec 5)
  /-- KNOT (R138). Mask NOT. -/
  | knot (t : Fin 512) (kd ks1 : BitVec 5)
  /-- WFMA (R139). WL fused a*b+c. -/
  | wfma (t : Fin 512) (ft : BitVec 2) (k : BitVec 3) (z : Bool) (wd ws1 ws2 ws3 : BitVec 5)
  /-- WFMS (R139). WL fused a*b-c. -/
  | wfms (t : Fin 512) (ft : BitVec 2) (k : BitVec 3) (z : Bool) (wd ws1 ws2 ws3 : BitVec 5)
  /-- WFNMA (R139). WL fused -a*b+c. -/
  | wfnma (t : Fin 512) (ft : BitVec 2) (k : BitVec 3) (z : Bool) (wd ws1 ws2 ws3 : BitVec 5)
  /-- WFNMS (R139). WL fused -a*b-c. -/
  | wfnms (t : Fin 512) (ft : BitVec 2) (k : BitVec 3) (z : Bool) (wd ws1 ws2 ws3 : BitVec 5)
  /-- MULWL (R138). WL signed widening product of the lower half. -/
  | mulwl (t : Fin 512) (et : ElemType) (k : BitVec 3) (z : Bool) (wd ws1 ws2 : BitVec 5)
  /-- MULWH (R138). WL signed widening product of the upper half. -/
  | mulwh (t : Fin 512) (et : ElemType) (k : BitVec 3) (z : Bool) (wd ws1 ws2 : BitVec 5)
  /-- MULWLU (R138). WL unsigned widening product of the lower half. -/
  | mulwlu (t : Fin 512) (et : ElemType) (k : BitVec 3) (z : Bool) (wd ws1 ws2 : BitVec 5)
  /-- MULWHU (R138). WL unsigned widening product of the upper half. -/
  | mulwhu (t : Fin 512) (et : ElemType) (k : BitVec 3) (z : Bool) (wd ws1 ws2 : BitVec 5)
  /-- FMULWL (R138). WL float widening product of the lower half. -/
  | fmulwl (t : Fin 512) (et : ElemType) (k : BitVec 3) (z : Bool) (wd ws1 ws2 : BitVec 5)
  /-- FMULWH (R138). WL float widening product of the upper half. -/
  | fmulwh (t : Fin 512) (et : ElemType) (k : BitVec 3) (z : Bool) (wd ws1 ws2 : BitVec 5)
  /-- FMAWL (R138). WL widening fused multiply-add of the lower half. -/
  | fmawl (t : Fin 512) (et : ElemType) (k : BitVec 3) (z : Bool) (wd ws1 ws2 : BitVec 5)
  /-- FMAWH (R138). WL widening fused multiply-add of the upper half. -/
  | fmawh (t : Fin 512) (et : ElemType) (k : BitVec 3) (z : Bool) (wd ws1 ws2 : BitVec 5)
  /-- DOT4 (R140). WL signed INT8 four-term dot product into INT32. -/
  | dot4 (t : Fin 512) (et : ElemType) (k : BitVec 3) (z : Bool) (wd ws1 ws2 : BitVec 5)
  /-- DOT4U (R140). WL unsigned INT8 dot product. -/
  | dot4u (t : Fin 512) (et : ElemType) (k : BitVec 3) (z : Bool) (wd ws1 ws2 : BitVec 5)
  /-- DOT4SU (R140). WL signed by unsigned INT8 dot product. -/
  | dot4su (t : Fin 512) (et : ElemType) (k : BitVec 3) (z : Bool) (wd ws1 ws2 : BitVec 5)
  /-- DOT2 (R140). WL INT16 two-term dot product. -/
  | dot2 (t : Fin 512) (et : ElemType) (k : BitVec 3) (z : Bool) (wd ws1 ws2 : BitVec 5)
  /-- DOT8 (R140). WL INT8 eight-term dot product into INT64. -/
  | dot8 (t : Fin 512) (et : ElemType) (k : BitVec 3) (z : Bool) (wd ws1 ws2 : BitVec 5)
  /-- DOT4W (R140). WL INT16 four-term dot product into INT64. -/
  | dot4w (t : Fin 512) (et : ElemType) (k : BitVec 3) (z : Bool) (wd ws1 ws2 : BitVec 5)
  /-- FDOT2H (R140). WL FP16 pair dot product into FP32 with one rounding. -/
  | fdot2h (t : Fin 512) (et : ElemType) (k : BitVec 3) (z : Bool) (wd ws1 ws2 : BitVec 5)
  /-- FDOT2B (R140). WL BF16 pair dot product into FP32. -/
  | fdot2b (t : Fin 512) (et : ElemType) (k : BitVec 3) (z : Bool) (wd ws1 ws2 : BitVec 5)
  /-- FDOT2S (R140). WL FP32 pair dot product into FP64. -/
  | fdot2s (t : Fin 512) (et : ElemType) (k : BitVec 3) (z : Bool) (wd ws1 ws2 : BitVec 5)
  /-- WCVT (R141). WL format conversion into a packed part. -/
  | wcvt (t : Fin 512) (src dst part : BitVec 4) (k : BitVec 3) (z : Bool) (wd ws1 : BitVec 5)
  /-- WLD (R142). WL 64-byte masked load. -/
  | wld (t : Fin 512) (k : BitVec 3) (wd rs1 : BitVec 5) (off : BitVec 13)
  /-- WST (R142). WL 64-byte masked store. -/
  | wst (t : Fin 512) (k : BitVec 3) (ws rs1 : BitVec 5) (off : BitVec 13)
  /-- WGS_GATHER (R143). WL element-by-element gather. -/
  | wgsGather (t : Fin 512) (et : ElemType) (k : BitVec 3) (scale : BitVec 2) (wd rs1 ws2 : BitVec 5)
  /-- WGS_SCATTER (R143). WL element-by-element scatter. -/
  | wgsScatter (t : Fin 512) (et : ElemType) (k : BitVec 3) (scale : BitVec 2) (wd rs1 ws2 : BitVec 5)
  /-- WPHILOX (R144). WL Philox-4x32-10 on four counter lanes. -/
  | wphilox (t : Fin 512) (et : ElemType) (k : BitVec 3) (z : Bool) (wd ws1 ws2 : BitVec 5)
  /-- LOAD (R204). A LOAD request arriving at the target is performed and answered, without a ledger entry. -/
  | reqLoad (q : Req)
  /-- STORE (R204). A STORE request at the target is performed once through the ledger and acknowledged. -/
  | reqStore (q : Req)
  /-- ATOMIC (R204). An ATOMIC request at the target is performed once and returns the old value, repeated for duplicates. -/
  | reqAtomic (q : Req)
  /-- ATOMIC_P (R204). A posted atomic request at the target is performed once and acknowledged. -/
  | reqAtomicP (q : Req)
  /-- BLOCK_ADD (R217). A block add request at the target is performed by the memory-side adders, ordered or unordered. -/
  | reqBlockAdd (q : Req)
  /-- MCAST (R218). A multicast packet at its replicating node is sent as member copies and performed locally if selected. -/
  | reqMcast (q : Req) (mask : BitVec 32) (seqs : List (BitVec 32))
  /-- COLL_CONTRIB (R255). A contribution piece at the home is folded, parked, staged or moved to home reduction. -/
  | reqCollContrib (q : Req)
  /-- COLL_RESULT (R261). A result piece at a member is written at RESULT + OFFSET and may complete the descriptor. -/
  | reqCollResult (q : Req)
  /-- COLL_NOTICE (R263). A stall notice at a member raises the stall if the member has not issued the collective. -/
  | reqCollNotice (q : Req)
  /-- COLL_FAILED (R262). A FAILED piece at a member completes its descriptor as failed. -/
  | reqCollFailed (q : Req)
  /-- FLOOR_UPD (R202). A floor update at the target raises the stream floor and frees ledger entries. -/
  | reqFloorUpd (q : Req)
  /-- NODE_REPORT (R246). A node report at the report node is forwarded to the host as HBR_PEND bits or report queue records. -/
  | reqNodeReport (q : Req)
  /-- RSP_DATA (R193). A data response at the source completes its request, writes the data and releases the tag. -/
  | rspData (p : Rsp)
  /-- RSP_ACK (R208). An acknowledgement at the source marks its sequence, advances ACKED and releases waiting fences. -/
  | rspAck (p : Rsp)
  /-- RSP_ERR (R197). An error response at the source acknowledges the request and delivers the error to its originator. -/
  | rspErr (p : Rsp)
  /-- REQUEST_RESEND (R200). A request without a response is resent at 200, 600 and 1,400 µs with RETRY incremented. -/
  | requestResend (tag : BitVec 13) (dst : BitVec 16)
  /-- DEAD_TARGET (R209). A request reaches the end of its 2 ms retry window and its target is declared dead. -/
  | deadTarget (tag : BitVec 13) (dst : BitVec 16)
  /-- DEAD_FALLBACK (R211). FXP_DEAD_LIMIT passes without ABORT; requests to the dead target complete in the fallback form. -/
  | deadFallback (target : BitVec 16)
  /-- LEDGER_EXPIRY (R205). A ledger entry reaches its 4 ms lifetime; held requests are examined again, then the entry is freed. -/
  | ledgerExpiry (src : BitVec 14) (sys : Bool) (seq : BitVec 32)
  /-- FLOOR_UPD_SEND (R202). ACKED has advanced and no request has carried it for 20 µs, so a FLOOR_UPD is sent. -/
  | floorUpdSend (dst : BitVec 14) (sys : Bool)
  /-- TAIL_ATOMIC (R214). An atomic on a ring's TAIL word wakes the transaction engine to process slots. -/
  | tailAtomic (ring : Fin 16)
  /-- PUT (R216). Ring descriptor that sends local bytes as STOREs. -/
  | ringPut (ring : Fin 16)
  /-- GET (R216). Ring descriptor that reads remote bytes with LOADs into local memory. -/
  | ringGet (ring : Fin 16)
  /-- RING_MCAST (R218). Ring descriptor that multicasts bytes to the nodes of a list. -/
  | ringMcast (ring : Fin 16)
  /-- REDUCE (R217). Ring descriptor that sends BLOCK_ADDs, keyed or not. -/
  | ringReduce (ring : Fin 16)
  /-- ALLREDUCE (R250). Collective descriptor that sends contributions to the home and, on the home, admits the collective. -/
  | ringAllreduce (ring : Fin 16)
  /-- COLL_REDUCE (R250). Collective descriptor whose result goes to the home alone. -/
  | ringCollReduce (ring : Fin 16)
  /-- BCAST (R250). Collective descriptor that delivers the home's data to every member. -/
  | ringBcast (ring : Fin 16)
  /-- BARRIER (R250). Collective descriptor without data that completes when all members have issued it. -/
  | ringBarrier (ring : Fin 16)
  /-- RING_DESC_DONE (R216). A descriptor's requests are all acknowledged; DONE_VAL or an error value is written to DONE_ADDR. -/
  | ringDescDone (ring : Fin 16) (index : Nat)
  /-- HRED_CLOSE_REPLY (R259). The CLOSE of a home-reduction batch replies; the next batch starts or the result is sent. -/
  | hredCloseReply
  /-- COLL_WATCHDOG (R263). A collective or a parked piece passes 100 ms, and NOTICEs are sent or the stall is raised. -/
  | collWatchdog (cn : BitVec 64)
  /-- ORDERED_FOLD_DONE (R159). Every adder finishes its fold; the CLOSE atomic is performed and its reply returned. -/
  | orderedFoldDone
  /-- SCRUB_ACCESS (R164). MEM reads and checks one line of HBM, correcting it or poisoning it. -/
  | scrubAccess (a : BitVec 40) (found : Ecc)
  /-- CE_RATE_EVAL (R164). Each second MEM compares channel corrected-error rates with the limit and judges channel health. -/
  | ceRateEval
  /-- SLICE_START (R170). The slice interval of a channel expires and a calibration slice starts. -/
  | sliceStart (ch : Fin 512)
  /-- SLICE_END (R169). A slice ends, applies its settings and may call for a retrain. -/
  | sliceEnd (ch : Fin 512) (drift : BitVec 8) (waited : BitVec 16)
  /-- RETRAIN_START (R171). MEM moves a channel to RETRAIN and begins DRAIN once the limits allow it. -/
  | retrainStart (ch : Fin 512) (dirty : BitVec 20)
  /-- RETRAIN_DRAIN_DONE (R171). The channel's issued requests complete and TRAIN begins. -/
  | retrainDrainDone (ch : Fin 512)
  /-- RETRAIN_TRAIN_DONE (R175). Training ends or aborts; REPLAY begins or the channel is fenced. -/
  | retrainTrainDone (ch : Fin 512) (res : Trained) (waited : BitVec 16)
  /-- RETRAIN_REPLAY_DONE (R174). The last pinned Alley line is written back; the pins are released and the channel is ACTIVE. -/
  | retrainReplayDone (ch : Fin 512)
  /-- EVACUATION_DONE (R178). The last row is copied; the channel is RETIRED, the spare ACTIVE, and an advisory is posted. -/
  | evacuationDone (ch : Fin 512)
  /-- LINK_FRAME (R227). A received frame is decoded, authenticated and accepted in FSEQ order, or discarded with a NAK. -/
  | linkFrame (p : Fin 48) (f : Frame)
  /-- PACKET_FORWARD (R240). A packet arriving at a switch is delivered, forwarded minimally or non-minimally, re-routed or discarded. -/
  | packetForward (p : Fin 48) (k : Packet) (spent : BitVec 16)
  /-- LINK_STATE_RECORD (R239). A link-state record received in block 18 updates FSW_GROUP_UP. -/
  | linkStateRecord (member : Fin 32) (port : Fin 48) (up : Bool)
  /-- FEC_RATE_EVAL (R228). A port's corrected-symbol rate over one second is compared with its limit, which may start a retune. -/
  | fecRateEval (p : Fin 48)
  /-- RETUNE_END (R181). A port retune completes or times out, returning to UP or DETECT. -/
  | retuneEnd (p : Fin 48) (ok : Bool)
  /-- LIGHT_READY (R233). The laser module reports power on all outputs and the port moves from LIGHT to DETECT. -/
  | lightReady (p : Fin 48)
  /-- RX_POWER_DETECT (R233). Received power exceeds -10 dBm on all lanes and the port moves to LOCK. -/
  | rxPowerDetect (p : Fin 48) (power : List (BitVec 16))
  /-- LANE_LOCK (R233). Clock recovery and equalisation hold on all lanes and the port moves to ALIGN. -/
  | laneLock (p : Fin 48)
  /-- CODEWORD_LOCK (R233). Codeword lock and deskew are reached and the port moves to IDENTIFY. -/
  | codewordLock (p : Fin 48)
  /-- IDENTITY_RECORD (R234). A partner identity record is checked against the wiring rule, leading to KEY, BOOT or FAILED. -/
  | identityRecord (p : Fin 48) (r : IdentRec)
  /-- KEY_EXCHANGE (R326). Link key exchange messages in service blocks are verified and the port key is loaded. -/
  | keyExchange (p : Fin 48) (m : KeyMsg)
  /-- PORT_STATE_TIMEOUT (R233). A training state's time limit expires and the port goes to DETECT or FAILED. -/
  | portStateTimeout (p : Fin 48)
  /-- LOSS_OF_LIGHT (R233). Loss of received light for 100 ns takes the port to DETECT and loses its replay buffer. -/
  | lossOfLight (p : Fin 48)
  /-- FPORT_RETRY (R232). A write of FPORT_CTRL.RETRY takes a FAILED port to DETECT. -/
  | fportRetry (p : Fin 48)
  /-- LASER_REMOVE (R225). Removal of a laser module takes its twelve ports down with FAIL_CAUSE 6. -/
  | laserRemove (m : Fin 4)
  /-- LASER_INSERT (R225). Insertion of a laser module lets FAB read its identity, enable it and bring its ports up. -/
  | laserInsert (m : Fin 4) (valid : Bool)
  /-- ADAPT_ENABLE (R241). Ten ms after all wiring ports are UP, FAB sets ADAPT_EN. -/
  | adaptEnable
  /-- BOOT_PORT_RELEASE (R340). Once all six processors of a member run, FAB takes the boot port to DETECT for normal training. -/
  | bootPortRelease
  /-- RELAY_READ (R245). A host read in a BAR2 relay slot becomes an ORIG 3 LOAD to the member's register window. -/
  | relayRead (member : Fin 32) (off : BitVec 27) (wide : Bool)
  /-- RELAY_WRITE (R245). A host write in a BAR2 relay slot becomes a posted ORIG 3 STORE. -/
  | relayWrite (member : Fin 32) (off : BitVec 27) (wide : Bool) (v : Word)
  /-- HBR_RPT_POP (R246). A write that removes the oldest queued node report. -/
  | hbrRptPop
  /-- QUANTUM (R303). At each 250 ns quantum the Roundabout plans quantum q+8, ungates planned units and drives LOADSTEP_N. -/
  | quantum (rises : List Int)
  /-- PWR_LOOP (R308). Every 1 ms PWR computes node power, sets throttle levels and adaptive voltage targets. -/
  | pwrLoop (mv da : List (BitVec 16)) (mw : List (BitVec 32))
  /-- RAIL_FAULT (R298). A rail outside its window for 10 µs, or a regulator alert, stops the rail's domains, asserts FAULT_N and ends the job. -/
  | railFault (rail : Fin 14)
  /-- CURRENT_CLAMP (R310). Rail current above its maximum for 10 µs sets every die on the rail to level 8. -/
  | currentClamp (rail : Fin 14)
  /-- CURRENT_CLAMP_RELEASE (R310). Current stays below 90 % for 1 ms and the clamp releases. -/
  | currentClampRelease (rail : Fin 14)
  /-- SENSOR_SAMPLE (R399). Hardware samples a temperature sensor and updates its register. -/
  | sensorSample (sensor : Fin 64) (t : BitVec 16)
  /-- THERMAL_CLAMP_RELEASE (R311). A junction stays below 98 °C for 1 ms and the clamp releases. -/
  | thermalClampRelease (die : Fin 6)
  /-- AGE_SAMPLE (R183). Every 10 s PWR samples the ageing monitors. -/
  | ageSample (ms : List (BitVec 16 × BitVec 16))
  /-- AGE_EVAL (R184). The daily evaluation raises rail guardbands, re-plans margins and writes the ageing log. -/
  | ageEval (hbm links : List (BitVec 16 × List Byte)) (flashOk : Bool)
  /-- REFCLK_LOSS (R386). A reference clock stays outside ±1,000 ppm for 10 µs and the node acts for that reference. -/
  | refclkLoss (r : RefClk)
  /-- REFCLK_FAB_RETURN (R386). One ms after REFCLK_FAB returns, the ports leave DETECT. -/
  | refclkFabReturn
  /-- AON_RESET (R366). VDD_AON rises and clears the AON domain. -/
  | aonReset
  /-- POWER_ON_RESET (R366). PWROK falls while VDD_AON is present, wiping the dies and losing HBM. -/
  | powerOnReset
  /-- WARM_RESET (R367). RESET_N falls while PWROK is high; fast domains stop and the stacks enter self-refresh. -/
  | warmReset
  /-- RESET_RELEASE (R369). RESET_N rises; the strap is sampled, PLLs start and the start-up sequence begins. -/
  | resetRelease (strap refs : Bool)
  /-- HOST_BRIDGE_RESET (R244). PERST_N low resets the host bridge alone and stops a load in LOADING. -/
  | hostBridgeReset
  /-- SETTINGS_READ_DONE (R374). SFDP, the flash header and the settings banks have been read and records applied or defaulted. -/
  | settingsReadDone (present : Bool)
  /-- AGE_LOG_READ_DONE (R188). The ageing log has been read into the start table and stage TRAIN begins. -/
  | ageLogReadDone
  /-- HBM_TRAIN_DONE (R370). Every channel is trained, the map is fixed and stage LOAD or FAILED is reached. -/
  | hbmTrainDone (failed : List (Fin 512)) (ms : BitVec 16)
  /-- HBM_SCRUB_DONE (R330). A firmware HBM scrub completes, setting SCRUB_DONE or ending a session close. -/
  | hbmScrubDone
  /-- FWP_LOAD (R338). A write of FWP_LOAD_CTRL.START begins loading an image into the staging slot. -/
  | fwpLoad (fwp : Fin 6) (host : Word) (len : BitVec 32)
  /-- FWP_IMAGE_STAGED (R338). The host read of the image completes and the boot verifier checks header and signatures. -/
  | fwpImageStaged (data : List Byte)
  /-- FWP_VERIFY_DONE (R338). Verification ends; the image is copied, measured and the processor started, or the load is refused. -/
  | fwpVerifyDone
  /-- FWP_WATCHDOG (R341). A firmware watchdog expires and a lone restart of that processor begins. -/
  | fwpWatchdog (fwp : Fin 6) (pc : BitVec 32)
  /-- FWP_CRASH (R341). An illegal instruction, access fault or private-memory error starts a lone restart. -/
  | fwpCrash (fwp : Fin 6) (memory : Bool) (pc : BitVec 32)
  /-- FWP_RESTART_HASH_DONE (R343). The slot hash of a restart completes; the processor starts, or waits in WAIT_IMAGE. -/
  | fwpRestartHashDone (fwp : Fin 6)
  /-- HELD_CLEAR (R342). A processor has read its held state and taken up its duties, clearing HELD. -/
  | heldClear (fwp : Fin 6) (ms : BitVec 16)
  /-- CMD_TAKE_UP (R345). The owner takes up a pending emulated command and sets BUSY. -/
  | cmdTakeUp (which : Fin 3)
  /-- LOG_DRAIN (R348). LOG writes a queued entry into the log ring. -/
  | logDrain
  /-- LOG_READ (R349). A read of DBG_LOG_DATA returns the selected entry or zeros with E_RANGE. -/
  | logRead (n : Fin 4) (by_ : Requester)
  /-- IDENTITY (R321). SEC command that places the identity public keys and endorsement in the message buffer. -/
  | secIdentity
  /-- OPEN (R323). SEC command that checks OPEN, generates ephemeral keys and forms the signed REPLY. -/
  | secOpen
  /-- FINISH (R323). SEC command that verifies FINISH, opens the sealed block, generates region keys and opens the session. -/
  | secFinish
  /-- CLOSE (R329). SEC command that closes the session through the stages of Table 16-4. -/
  | secClose
  /-- READOUT (R333). SEC command that snapshots fine telemetry and seals it under KN. -/
  | secReadout
  /-- HALF_OPEN_TIMEOUT (R324). FINISH has not arrived 10 s after OPEN and the half-open session is discarded. -/
  | halfOpenTimeout
  /-- SEAL_OPEN (R318). The seal loop opens; it is counted and may close the tenant session. -/
  | sealOpen
  /-- LCY_PROVISION (R321). Life-cycle request from BLANK to PROVISIONED that blows the identity seed. -/
  | lcyProvision (present : Bool)
  /-- LCY_DEPLOY (R319). Life-cycle request to DEPLOYED that blows a toggle bit. -/
  | lcyDeploy (present : Bool)
  /-- LCY_SERVICE (R319). Life-cycle request from DEPLOYED to SERVICE that blows a toggle bit. -/
  | lcyService (present : Bool)
  /-- LCY_RETIRE (R319). Life-cycle request to RETIRED that destroys the identity seed and erases ageing sector 0. -/
  | lcyRetire (present : Bool)
  /-- CLEAR_IN (R328). Host transfer that copies bytes unchanged into the node. -/
  | clearIn (host loc len : Word) (buffer : Bool)
  /-- CLEAR_OUT (R328). Host transfer that copies bytes unchanged out of the node. -/
  | clearOut (host loc len : Word) (buffer : Bool)
  /-- SEALED_IN (R327). Host transfer that takes GCM-sealed chunks under KT. -/
  | sealedIn (host loc len : Word) (buffer : Bool)
  /-- SEALED_OUT (R327). Host transfer that produces GCM-sealed chunks under KN. -/
  | sealedOut (host loc len : Word) (buffer : Bool)
  /-- HOST_XFER_CHUNK (R327). One chunk of a host transfer is moved and checked; the last chunk completes the transfer. -/
  | hostXferChunk (data : List Byte)
  /-- READ (R365). CFGF command that reads flash bytes into CFGF_DATA. -/
  | flashRead (a : BitVec 32) (n : BitVec 32)
  /-- PROGRAM (R376). CFGF command that programs flash bytes, committing a bank when it writes its header. -/
  | flashProgram (a : BitVec 32) (n : BitVec 32) (data : List Byte) (present : Bool)
  /-- ERASE (R376). CFGF command that erases a 4 KiB sector. -/
  | flashErase (a : BitVec 32) (present : Bool)
  /-- ERR_CODE_CLEAR (R356). A write of 0 to ERR_CODE clears ERR_CODE, ERR_INFO0 and ERR_INFO1. -/
  | errCodeClear (page : BitVec 27)
  /-- REGISTER_WRITE (R360). A write, single or broadcast, to a register without a row of its own is applied or refused under that page's rules. -/
  | registerWrite (by_ : Requester) (a : BitVec 27) (bytes : BitVec 8) (v : Word)
  /-- BCAST_READ (R361). A read with BCAST set returns 0 and is refused with E_BCAST_READ. -/
  | bcastRead (by_ : Requester) (a : BitVec 27)
  /-- REGISTER_READ_REFUSED (R354). A read of a reserved type or instance, or of a closed expert level, returns 0 and is refused. -/
  | registerReadRefused (by_ : Requester) (a : BitVec 27) (bytes : BitVec 8)
  /-- SET_ENDPOINT_ID (R395). MCTP control message that sets the endpoint ID. -/
  | setEndpointId (op : BitVec 2) (eid : BitVec 8)
  /-- GET_ENDPOINT_ID (R395). MCTP control message that returns the endpoint ID. -/
  | getEndpointId
  /-- GET_MCTP_VERSION_SUPPORT (R395). MCTP control message that returns the supported versions. -/
  | getMctpVersionSupport (typ : BitVec 8)
  /-- GET_MESSAGE_TYPE_SUPPORT (R395). MCTP control message that returns the supported message types. -/
  | getMessageTypeSupport
  /-- GETTID (R395). PLDM type 0 command that returns the terminus ID. -/
  | getTid
  /-- GETPLDMVERSION (R395). PLDM type 0 command that returns the PLDM version. -/
  | getPldmVersion (typ : BitVec 8)
  /-- GETPLDMTYPES (R395). PLDM type 0 command that returns the supported types. -/
  | getPldmTypes
  /-- GETPLDMCOMMANDS (R395). PLDM type 0 command that returns the supported commands. -/
  | getPldmCommands (typ : BitVec 8)
  /-- GETPDRREPOSITORYINFO (R395). PLDM type 2 command that returns PDR repository information. -/
  | getPdrRepositoryInfo
  /-- GETPDR (R395). PLDM type 2 command that returns a PDR. -/
  | getPdr (handle : BitVec 32)
  /-- GETSENSORREADING (R395). PLDM type 2 command that returns a sensor value under the telemetry rules. -/
  | getSensorReading (sensor : BitVec 16)
  /-- POLLFORPLATFORMEVENTMESSAGE (R395). PLDM type 2 command that takes a pending platform event. -/
  | pollForPlatformEventMessage
  /-- SMBUS_ALERT_RESPONSE (R394). A read of the alert response address answers with the node's address. -/
  | smbusAlertResponse
  /-- EXTEST (R397). TAP instruction that drives the lands from the boundary-scan register. -/
  | tapExtest (dr : List Bool)
  /-- IDCODE (R396). TAP instruction that selects the 32-bit identification register. -/
  | tapIdcode (dr : List Bool)
  /-- SAMPLE_PRELOAD (R396). TAP instruction that samples or preloads the boundary-scan register. -/
  | tapSamplePreload (dr : List Bool)
  /-- CLAMP (R396). TAP instruction that holds the lands from boundary scan with bypass selected. -/
  | tapClamp (dr : List Bool)
  /-- HIGHZ (R396). TAP instruction that places the outputs at high impedance. -/
  | tapHighz (dr : List Bool)
  /-- EXTEST_PULSE (R396). IEEE 1149.6 AC test instruction with pulses. -/
  | tapExtestPulse (dr : List Bool)
  /-- EXTEST_TRAIN (R396). IEEE 1149.6 AC test instruction with pulse trains. -/
  | tapExtestTrain (dr : List Bool)
  /-- BYPASS (R396). TAP instruction that selects the one-bit bypass register. -/
  | tapBypass (dr : List Bool)
  /-- DBG_BRIDGE_READ (R398). Debug bridge Update-DR with OP 1 that reads 8 bytes from the register window or memory. -/
  | dbgBridgeRead (a : BitVec 44)
  /-- DBG_BRIDGE_WRITE (R398). Debug bridge Update-DR with OP 2 that writes 8 bytes. -/
  | dbgBridgeWrite (a : BitVec 44) (v : Word)
  /-- TAP_RESET (R396). TRST_N or Test-Logic-Reset resets the TAP and selects IDCODE. -/
  | tapReset
  /-- PRESENCE_LAPSE (R317). PRESENCE_N rises, under the JUMPER policy, while a request that needs presence is pending, and the request is refused with E_PRESENCE. -/
  | presenceLapse
  /-- LASER_FAULT (R225). A laser module reports a fault; its twelve ports lose light, FSW_LASER shows the fault and a LASER_FAULT report is sent. -/
  | laserFault (m : Fin 4)
  /-- PERST_N_RISE (R244). PERST_N rises and the host bridge leaves reset, trains its link and answers configuration requests within 100 ms. -/
  | perstNRise
  /-- PCIE_LINK_UP (R244). PCIe link training ends: the link comes up in FLIT mode at x16 with LINK_UP and the rate set, or stays down with NO_LINK set. -/
  | pcieLinkUp (flit : Bool) (x16 : Bool) (rate : BitVec 3)
  /-- REFCLK_PCIE_RETURN (R386). REFCLK_PCIE returns within tolerance; CLK_REF_STAT.PCIE_LOST clears and the host bridge link can train again. -/
  | refclkPcieReturn
  /-- CLAMP_LEVEL_RESTORE (R310). While PWR is down after a clamp release, each millisecond the hardware lowers a die's throttle level by one toward the level held before the clamp. -/
  | clampLevelRestore
  /-- MARGIN_SCAN_DONE (R182). A margin scan of an HBM channel or link ends, reports its passing width and height, and releases HBM use so the stack may return to self-refresh. -/
  | marginScanDone (link : Bool) (unit : Fin 512) (width height : BitVec 16)
  /-- OBJ_PUT (R192). An OBJ_PUT request that arrives addressed to a node is answered with RSP_ERR carrying E_BADCMD, and nothing is performed. -/
  | reqObjPut (q : Req)
  /-- OBJ_GET (R192). An OBJ_GET request that arrives addressed to a node is answered with RSP_ERR carrying E_BADCMD, and nothing is performed. -/
  | reqObjGet (q : Req)
  deriving DecidableEq, Repr

end Sys2Proof
end

