-- ==== Sys2Proof/Decode.lean ====
section
/-!
DEFINITION. The commands that a word of spec/opcode_table.json spells. No row of the table gives any bits: the commands of this
block are host commands, engine commands, packets, events of its pins and elapsed times, and no word spells one.
-/

namespace Sys2Proof

/-- The command that a word of `nbits` bits spells by the table's bits: none, since no row gives bits. -/
def decodeTableWord (_nbits _w : Nat) : Option Instr := none

end Sys2Proof
end

