-- ==== Sys2Proof/Config.lean ====
section
/-!
DEFINITION. What the manual leaves open and what one implementation fixes. Every constant here is opaque: it has no body, so
no proof can see a value of it, and a statement that mentions one holds for every value (log entry 2).
-/

namespace Sys2Proof.Config

/-- A free value: the first argument names the use, the second is `State.fresh` at the time, which every use advances
(log entry 2). -/
opaque free : Nat → Nat → Nat

/-- Whether tininess, for the UF flag of Table 7-12, is judged after rounding; R137 does not say (log entry 10). -/
opaque tinyAfterRounding : Bool

/-- Whether a fused multiply-add of 0, infinity and a quiet NaN is an invalid operation; R137 does not say (log entry 10). -/
opaque fmaInvalidNan : Bool

/-- Whether FCMPLT and FCMPLE set NV for a quiet NaN operand; R137 and Table 7-12 do not say (log entry 10). -/
opaque fcmpQuietInvalid : Bool

/-- Whether the engine assignment of a compiled pattern starts a subtree of its own at a supernode: the parent numbers plus one (0
for a root), the FMAs of each supernode, ENGINES, and the supernode (R106, log entry 14). -/
opaque subtreeStart : List Nat → List Nat → List Nat → Nat → Bool

/-- The engine of the subtree that starts at a supernode, as a number that the record's engines are counted round by; arguments as
above. R106 calls it a fixed function that balances the FMAs and does not give it (log entry 14). -/
opaque engineOf : List Nat → List Nat → List Nat → Nat → Nat

/-- The bytes of the key pair of an XTS key, by the key's identity: 0 to 31 the data key, 32 to 63 the tweak key; SEC generates them
on chip and no path reads them (R165, R325, log entry 11). -/
opaque xtsKey : Nat → Nat → Byte

/-- The cache set of a line, for a number of regions in cache mode; R153 does not state it (log entry 76). -/
opaque llmSet : Nat → Nat → Nat

/-- Whether a line of a channel was dirty in the cache when a retrain began: the free value drawn then, and the line (R172, log
entry 76). -/
opaque dirtyLine : Nat → Nat → Bool

/-- How many of ways 14 and 15 of a set such dirty lines hold, modulo 3: the free value drawn then, and the set (R172, log entry 76). -/
opaque dirtyWays : Nat → Nat → Nat

/-- What a read of an expert offset reports of the last margin scan: 1 its width, 2 its height, anything else neither; block type and
offset (R182, log entry 45). -/
opaque scanReport : Nat → Nat → Nat

/-- The bytes of a log entry of an ordered region, whose layout R158 leaves open: address, key, value, element type and the byte's
place (log entry 25). -/
opaque logByte : Nat → Nat → Nat → Nat → Nat → Byte

/-- The fused voltage, in mV, of a die (0 P-die, 1 to 4 A0 to A3, 5 F-die) at a throttle level, for its core rail and for
VDD_SRAM (R301, log entry 75). -/
opaque fusedMv : Nat → Nat → Nat

/-- The fused SRAM voltage, in mV, of a die at a throttle level (R301, log entry 75). -/
opaque fusedSramMv : Nat → Nat → Nat

/-- The signature of a message under a private key, both schemes of R321 (Ed25519 and ML-DSA-65) named by the first
argument (log entry 11). -/
opaque sign : Nat → List Byte → List Byte → List Byte

/-- Whether a signature is valid: scheme, public key, message, signature (R321, R334, log entry 11). -/
opaque verify : Nat → List Byte → List Byte → List Byte → Bool

/-- The public key of a private key: scheme (0 Ed25519, 1 ML-DSA-65, 2 X25519, 3 ML-KEM-768), private key (log entry 11). -/
opaque publicKey : Nat → List Byte → List Byte

/-- The shared secret of a key agreement: scheme (2 X25519, 3 ML-KEM-768), own secret, partner's message (R323, R326, log entry 11). -/
opaque agree : Nat → List Byte → List Byte → List Byte

/-- The ciphertext of an ML-KEM-768 encapsulation: the randomness drawn and the encapsulation key; the secret it carries is
`agree` of scheme 3 on the same randomness and key (R323, R326, log entry 11). -/
opaque encapsulate : List Byte → List Byte → List Byte

/-- Falvor's root public keys, fused at manufacture: 0 endorsement roots, 1 firmware roots; then the scheme (R321, R338, log entry 11). -/
opaque root : Nat → Nat → List Byte

/-- Whether a write of a value to an expert offset of a page starts a margin scan, whose controls the manual does not lay out
(R182): block type, offset and value (log entry 45). -/
opaque scanStart : Nat → Nat → Nat → Bool

/-- The fields of an MCTP or PLDM answer that neither the manual nor the state gives: MCTP and PLDM versions, the terminus ID, the
commands of a PLDM type, the PDR repository and its records. The arguments are the message type, the command code and its
operand (R395, log entry 19). -/
opaque mgmtAnswer : Nat → Nat → Nat → List Byte

/-- The reading, in degrees, that a temperature in tenths of a degree is reported as over PLDM (Table 20-13, log entry 19). -/
opaque wholeDegrees : Int → Int

end Sys2Proof.Config
end

