-- ==== Sys2Proof/Machine/Crypto.lean ====
section
/-!
DEFINITION. The published algorithms that the model computes: CRC-32C, SHA-384, HMAC and HKDF over it, and Philox-4x32-10.
Those the manual names but the model leaves uninterpreted stand in Config (log entry 11).
-/

namespace Sys2Proof.Machine

/-- The `n` little-endian bytes of a number (R5). -/
def bytesLE : Nat → Nat → List Byte
  | 0, _ => []
  | n + 1, v => BitVec.ofNat 8 v :: bytesLE n (v / 256)

/-- The number of a little-endian list of bytes (R5). -/
def natLE : List Byte → Nat
  | [] => 0
  | b :: bs => b.toNat + 256 * natLE bs

/-- The `n` big-endian bytes of a number, as SHA-384 orders its words. -/
def bytesBE (n v : Nat) : List Byte := (bytesLE n v).reverse

/-- The number of a big-endian list of bytes. -/
def natBE (bs : List Byte) : Nat := natLE bs.reverse

/-- One bit step of the reflected CRC-32C. -/
def crcBit (c : Nat) : Nat := if c % 2 = 1 then (c / 2) ^^^ 0x82F63B78 else c / 2

/-- The CRC-32C register after a list of bytes. -/
def crcFold : Nat → List Byte → Nat
  | c, [] => c
  | c, b :: bs => crcFold (Nat.repeat crcBit 8 (c ^^^ b.toNat)) bs

/-- CRC-32C of a list of bytes (0-5, "CRC-32C"): register preset to ones, reflected, inverted at the end. -/
def crc32c (bs : List Byte) : W32 := BitVec.ofNat 32 (crcFold 0xFFFFFFFF bs ^^^ 0xFFFFFFFF)

/-! ### SHA-384 -/

/-- SHA-512 round constants, part 0. -/
def shaK0 : List Word :=
  [0x428A2F98D728AE22, 0x7137449123EF65CD, 0xB5C0FBCFEC4D3B2F,
   0xE9B5DBA58189DBBC, 0x3956C25BF348B538, 0x59F111F1B605D019,
   0x923F82A4AF194F9B, 0xAB1C5ED5DA6D8118, 0xD807AA98A3030242,
   0x12835B0145706FBE, 0x243185BE4EE4B28C, 0x550C7DC3D5FFB4E2,
   0x72BE5D74F27B896F, 0x80DEB1FE3B1696B1, 0x9BDC06A725C71235,
   0xC19BF174CF692694, 0xE49B69C19EF14AD2, 0xEFBE4786384F25E3,
   0x0FC19DC68B8CD5B5, 0x240CA1CC77AC9C65]

/-- SHA-512 round constants, part 1. -/
def shaK1 : List Word :=
  [0x2DE92C6F592B0275, 0x4A7484AA6EA6E483, 0x5CB0A9DCBD41FBD4,
   0x76F988DA831153B5, 0x983E5152EE66DFAB, 0xA831C66D2DB43210,
   0xB00327C898FB213F, 0xBF597FC7BEEF0EE4, 0xC6E00BF33DA88FC2,
   0xD5A79147930AA725, 0x06CA6351E003826F, 0x142929670A0E6E70,
   0x27B70A8546D22FFC, 0x2E1B21385C26C926, 0x4D2C6DFC5AC42AED,
   0x53380D139D95B3DF, 0x650A73548BAF63DE, 0x766A0ABB3C77B2A8,
   0x81C2C92E47EDAEE6, 0x92722C851482353B]

/-- SHA-512 round constants, part 2. -/
def shaK2 : List Word :=
  [0xA2BFE8A14CF10364, 0xA81A664BBC423001, 0xC24B8B70D0F89791,
   0xC76C51A30654BE30, 0xD192E819D6EF5218, 0xD69906245565A910,
   0xF40E35855771202A, 0x106AA07032BBD1B8, 0x19A4C116B8D2D0C8,
   0x1E376C085141AB53, 0x2748774CDF8EEB99, 0x34B0BCB5E19B48A8,
   0x391C0CB3C5C95A63, 0x4ED8AA4AE3418ACB, 0x5B9CCA4F7763E373,
   0x682E6FF3D6B2B8A3, 0x748F82EE5DEFB2FC, 0x78A5636F43172F60,
   0x84C87814A1F0AB72, 0x8CC702081A6439EC]

/-- SHA-512 round constants, part 3. -/
def shaK3 : List Word :=
  [0x90BEFFFA23631E28, 0xA4506CEBDE82BDE9, 0xBEF9A3F7B2C67915,
   0xC67178F2E372532B, 0xCA273ECEEA26619C, 0xD186B8C721C0C207,
   0xEADA7DD6CDE0EB1E, 0xF57D4F7FEE6ED178, 0x06F067AA72176FBA,
   0x0A637DC5A2C898A6, 0x113F9804BEF90DAE, 0x1B710B35131C471B,
   0x28DB77F523047D84, 0x32CAAB7B40C72493, 0x3C9EBE0A15C9BEBC,
   0x431D67C49C100D4C, 0x4CC5D4BECB3E42B6, 0x597F299CFC657E2A,
   0x5FCB6FAB3AD6FAEC, 0x6C44198C4A475817]

/-- The eighty round constants. -/
def shaK : List Word := shaK0 ++ shaK1 ++ shaK2 ++ shaK3

/-- The initial value of SHA-384. -/
def shaIV : List Word :=
  [0xCBBB9D5DC1059ED8, 0x629A292A367CD507, 0x9159015A3070DD17,
   0x152FECD8F70E5939, 0x67332667FFC00B31, 0x8EB44A8768581511,
   0xDB0C2E0D64F98FA7, 0x47B5481DBEFA4FA4]

/-- Rotation right of a 64-bit word. -/
def ror (x : Word) (k : Nat) : Word := (x >>> k) ||| (x <<< (64 - k))

/-- The message schedule, newest word first, extended by `n` words. -/
def shaSchedule : Nat → List Word → List Word
  | 0, w => w
  | n + 1, w =>
    let a := w.getD 14 0
    let b := w.getD 1 0
    let s0 := ror a 1 ^^^ ror a 8 ^^^ (a >>> 7)
    let s1 := ror b 19 ^^^ ror b 61 ^^^ (b >>> 6)
    shaSchedule n ((s1 + w.getD 6 0 + s0 + w.getD 15 0) :: w)

/-- The eight working variables. -/
structure Sha where
  a : Word
  b : Word
  c : Word
  d : Word
  e : Word
  f : Word
  g : Word
  h : Word
  deriving DecidableEq, Repr

/-- One round of SHA-512. -/
def shaRound (v : Sha) (kw : Word × Word) : Sha :=
  let s1 := ror v.e 14 ^^^ ror v.e 18 ^^^ ror v.e 41
  let ch := (v.e &&& v.f) ^^^ (~~~v.e &&& v.g)
  let t1 := v.h + s1 + ch + kw.1 + kw.2
  let s0 := ror v.a 28 ^^^ ror v.a 34 ^^^ ror v.a 39
  let maj := (v.a &&& v.b) ^^^ (v.a &&& v.c) ^^^ (v.b &&& v.c)
  ⟨t1 + s0 + maj, v.a, v.b, v.c, v.d + t1, v.e, v.f, v.g⟩

/-- One block of sixteen words. -/
def shaBlock (h : Sha) (w : List Word) : Sha :=
  let r := List.foldl shaRound h (List.zip shaK (shaSchedule 64 w.reverse).reverse)
  ⟨h.a + r.a, h.b + r.b, h.c + r.c, h.d + r.d, h.e + r.e, h.f + r.f, h.g + r.g, h.h + r.h⟩

/-- The big-endian 64-bit words of `n` bytes. -/
def wordsBE : Nat → List Byte → List Word
  | 0, _ => []
  | n + 1, bs => BitVec.ofNat 64 (natBE (bs.take 8)) :: wordsBE n (bs.drop 8)

/-- The blocks of a padded message. -/
def shaBlocks : Nat → Sha → List Byte → Sha
  | 0, h, _ => h
  | n + 1, h, bs => shaBlocks n (shaBlock h (wordsBE 16 (bs.take 128))) (bs.drop 128)

/-- SHA-384 of a list of bytes: 48 bytes. -/
def sha384 (bs : List Byte) : List Byte :=
  let n := bs.length
  let pad := (239 - n % 128) % 128
  let m := bs ++ (0x80#8 :: List.replicate pad 0#8) ++ bytesBE 16 (8 * n)
  let iv := ⟨shaIV.getD 0 0, shaIV.getD 1 0, shaIV.getD 2 0, shaIV.getD 3 0,
             shaIV.getD 4 0, shaIV.getD 5 0, shaIV.getD 6 0, shaIV.getD 7 0⟩
  let r := shaBlocks (m.length / 128) iv m
  bytesBE 8 r.a.toNat ++ bytesBE 8 r.b.toNat ++ bytesBE 8 r.c.toNat ++ bytesBE 8 r.d.toNat ++
    bytesBE 8 r.e.toNat ++ bytesBE 8 r.f.toNat

/-- HMAC over SHA-384. -/
def hmac384 (key msg : List Byte) : List Byte :=
  let k := if 128 < key.length then sha384 key else key
  let k := k ++ List.replicate (128 - k.length) 0#8
  sha384 (k.map (· ^^^ 0x5C#8) ++ sha384 (k.map (· ^^^ 0x36#8) ++ msg))

/-- HKDF-Extract of RFC 5869. -/
def hkdfExtract (salt ikm : List Byte) : List Byte := hmac384 salt ikm

/-- The output blocks of HKDF-Expand. -/
def hkdfBlocks (prk info : List Byte) : Nat → List Byte → Nat → List Byte
  | 0, _, _ => []
  | n + 1, prev, i =>
    let t := hmac384 prk (prev ++ info ++ [BitVec.ofNat 8 i])
    t ++ hkdfBlocks prk info n t (i + 1)

/-- HKDF-Expand of RFC 5869 to `len` bytes. -/
def hkdfExpand (prk info : List Byte) (len : Nat) : List Byte :=
  (hkdfBlocks prk info ((len + 47) / 48) [] 1).take len

/-- The bytes of an ASCII label. -/
def ascii (s : String) : List Byte := s.toList.map fun c => BitVec.ofNat 8 c.toNat

/-! ### Philox-4x32-10 -/

/-- One round of Philox-4x32: the counter words and the key words. -/
def philoxRound (c : Nat × Nat × Nat × Nat) (k : Nat × Nat) : Nat × Nat × Nat × Nat :=
  let p0 := 0xD2511F53 * c.1
  let p1 := 0xCD9E8D57 * c.2.2.1
  (((p1 >>> 32) ^^^ c.2.1 ^^^ k.1) % 2 ^ 32, p1 % 2 ^ 32, ((p0 >>> 32) ^^^ c.2.2.2 ^^^ k.2) % 2 ^ 32, p0 % 2 ^ 32)

/-- `n` rounds, the key bumped between rounds. -/
def philoxRounds : Nat → Nat × Nat × Nat × Nat → Nat × Nat → Nat × Nat × Nat × Nat
  | 0, c, _ => c
  | n + 1, c, k =>
    philoxRounds n (philoxRound c k) ((k.1 + 0x9E3779B9) % 2 ^ 32, (k.2 + 0xBB67AE85) % 2 ^ 32)

/-- Philox-4x32-10 of a 128-bit counter under a 64-bit key, word 0 lowest (R144). -/
def philox (ctr key : Nat) : Nat :=
  let w := fun i => ctr / 2 ^ (32 * i) % 2 ^ 32
  let r := philoxRounds 10 (w 0, w 1, w 2, w 3) (key % 2 ^ 32, key / 2 ^ 32 % 2 ^ 32)
  r.1 + r.2.1 * 2 ^ 32 + r.2.2.1 * 2 ^ 64 + r.2.2.2 * 2 ^ 96

end Sys2Proof.Machine
end

