-- ==== Sys2Proof/Machine/Bits.lean ====
section
/-!
DEFINITION. Bit fields of registers and records, little-endian fields of byte lists, and small list helpers.
-/

namespace Sys2Proof.Machine

/-- Bits [hi:lo] of a number. -/
def bitsOf (v hi lo : Nat) : Nat := v / 2 ^ lo % 2 ^ (hi + 1 - lo)

/-- Bit `i` of a number. -/
def bitOf (v i : Nat) : Bool := v / 2 ^ i % 2 = 1

/-- Replace bits [hi:lo] of a number. -/
def withBits (v hi lo x : Nat) : Nat :=
  v - bitsOf v hi lo * 2 ^ lo + (x % 2 ^ (hi + 1 - lo)) * 2 ^ lo

/-- Replace bit `i` of a number. -/
def withBit (v i : Nat) (b : Bool) : Nat := withBits v i i b.toNat

/-- The little-endian field of `n` bytes at an offset of a record; bytes past the end read 0. -/
def fieldLE (bs : List Byte) (off n : Nat) : Nat := natLE ((bs.drop off).take n)

/-- The elements 0, 1, ... as a list of `n`. -/
def upTo (n : Nat) : List Nat := List.range n

/-- Replace the bytes of a list from an offset; bytes past the end are dropped. -/
def patch (bs : List Byte) (off : Nat) (new : List Byte) : List Byte :=
  (bs.take off ++ (new.take (bs.length - off)) ++ bs.drop (off + new.length)).take bs.length

/-- Sign extension of a `w`-bit number to 64 bits. -/
def sextNat (w v : Nat) : Word := BitVec.ofInt 64 (if v % 2 ^ w < 2 ^ (w - 1) then (v % 2 ^ w : Nat) else (v % 2 ^ w : Nat) - (2 ^ w : Nat))

/-- The number rounded up to a multiple of `k`. -/
def roundUp (n k : Nat) : Nat := (n + k - 1) / k * k

/-- The pieces of `[off, off + n)` cut at multiples of `k`: start and length of each. -/
def cutAt (k : Nat) : Nat → Nat → Nat → List (Nat × Nat)
  | 0, _, _ => []
  | fuel + 1, off, n =>
    if n = 0 then []
    else
      let step := min n (k - off % k)
      (off, step) :: cutAt k fuel (off + step) (n - step)

/-- The pieces of `[off, off + n)` cut at multiples of `k`. -/
def pieces (k off n : Nat) : List (Nat × Nat) := cutAt k (n / k + 2) off n

/-- Sequence comparison modulo 2^32 (R196): `a` is above `b`. -/
def seqGt (a b : Nat) : Bool :=
  let x := a % 2 ^ 32
  let y := b % 2 ^ 32
  if y ≤ x then decide (x ≠ y) && decide (x - y < 2 ^ 31) else decide (x + 2 ^ 31 < y)

/-- Sequence comparison modulo 2^32: `a` is below `b`. -/
def seqLt (a b : Nat) : Bool := seqGt b a

end Sys2Proof.Machine
end

