-- ==== Sys2Proof/Machine/CoreCode.lean ====
section
/-!
DEFINITION. The words of the MC instructions: one encoder per form of Table 7-5, and the encodings that Tables 7-5 to 7-11
reserve (R134, R138 to R144). Commands carry an instruction's operands; these encoders say which word in memory is that
instruction.
-/

namespace Sys2Proof

/-- ET of an element type (R138). -/
def ElemType.et : ElemType → Nat
  | .i8 => 0 | .i16 => 1 | .i32 => 2 | .i64 => 3 | .f16 => 4 | .bf16 => 5 | .f32 => 6 | .f64 => 7

/-- The type code of FN[5:4] and TYPE: 0 FP64, 1 FP32 (Table 7-6). -/
def FType.ft : FType → Nat
  | .d => 0 | .s => 1

/-- The code of an FCVT type (Table 7-6). -/
def CvtType.ct : CvtType → Nat
  | .fp64 => 0 | .fp32 => 1 | .int64 => 2 | .int32 => 3

end Sys2Proof

namespace Sys2Proof.Machine

/-! ### Encoders (Table 7-5) -/

/-- Forms REG: OP, rd, rs1, rs2, FN. -/
def encReg (op : Nat) (rd rs1 rs2 : BitVec 5) (fn : Nat) : Nat :=
  op * 2 ^ 26 + rd.toNat * 2 ^ 21 + rs1.toNat * 2 ^ 16 + rs2.toNat * 2 ^ 11 + fn

/-- Forms IMM and STO: OP, two registers, imm16. -/
def encImm (op : Nat) (r1 r2 : BitVec 5) (imm : BitVec 16) : Nat :=
  op * 2 ^ 26 + r1.toNat * 2 ^ 21 + r2.toNat * 2 ^ 16 + imm.toNat

/-- Form BR: OP, rs1, COND, offset17. -/
def encBr (op : Nat) (rs1 : BitVec 5) (cond : BitVec 4) (off : BitVec 17) : Nat :=
  op * 2 ^ 26 + rs1.toNat * 2 ^ 21 + cond.toNat * 2 ^ 17 + off.toNat

/-- Forms JMP and UP: OP, rd, imm21. -/
def encJmp (op : Nat) (rd : BitVec 5) (imm : BitVec 21) : Nat := op * 2 ^ 26 + rd.toNat * 2 ^ 21 + imm.toNat

/-- Form MADD: OP, rd, rs1, rs2, rs3, VAR, TYPE. -/
def encMadd (op : Nat) (rd rs1 rs2 rs3 : BitVec 5) (var : BitVec 2) (ty : Nat) : Nat :=
  encReg op rd rs1 rs2 (rs3.toNat * 2 ^ 6 + var.toNat * 2 ^ 4 + ty)

/-- Form AMO: OP 0x21, rd, rs1, rs2, ORD, W, AOP. -/
def encAmo (a : AmoOp) (rd rs1 rs2 : BitVec 5) (ord : BitVec 2) (w : Bool) : Nat :=
  encReg 0x21 rd rs1 rs2 (ord.toNat * 2 ^ 9 + w.toNat * 2 ^ 8 + a.code * 2 ^ 4)

/-- Form W: OP, wd, ws1, ws2, K, Z, ET, FN. -/
def encW (op : Nat) (wd ws1 ws2 : BitVec 5) (k : BitVec 3) (z : Bool) (et : ElemType) (fn : Nat) : Nat :=
  encReg op wd ws1 ws2 (k.toNat * 2 ^ 8 + z.toNat * 2 ^ 7 + et.et * 2 ^ 4 + fn)

/-- Form W3: OP, wd, ws1, ws2, ws3, K, Z, FT. -/
def encW3 (op : Nat) (wd ws1 ws2 ws3 : BitVec 5) (k : BitVec 3) (z : Bool) (ft : BitVec 2) : Nat :=
  encReg op wd ws1 ws2 (ws3.toNat * 2 ^ 6 + k.toNat * 2 ^ 3 + z.toNat * 2 ^ 2 + ft.toNat)

/-- Form WC: OP 0x3A, wd, ws1, SRC, DST, PART, K, Z. -/
def encWc (wd ws1 : BitVec 5) (src dst part : BitVec 4) (k : BitVec 3) (z : Bool) : Nat :=
  0x3A * 2 ^ 26 + wd.toNat * 2 ^ 21 + ws1.toNat * 2 ^ 16 + src.toNat * 2 ^ 12 + dst.toNat * 2 ^ 8 + part.toNat * 2 ^ 4 +
    k.toNat * 2 + z.toNat

/-- Form WM: OP, wd, rs1, offset13, K. -/
def encWm (op : Nat) (wd rs1 : BitVec 5) (off : BitVec 13) (k : BitVec 3) : Nat :=
  op * 2 ^ 26 + wd.toNat * 2 ^ 21 + rs1.toNat * 2 ^ 16 + off.toNat * 2 ^ 3 + k.toNat

/-! ### Reserved encodings -/

/-- The fields of a word that its instruction gives no meaning, as a mask; any value stands there (log entry 90). -/
abbrev noField : Nat := 0

/-- Field rs2 or ws2 has no meaning. -/
abbrev noRs2 : Nat := 0xF800

/-- Field rs1 has no meaning. -/
abbrev noRs1 : Nat := 0x1F0000

/-- FN of the SYS instructions: the fences, HALT, YIELD and FRET (Table 7-6, OP 0x22). -/
def sysFns : List Nat := [0x010, 0x011, 0x020, 0x021, 0x030]

/-- The word is one that Tables 7-5 to 7-11 reserve whatever its operands: no instruction of the tables is encoded so (R134). What
an instruction's own operands reserve is checked where it is executed. -/
def reservedWord (w : Nat) : Bool :=
  let op := bitsOf w 31 26
  let fn := bitsOf w 10 0
  let fnW := bitsOf w 3 0
  if op = 0x01 then decide (26 ≤ fn)
  else if op = 0x06 then decide (bitsOf w 7 6 = 3) || decide (bitsOf w 15 8 ≠ 0)
  else if op = 0x21 then decide (14 ≤ bitsOf w 7 4) || decide (bitsOf w 3 0 ≠ 0)
  else if op = 0x22 then !sysFns.contains fn || decide (bitsOf w 25 11 ≠ 0)
  else if op = 0x23 then
    decide (14 ≤ fnW) || bitOf w 10 || (if fnW = 11 then decide (4 ≤ bitsOf w 9 6) else decide (bitsOf w 9 6 ≠ 0) || bitOf w 5)
  else if op = 0x24 then decide (2 ≤ bitsOf w 3 0)
  else if op = 0x25 then decide (bitsOf w 14 12 ≠ 0)
  else if op = 0x30 then decide (10 ≤ fnW)
  else if op = 0x32 then decide (7 ≤ fnW)
  else if op = 0x33 then decide (fnW = 15) || (decide (9 ≤ fnW) && decide (bitsOf w 10 4 ≠ 0))
  else if op = 0x38 then decide (8 ≤ fnW)
  else if op = 0x39 then decide (9 ≤ fnW)
  else if op = 0x3D then decide (bitsOf w 3 2 ≠ 0)
  else if op = 0x3E then decide (fnW ≠ 0)
  else decide (op = 0) || (decide (0x1A ≤ op) && decide (op ≤ 0x1E)) || (decide (0x26 ≤ op) && decide (op ≤ 0x2F)) ||
    decide (op = 0x3F)

/-- The word in memory is this instruction, fields without meaning aside. -/
def sameWord (fetched w ign : Nat) : Bool := decide (fetched ||| ign = w ||| ign)

end Sys2Proof.Machine
end

