-- ==== Sys2Proof/Machine/Float.lean ====
section
/-!
DEFINITION. The number formats of the node: exact values, rounding, the conversions of Tables 3-5 to 3-7, and arithmetic
rounded once (R39 to R54).
-/

namespace Sys2Proof.Machine

/-- The exact value of a number in any format: a NaN, an infinity, or (-1)^neg * mag * 2^exp. -/
inductive FVal where
  | nan
  | inf (neg : Bool)
  | fin (neg : Bool) (mag : Nat) (exp : Int)
  deriving DecidableEq, Repr

/-- The rounding directions of FPSTAT.RM (Table 7-12). -/
inductive Rnd where
  | rne | up | down | zero
  deriving DecidableEq, Repr

/-- The layout of a floating format (Table 3-1). -/
structure FSpec where
  ebits : Nat
  mbits : Nat
  bias : Int
  /-- the all-ones exponent is reserved for infinity and NaN -/
  ieee : Bool
  /-- only the all-ones encoding is a NaN (FP8-E4M3) -/
  e4m3 : Bool
  deriving DecidableEq, Repr

/-- Table 3-1. The integer and scale formats have no entry. -/
def fspec : Fmt → Option FSpec
  | .fp64 => some ⟨11, 52, 1023, true, false⟩
  | .fp32 => some ⟨8, 23, 127, true, false⟩
  | .bf16 => some ⟨8, 7, 127, true, false⟩
  | .fp16 => some ⟨5, 10, 15, true, false⟩
  | .e4m3 => some ⟨4, 3, 7, false, true⟩
  | .e5m2 => some ⟨5, 2, 15, true, false⟩
  | .e3m2 => some ⟨3, 2, 3, false, false⟩
  | .e2m3 => some ⟨2, 3, 1, false, false⟩
  | .e2m1 => some ⟨2, 1, 1, false, false⟩
  | .int64 | .int32 | .int16 | .int8 | .int4 | .ue8m0 | .w64s => none

/-- `m * 2^k`, exact for `k ≥ 0` and rounded down otherwise. -/
def scaleNat (m : Nat) (k : Int) : Nat :=
  if k < 0 then m >>> (-k).toNat else m <<< k.toNat

/-- The integer of a two's complement pattern of `w` bits. -/
def signedOf (w n : Nat) : Int :=
  if n % 2 ^ w < 2 ^ (w - 1) then (n % 2 ^ w : Nat) else (n % 2 ^ w : Nat) - (2 ^ w : Nat)

/-- The pattern of `w` bits of an integer, wrapping. -/
def patternOf (w : Nat) (i : Int) : Nat := (i % (2 ^ w : Nat)).toNat

/-- The value of an integer. -/
def FVal.ofInt (i : Int) : FVal := .fin (i < 0) i.natAbs 0

/-- The value of an encoding in a floating format (R39). -/
def decodeFloat (f : FSpec) (n : Nat) : FVal :=
  let neg := n / 2 ^ (f.ebits + f.mbits) % 2 = 1
  let e := n / 2 ^ f.mbits % 2 ^ f.ebits
  let m := n % 2 ^ f.mbits
  if f.ieee && e = 2 ^ f.ebits - 1 then (if m = 0 then .inf neg else .nan)
  else if f.e4m3 && e = 2 ^ f.ebits - 1 && m = 2 ^ f.mbits - 1 then .nan
  else if e = 0 then .fin neg m (1 - f.bias - f.mbits)
  else .fin neg (2 ^ f.mbits + m) (e - f.bias - f.mbits)

/-- The value of an encoding in any scalar format or UE8M0 (R39, R40). -/
def decodeFmt (f : Fmt) (n : Nat) : FVal :=
  match fspec f with
  | some sp => decodeFloat sp n
  | none =>
    match f with
    | .ue8m0 => if n % 256 = 255 then .nan else .fin false 1 ((n % 256 : Nat) - 127)
    | _ => .ofInt (signedOf f.bits n)

/-- A signalling NaN of an IEEE layout: a NaN whose top mantissa bit is clear (Table 7-12, NV). -/
def isSignalling (f : Fmt) (n : Nat) : Bool :=
  match fspec f with
  | some sp => sp.ieee && decodeFloat sp n = .nan && n / 2 ^ (sp.mbits - 1) % 2 = 0
  | none => false

/-- The canonical NaN (Table 3-3); 0 in a format without one. -/
def canonNaN (f : Fmt) : Nat :=
  match f with
  | .fp64 => 0x7FF8000000000000
  | .fp32 => 0x7FC00000
  | .bf16 => 0x7FC0
  | .fp16 => 0x7E00
  | .e4m3 => 0x7F
  | .e5m2 => 0x7E
  | .ue8m0 => 0xFF
  | .e3m2 | .e2m3 | .e2m1 | .int64 | .int32 | .int16 | .int8 | .int4 | .w64s => 0

/-- The encoding of infinity in an IEEE layout. -/
def encodeInf (f : FSpec) (neg : Bool) : Nat :=
  neg.toNat * 2 ^ (f.ebits + f.mbits) + (2 ^ f.ebits - 1) * 2 ^ f.mbits

/-- The largest finite encoding (Table 3-1), with a sign. -/
def encodeMax (f : FSpec) (neg : Bool) : Nat :=
  neg.toNat * 2 ^ (f.ebits + f.mbits) +
    (if f.ieee then (2 ^ f.ebits - 1) * 2 ^ f.mbits - 1
     else if f.e4m3 then 2 ^ (f.ebits + f.mbits) - 2 else 2 ^ (f.ebits + f.mbits) - 1)

/-- The encoding of a finite value that the format represents. -/
def encodeFin (f : FSpec) (neg : Bool) (m : Nat) (e : Int) : Nat :=
  let sign := neg.toNat * 2 ^ (f.ebits + f.mbits)
  if m = 0 then sign
  else
    let top : Int := (m.log2 : Int) + e
    if top < 1 - f.bias then sign + scaleNat m (e - (1 - f.bias - f.mbits))
    else sign + (top + f.bias).toNat * 2 ^ f.mbits + (scaleNat m (e - (top - f.mbits)) - 2 ^ f.mbits)

/-- Shift a magnitude right by `k` and round in a direction; the flag says that something was lost. -/
def roundShift (r : Rnd) (neg : Bool) (m k : Nat) : Nat × Bool :=
  let q := m >>> k
  let rest := m - q <<< k
  if rest = 0 then (q, false)
  else
    let half := 2 ^ (k - 1)
    let upward :=
      match r with
      | .rne => half < rest || (rest = half && q % 2 = 1)
      | .up => !neg
      | .down => neg
      | .zero => false
    (if upward then q + 1 else q, true)

/-- Round a magnitude to the grid 2^q (R45: q is the destination's precision or its subnormal grid). -/
def roundGrid (r : Rnd) (neg : Bool) (m : Nat) (e q : Int) : Nat × Bool :=
  if q ≤ e then (scaleNat m (e - q), false) else roundShift r neg m (q - e).toNat

/-- The grid of a value in a format: the last place of its binade, and never below the subnormal grid. -/
def gridOf (f : FSpec) (m : Nat) (e : Int) : Int :=
  max ((m.log2 : Int) + e - f.mbits) (1 - f.bias - f.mbits)

/-- What rounding a finite value to a format gives, before overflow is settled. -/
structure Rounded where
  mag : Nat
  exp : Int
  inexact : Bool
  above : Bool
  tiny : Bool
  deriving DecidableEq, Repr

/-- Round a finite value (R45): unbounded exponent, the subnormal grid below the smallest normal, then the comparison with
the largest finite magnitude. Tininess is open where judging it before and after rounding differ (log entry 10). -/
def roundFin (f : FSpec) (r : Rnd) (neg : Bool) (m : Nat) (e : Int) : Rounded :=
  if m = 0 then ⟨0, 0, false, false, false⟩
  else
    let q := gridOf f m e
    let (n, ix) := roundGrid r neg m e q
    let mx := match decodeFloat f (encodeMax f false) with
      | .fin _ mm me => (mm, me)
      | _ => (0, 0)
    let above := decide (scaleNat mx.1 (mx.2 - min mx.2 q) < scaleNat n (q - min mx.2 q))
    let before := decide ((m.log2 : Int) + e < 1 - f.bias)
    let free := roundGrid r neg m e ((m.log2 : Int) + e - f.mbits)
    let after := before && decide ((free.1.log2 : Int) + ((m.log2 : Int) + e - f.mbits) < 1 - f.bias)
    ⟨n, q, ix, above, if before && !after then !Config.tinyAfterRounding else before⟩

/-- The flags of Table 7-12 that an operation raises. -/
structure Flags where
  nv : Bool := false
  dz : Bool := false
  of : Bool := false
  uf : Bool := false
  nx : Bool := false
  sat : Bool := false
  cnan : Bool := false
  deriving DecidableEq, Repr

/-- The union of two sets of flags (R137). -/
def Flags.or (a b : Flags) : Flags :=
  ⟨a.nv || b.nv, a.dz || b.dz, a.of || b.of, a.uf || b.uf, a.nx || b.nx, a.sat || b.sat, a.cnan || b.cnan⟩

/-- Encode an exact value in a floating format under an IEEE rounding direction, class R (Table 3-5): overflow gives an
infinity, or the largest finite where the direction says so. -/
def encodeIeee (f : Fmt) (r : Rnd) (v : FVal) : Nat × Flags :=
  match fspec f with
  | none => (0, {})
  | some sp =>
    match v with
    | .nan => (canonNaN f, {})
    | .inf neg => (encodeInf sp neg, {})
    | .fin neg m e =>
      let x := roundFin sp r neg m e
      if x.above then
        let toMax := match r with
          | .rne => false
          | .up => neg
          | .down => !neg
          | .zero => true
        (if toMax then encodeMax sp neg else encodeInf sp neg, { of := true, nx := true })
      else (encodeFin sp neg x.mag x.exp, { nx := x.inexact, uf := x.tiny && x.inexact })

/-- Encode an exact value in a floating format under class S (Table 3-5). -/
def encodeSat (f : Fmt) (v : FVal) : Nat × Flags :=
  match fspec f with
  | none => (0, {})
  | some sp =>
    match v with
    | .nan => (canonNaN f, { cnan := canonNaN f = 0 })
    | .inf neg => if sp.ieee then (encodeInf sp neg, {}) else (encodeMax sp neg, { sat := true })
    | .fin neg m e =>
      let x := roundFin sp .rne neg m e
      if x.above then (encodeMax sp neg, { sat := true, nx := x.inexact })
      else (encodeFin sp neg x.mag x.exp, { nx := x.inexact })

/-- The exact value rounded to an integer with RNE; infinities have none. -/
def roundInt (m : Nat) (e : Int) (neg : Bool) : Int × Bool :=
  let (n, ix) := roundGrid .rne neg m e 0
  (if neg then -(n : Int) else n, ix)

/-- Encode an exact value in an integer format under class I (Table 3-5), clamped to `[lo, hi]`. -/
def encodeIntRange (w : Nat) (lo hi : Int) (v : FVal) : Nat × Flags :=
  match v with
  | .nan => (0, { cnan := true })
  | .inf neg => (patternOf w (if neg then lo else hi), { sat := true })
  | .fin neg m e =>
    let (i, ix) := roundInt m e neg
    if i < lo then (patternOf w lo, { sat := true, nx := ix })
    else if hi < i then (patternOf w hi, { sat := true, nx := ix })
    else (patternOf w i, { nx := ix })

/-- Class I into an integer format. -/
def encodeInt (f : Fmt) (v : FVal) : Nat × Flags :=
  encodeIntRange f.bits (-((2 ^ (f.bits - 1) : Nat) : Int)) ((2 ^ (f.bits - 1) : Nat) - 1) v

/-- The class of a conversion (Table 3-6). -/
inductive ConvClass where
  | exact | ieee | sat | toInt
  deriving DecidableEq, Repr

/-- True of a pair whose every source value the destination represents (Table 3-6, class E). -/
def convExact (src dst : Fmt) : Bool :=
  match src, dst with
  | .fp64, .fp64 => true
  | .fp32, .fp64 | .fp32, .fp32 => true
  | .bf16, .fp64 | .bf16, .fp32 | .bf16, .bf16 => true
  | .fp16, .fp64 | .fp16, .fp32 | .fp16, .fp16 => true
  | .e4m3, .fp64 | .e4m3, .fp32 | .e4m3, .bf16 | .e4m3, .fp16 | .e4m3, .e4m3 => true
  | .e5m2, .fp64 | .e5m2, .fp32 | .e5m2, .bf16 | .e5m2, .fp16 | .e5m2, .e5m2 => true
  | .e3m2, .fp64 | .e3m2, .fp32 | .e3m2, .bf16 | .e3m2, .fp16 | .e3m2, .e4m3 | .e3m2, .e5m2
  | .e3m2, .e3m2 => true
  | .e2m3, .fp64 | .e2m3, .fp32 | .e2m3, .bf16 | .e2m3, .fp16 | .e2m3, .e4m3 | .e2m3, .e2m3 => true
  | .e2m1, .fp64 | .e2m1, .fp32 | .e2m1, .bf16 | .e2m1, .fp16 | .e2m1, .e4m3 | .e2m1, .e5m2
  | .e2m1, .e3m2 | .e2m1, .e2m3 | .e2m1, .e2m1 => true
  | .int64, .int64 => true
  | .int32, .fp64 | .int32, .int64 | .int32, .int32 => true
  | .int16, .fp64 | .int16, .fp32 | .int16, .int64 | .int16, .int32 | .int16, .int16 => true
  | .int8, .fp64 | .int8, .fp32 | .int8, .bf16 | .int8, .fp16 | .int8, .int64 | .int8, .int32
  | .int8, .int16 | .int8, .int8 => true
  | .int4, .fp64 | .int4, .fp32 | .int4, .bf16 | .int4, .fp16 | .int4, .e4m3 | .int4, .e5m2
  | .int4, .e3m2 => true
  | .int4, .int64 | .int4, .int32 | .int4, .int16 | .int4, .int8 | .int4, .int4 => true
  | _, _ => false

/-- The class of a pair of scalar formats (R45, Table 3-6): exact where every source value is representable, else by the
destination. -/
def convClass (src dst : Fmt) : ConvClass :=
  if convExact src dst then .exact
  else if dst.isInt then .toInt
  else match dst with
    | .fp64 | .fp32 | .bf16 | .fp16 => .ieee
    | _ => .sat

/-- Encode an exact value in a scalar format under the class that a source format of unlimited range would have. -/
def encodeClass (c : ConvClass) (dst : Fmt) (v : FVal) : Nat × Flags :=
  match c with
  | .toInt => encodeInt dst v
  | .sat => encodeSat dst v
  | .ieee => encodeIeee dst .rne v
  | .exact => if dst.isInt then encodeInt dst v else encodeIeee dst .rne v

/-- A conversion between scalar formats (R45, R46), with the events it counts or flags. -/
def convert (src dst : Fmt) (n : Nat) : Nat × Flags :=
  encodeClass (convClass src dst) dst (decodeFmt src n)

/-! ### Exact arithmetic on values -/

/-- The sign of an exact zero sum of terms of unlike sign (IEEE 754: -0 only when rounding down). -/
def zeroSign (r : Rnd) : Bool := r = .down

/-- The exact sum of two values. -/
def FVal.add (r : Rnd) (a b : FVal) : FVal :=
  match a, b with
  | .nan, _ => .nan
  | _, .nan => .nan
  | .inf x, .inf y => if x = y then .inf x else .nan
  | .inf x, .fin _ _ _ => .inf x
  | .fin _ _ _, .inf y => .inf y
  | .fin x m e, .fin y n g =>
    if m = 0 ∧ n = 0 then .fin (if x = y then x else zeroSign r) 0 0
    else
      let q := min e g
      let i : Int := scaleNat m (e - q)
      let j : Int := scaleNat n (g - q)
      let t := (if x then -i else i) + (if y then -j else j)
      if t = 0 then .fin (zeroSign r) 0 0 else .fin (t < 0) t.natAbs q

/-- The exact product of two values. -/
def FVal.mul (a b : FVal) : FVal :=
  match a, b with
  | .nan, _ => .nan
  | _, .nan => .nan
  | .inf x, .inf y => .inf (x != y)
  | .inf x, .fin y n _ => if n = 0 then .nan else .inf (x != y)
  | .fin x m _, .inf y => if m = 0 then .nan else .inf (x != y)
  | .fin x m e, .fin y n g => .fin (x != y) (m * n) (e + g)

/-- The value with its sign flipped. -/
def FVal.neg : FVal → FVal
  | .nan => .nan
  | .inf x => .inf !x
  | .fin x m e => .fin (!x) m e

/-- The magnitude. -/
def FVal.abs : FVal → FVal
  | .nan => .nan
  | .inf _ => .inf false
  | .fin _ m e => .fin false m e

/-- The sign bit of a value; a NaN is positive (R42). -/
def FVal.sign : FVal → Bool
  | .nan => false
  | .inf x => x
  | .fin x _ _ => x

/-- True of a NaN. -/
def FVal.isNan : FVal → Bool
  | .nan => true
  | .inf _ | .fin _ _ _ => false

/-- True of an infinity. -/
def FVal.isInf : FVal → Bool
  | .inf _ => true
  | .nan | .fin _ _ _ => false

/-- True of +0 and -0. -/
def FVal.isZero : FVal → Bool
  | .fin _ m _ => m = 0
  | .nan | .inf _ => false

/-- True of a value that is neither a NaN nor an infinity. -/
def FVal.isFinite : FVal → Bool
  | .fin _ _ _ => true
  | .nan | .inf _ => false

/-- floor(log2 |v|) of a finite non-zero value. -/
def FVal.log2 : FVal → Int
  | .fin _ m e => (m.log2 : Int) + e
  | .nan | .inf _ => 0

/-- The value times 2^k. -/
def FVal.scale (k : Int) : FVal → FVal
  | .fin x m e => .fin x m (e + k)
  | .nan => .nan
  | .inf x => .inf x

/-- The integer `v * 2^k` rounded down in magnitude, with its sign; 0 for a NaN or an infinity. -/
def FVal.toIntScaled (k : Int) : FVal → Int
  | .fin x m e => if x then -(scaleNat m (e + k) : Int) else scaleNat m (e + k)
  | .nan | .inf _ => 0

/-- Strictly below, with both zeros equal; false on a NaN. -/
def FVal.lt (a b : FVal) : Bool :=
  match a, b with
  | .nan, _ => false
  | _, .nan => false
  | .inf x, .inf y => x && !y
  | .inf x, .fin _ _ _ => x
  | .fin _ _ _, .inf y => !y
  | .fin x m e, .fin y n g =>
    let q := min e g
    let i : Int := scaleNat m (e - q)
    let j : Int := scaleNat n (g - q)
    decide ((if x then -i else i) < (if y then -j else j))

/-- Equal as numbers, with both zeros equal; false on a NaN. -/
def FVal.eq (a b : FVal) : Bool := !a.isNan && !b.isNan && !FVal.lt a b && !FVal.lt b a

/-- The smaller value; a NaN operand gives NaN, and min(-0, +0) = -0 (R87). -/
def FVal.min (a b : FVal) : FVal :=
  if a.isNan || b.isNan then .nan
  else if FVal.lt a b then a else if FVal.lt b a then b else if a.sign then a else b

/-- The larger value; a NaN operand gives NaN, and max(-0, +0) = +0 (R87). -/
def FVal.max (a b : FVal) : FVal :=
  if a.isNan || b.isNan then .nan
  else if FVal.lt a b then b else if FVal.lt b a then a else if a.sign then b else a

/-- The quotient with at least 130 significant bits and a sticky last bit, so that one later rounding is correct. -/
def FVal.div (a b : FVal) : FVal :=
  match a, b with
  | .nan, _ => .nan
  | _, .nan => .nan
  | .inf _, .inf _ => .nan
  | .inf x, .fin y _ _ => .inf (x != y)
  | .fin x _ _, .inf y => .fin (x != y) 0 0
  | .fin x m e, .fin y n g =>
    if n = 0 then (if m = 0 then .nan else .inf (x != y))
    else if m = 0 then .fin (x != y) 0 0
    else
      let k := n.log2 + 132 - m.log2
      let q := (m <<< k) / n
      let sticky := if (m <<< k) % n = 0 then 0 else 1
      .fin (x != y) (2 * q + sticky) (e - g - k - 1)

/-- The integer square root, bit by bit from bit `k` downwards. -/
def isqrtFrom (n : Nat) : Nat → Nat → Nat
  | 0, r => if (r + 1) * (r + 1) ≤ n then r + 1 else r
  | k + 1, r => isqrtFrom n k (if (r + 2 ^ (k + 1)) * (r + 2 ^ (k + 1)) ≤ n then r + 2 ^ (k + 1) else r)

/-- floor(sqrt n). -/
def isqrt (n : Nat) : Nat := isqrtFrom n (n.log2 / 2 + 1) 0

/-- The square root with a sticky last bit; a negative operand other than -0 gives NaN. -/
def FVal.sqrt : FVal → FVal
  | .nan => .nan
  | .inf x => if x then .nan else .inf false
  | .fin x m e =>
    if m = 0 then .fin x 0 0
    else if x then .nan
    else
      let k := 264 - m.log2
      let k := if (e - k) % 2 = 0 then k else k + 1
      let n := m <<< k
      let r := isqrt n
      let sticky := if r * r = n then 0 else 1
      .fin false (2 * r + sticky) ((e - k) / 2 - 1)

/-- 2^(0.f) by nested square roots over the fraction bits, from the last: fixed point with 320 fraction bits. -/
def exp2Frac (f : Nat) : Nat → Nat → Nat
  | 0, v => v
  | k + 1, v =>
    let bit := f % 2
    exp2Frac (f / 2) k (isqrt ((if bit = 1 then 2 * v else v) <<< 320))

/-- 2^v with a sticky last bit (R87, EXP2). The fraction is cut to 256 bits; a cut or an irrational result sets the sticky
bit. -/
def FVal.exp2 : FVal → FVal
  | .nan => .nan
  | .inf x => if x then .fin false 0 0 else .inf false
  | .fin x m e =>
    if m = 0 then .fin false 1 0
    else if 16 ≤ (m.log2 : Int) + e then (if x then .fin false 1 (-100000) else .fin false 1 100000)
    else
      let t : Int := scaleNat m (e + 256)
      let cut := decide (scaleNat (scaleNat m (e + 256)) (-(e + 256)) ≠ m) && decide (e + 256 < 0)
      let t : Int := if x then (if cut then -t - 1 else -t) else t
      let n := t / (2 ^ 256 : Nat)
      let f := (t % (2 ^ 256 : Nat)).toNat
      if f = 0 && !cut then .fin false 1 n
      else .fin false (2 * exp2Frac f 256 (2 ^ 320) + 1) (n - 321)

/-- The binary fraction of log2 y, y in [1, 2) held with 640 fraction bits, by repeated squaring. -/
def log2Frac : Nat → Nat → Nat → Nat
  | 0, _, acc => acc
  | k + 1, y, acc =>
    let z := (y * y) >>> 640
    if 2 ^ 641 ≤ z then log2Frac k (z / 2) (2 * acc + 1) else log2Frac k z (2 * acc)

/-- log2 v with a sticky last bit (R87, LOG2): log2 of a zero is -infinity, of a negative number NaN. -/
def FVal.log2v : FVal → FVal
  | .nan => .nan
  | .inf x => if x then .nan else .inf false
  | .fin x m e =>
    if m = 0 then .inf true
    else if x then .nan
    else
      let top : Int := (m.log2 : Int) + e
      if m = 2 ^ m.log2 then .ofInt top
      else
        let y := scaleNat m (640 - (m.log2 : Int))
        let t : Int := top * (2 ^ 256 : Nat) + (log2Frac 256 y 0 : Nat)
        if t < 0 then .fin true (2 * (t.natAbs - 1) + 1) (-257) else .fin false (2 * t.natAbs + 1) (-257)

end Sys2Proof.Machine
end

