-- ==== Sys2Proof/Machine/Aes.lean ====
section
/-!
DEFINITION. AES-256, its XTS mode on 64-byte lines and its GCM mode, as FIPS 197, IEEE 1619 and NIST SP 800-38D define them (R165,
R231, R284, R285, R327).
-/

namespace Sys2Proof.Machine

/-! ### The block cipher (FIPS 197) -/

/-- Entry `x` of a table of 256 bytes given as eight numbers of 32 bytes each, the first byte lowest. -/
def byteTable (rows : List Nat) (x : Nat) : Nat := rows.getD (x / 32) 0 / 2 ^ (8 * (x % 32)) % 256

/-- The S-box. -/
def aesSbox : Nat → Nat := byteTable
  [0xC072A49CAFA2D4ADF04759FA7DC982CA76ABD7FE2B670130C56F6BF27B777C63,
   0x75B227EBE28012079A059618C323C7041531D871F1E5A534CCF73F362693FDB7,
   0xCF584C4A39BECB6A5BB1FC20ED00D153842FE329B3D63B52A05A6E1B1A2C8309,
   0xD2F3FF1021DAB6BCF5389D928F40A351A89F3C507F02F94585334D43FBAAEFD0,
   0xDB0B5EDE14B8EE4688902A22DC4F816073195D643D7EA7C41744975FEC130CCD,
   0x08AE7A65EAF4566CA94ED58D6D37C8E779E4959162ACD3C25C2406490A3A32E0,
   0x9E1DC186B95735610EF6034866B53E708A8BBD4B1F74DDE8C6B4A61C2E2578BA,
   0x16BB54B00F2D99416842E6BF0D89A18CDF2855CEE9871E9B948ED9691198F8E1]

/-- The inverse S-box. -/
def aesUnsbox : Nat → Nat := byteTable
  [0xCBE9DEC444438E3487FF2F9B8239E37CFBD7F3819EA340BF38A53630D56A0952,
   0x25D18B6D49A25B76B224D92866A12E084EC3FA420B954CEE3D23C2A632947B54,
   0x849D8DA75746155EDAB9EDFD5048706C92B6655DCC5CA4D41698688664F6F872,
   0x6B8A130103BDAFC1020F3FCA8F1E2CD00645B3B80558E4F70AD3BC8C00ABD890,
   0x6EDF751CE837F9E28535ADE72274AC9673E6B4F0CECFF297EADC674F4111913A,
   0xF45ACD78FEC0DB9A2079D2C64B3E56FC1BBE18AA0E62B76F89C5291D711AF147,
   0xEF9CC9939F7AE52D0D4AB519A97F51605FEC8027591012B131C7078833A8DD1F,
   0x7D0C2155631469E126D677BA7E042B17619953833CBBEBC8B0F52AAE4D3BE0A0]

/-- Multiplication by x in GF(2^8). -/
def gfDouble (a : Nat) : Nat := if a < 128 then 2 * a else (2 * a) ^^^ 0x11B

/-- Multiplication in GF(2^8) by a factor of four bits. -/
def gfMul (k a : Nat) : Nat :=
  let a2 := gfDouble a
  let a4 := gfDouble a2
  let a8 := gfDouble a4
  (((if bitOf k 0 then a else 0) ^^^ (if bitOf k 1 then a2 else 0)) ^^^ (if bitOf k 2 then a4 else 0)) ^^^ (if bitOf k 3 then a8 else 0)

/-- The exclusive or of two byte strings. -/
def xorBytes (a b : List Nat) : List Nat := List.zipWith (fun x y => x ^^^ y) a b

/-- Rcon[i], for i up to 7. -/
def aesRcon (i : Nat) : Nat := 2 ^ (i - 1)

/-- The word of the key schedule after the words `ws`, which stand last word first. -/
def aesNextWord (ws : List (List Nat)) : List Nat :=
  let i := ws.length
  let t := ws.headD []
  let t :=
    if i % 8 = 0 then xorBytes ((t.drop 1 ++ t.take 1).map aesSbox) [aesRcon (i / 8), 0, 0, 0]
    else if i % 8 = 4 then t.map aesSbox
    else t
  xorBytes (ws.getD 7 []) t

/-- The words of the key schedule, last word first: `n` more than `ws`. -/
def aesSchedule : Nat → List (List Nat) → List (List Nat)
  | 0, ws => ws
  | n + 1, ws => aesSchedule n (aesNextWord ws :: ws)

/-- The sixteen bytes of a 128-bit number, lowest first. -/
def blockBytes (v : Nat) : List Nat := (upTo 16).map fun i => v / 2 ^ (8 * i) % 256

/-- The 128-bit number of sixteen bytes, lowest first. -/
def blockNat (bs : List Nat) : Nat := bs.foldr (fun b acc => b % 256 + 256 * acc) 0

/-- The fifteen round keys of a 32-byte key. -/
def aesKeys (key : List Nat) : List (List Nat) :=
  let words := (aesSchedule 52 ((upTo 8).map fun i => (key.drop (4 * i)).take 4).reverse).reverse
  (upTo 15).map fun r => ((words.drop (4 * r)).take 4).flatten

/-- ShiftRows by `d` columns per row: 1 forward, 3 back. -/
def aesShift (d : Nat) (b : List Nat) : List Nat :=
  (upTo 16).map fun i => b.getD (4 * ((i / 4 + d * (i % 4)) % 4) + i % 4) 0

/-- MixColumns by a circulant of four factors. -/
def aesMix (f : List Nat) (b : List Nat) : List Nat :=
  (upTo 16).map fun i => (upTo 4).foldl (fun acc j =>
    acc ^^^ gfMul (f.getD ((j + 4 - i % 4) % 4) 0) (b.getD (4 * (i / 4) + j) 0)) 0

/-- AES-256 encryption of one block. -/
def aesEncrypt (keys : List (List Nat)) (b : List Nat) : List Nat :=
  let mid := ((keys.drop 1).take 13).foldl (fun x k => xorBytes (aesMix [2, 3, 1, 1] (aesShift 1 (x.map aesSbox))) k)
    (xorBytes b (keys.headD []))
  xorBytes (aesShift 1 (mid.map aesSbox)) (keys.getD 14 [])

/-- AES-256 decryption of one block. -/
def aesDecrypt (keys : List (List Nat)) (b : List Nat) : List Nat :=
  let mid := ((keys.drop 1).take 13).reverse.foldl (fun x k => aesMix [14, 11, 13, 9] (xorBytes ((aesShift 3 x).map aesUnsbox) k))
    (xorBytes b (keys.getD 14 []))
  xorBytes ((aesShift 3 mid).map aesUnsbox) (keys.headD [])

/-! ### XTS on a 64-byte line (IEEE 1619, R165) -/

/-- Multiplication by the primitive element of GF(2^128), blocks read lowest byte first. -/
def xtsAlpha (t : Nat) : Nat := (2 * t) % 2 ^ 128 ^^^ (if 2 ^ 127 ≤ t then 0x87 else 0)

/-- The encrypted tweaks of the four blocks of a line: its local address as a 128-bit number under the second key. -/
def xtsTweaks (key2 : List Nat) (addr : Nat) : List (List Nat) :=
  let t0 := blockNat (aesEncrypt (aesKeys key2) (blockBytes addr))
  let t1 := xtsAlpha t0
  let t2 := xtsAlpha t1
  [t0, t1, t2, xtsAlpha t2].map blockBytes

/-- A line under a block cipher and the tweaks. -/
def xtsLine (cipher : List Nat → List Nat) (tweaks : List (List Nat)) (line : List Nat) : List Nat :=
  ((upTo 4).map fun j =>
    let t := tweaks.getD j []
    xorBytes (cipher (xorBytes ((line.drop (16 * j)).take 16) t)) t).flatten

/-- A line of plaintext encrypted under a pair of keys, at its local address. -/
def xtsEncrypt (key1 key2 : List Nat) (addr : Nat) (line : List Nat) : List Nat :=
  xtsLine (aesEncrypt (aesKeys key1)) (xtsTweaks key2 addr) line

/-- A line of ciphertext decrypted under a pair of keys, at its local address. -/
def xtsDecrypt (key1 key2 : List Nat) (addr : Nat) (line : List Nat) : List Nat :=
  xtsLine (aesDecrypt (aesKeys key1)) (xtsTweaks key2 addr) line

/-! ### GCM (NIST SP 800-38D) -/

/-- The 128-bit number of a block, first byte highest. -/
def blockBE (bs : List Nat) : Nat := bs.foldl (fun acc b => 256 * acc + b % 256) 0

/-- Multiplication in the field of GHASH: `n` bits of `x` from the highest, `v` the running product of the other factor. -/
def ghashMul (x : Nat) : Nat → Nat → Nat → Nat
  | 0, _, z => z
  | n + 1, v, z => ghashMul x n (if v % 2 = 1 then v / 2 ^^^ 0xE1000000000000000000000000000000 else v / 2)
      (if bitOf x n then z ^^^ v else z)

/-- GHASH over a byte string cut into blocks, the last padded with zeros; `fuel` bounds the blocks. -/
def ghash (h : Nat) : Nat → Nat → List Nat → Nat
  | 0, y, _ => y
  | fuel + 1, y, bs =>
    match bs with
    | [] => y
    | _ :: _ =>
      let blk := bs.take 16
      ghash h fuel (ghashMul (y ^^^ blockBE (blk ++ List.replicate (16 - blk.length) 0)) 128 h 0) (bs.drop 16)

/-- A number as eight bytes, highest first. -/
def be64 (n : Nat) : List Nat := (upTo 8).map fun i => n / 2 ^ (8 * (7 - i)) % 256

/-- The counter block of a 96-bit nonce. -/
def gcmCounter (nonce : List Nat) (c : Nat) : List Nat := nonce ++ (upTo 4).map fun i => c / 2 ^ (8 * (3 - i)) % 256

/-- CTR encryption from counter `c`; `fuel` bounds the blocks. -/
def gcmCtr (keys : List (List Nat)) (nonce : List Nat) : Nat → Nat → List Nat → List Nat
  | 0, _, _ => []
  | fuel + 1, c, bs =>
    match bs with
    | [] => []
    | _ :: _ => xorBytes (bs.take 16) (aesEncrypt keys (gcmCounter nonce c)) ++ gcmCtr keys nonce fuel (c + 1) (bs.drop 16)

/-- The tag of a ciphertext and its associated data. -/
def gcmTag (keys : List (List Nat)) (nonce aad ct : List Nat) : List Nat :=
  let h := blockBE (aesEncrypt keys (List.replicate 16 0))
  let y := ghash h (ct.length / 16 + 1) (ghash h (aad.length / 16 + 1) 0 aad) ct
  let y := ghash h 1 y (be64 (8 * aad.length) ++ be64 (8 * ct.length))
  xorBytes ((upTo 16).map fun i => y / 2 ^ (8 * (15 - i)) % 256) (aesEncrypt keys (gcmCounter nonce 1))

/-- The numbers of a byte string. -/
def byteNats (bs : List Byte) : List Nat := bs.map (·.toNat)

/-- The bytes of a list of numbers. -/
def natBytes (ns : List Nat) : List Byte := ns.map (BitVec.ofNat 8)

/-- AES-256-GCM sealing: the ciphertext, as long as the text, followed by the 16-byte tag (key, nonce of 12 bytes, associated data,
text). -/
def gcmSeal (key nonce aad text : List Byte) : List Byte :=
  let keys := aesKeys (byteNats key)
  let ct := gcmCtr keys (byteNats nonce) (text.length / 16 + 1) 2 (byteNats text)
  natBytes (ct ++ gcmTag keys (byteNats nonce) (byteNats aad) ct)

/-- AES-256-GCM opening: none where the data is shorter than a tag or the tag does not agree. -/
def gcmOpen (key nonce aad data : List Byte) : Option (List Byte) :=
  let keys := aesKeys (byteNats key)
  let ct := (byteNats data).take (data.length - 16)
  if 16 ≤ data.length ∧ gcmTag keys (byteNats nonce) (byteNats aad) ct = (byteNats data).drop (data.length - 16) then
    some (natBytes (gcmCtr keys (byteNats nonce) (data.length / 16 + 1) 2 ct))
  else none

end Sys2Proof.Machine
end

