-- ==== Sys2Proof/Machine/SMap.lean ====
section
/-!
DEFINITION. Sparse data by key in one canonical form: keys strictly rising, and no entry equal to what an unlisted key reads
as. Memory, flash, the register file and every large table of the node are kept so.
-/

namespace Sys2Proof.Machine

/-- A sparse table: key and value pairs, keys strictly rising. -/
abbrev SMap (α : Type) := List (Nat × α)

/-- The value at a key; `d` is what an unlisted key reads as. -/
def SMap.get {α : Type} (d : α) : SMap α → Nat → α
  | [], _ => d
  | (k', v) :: m, k => if k' = k then v else SMap.get d m k

/-- Put an entry at its place among rising keys, in place of one of the same key. -/
def SMap.put {α : Type} : SMap α → Nat → α → SMap α
  | [], k, v => [(k, v)]
  | (k', v') :: m, k, v =>
    if k' < k then (k', v') :: SMap.put m k v else if k' = k then (k, v) :: m else (k, v) :: (k', v') :: m

/-- Write a value at a key; writing what an unlisted key reads as removes the entry. -/
def SMap.set {α : Type} [DecidableEq α] (d : α) (m : SMap α) (k : Nat) (v : α) : SMap α :=
  if v = d then m.filter fun e => e.1 ≠ k else SMap.put m k v

/-- Every key is above `lo`, keys rise, and no value is the default of its key. -/
def SMap.wfAbove {α : Type} [DecidableEq α] (d : Nat → α) : Nat → SMap α → Bool
  | _, [] => true
  | lo, (k, v) :: m => decide (lo ≤ k) && decide (v ≠ d k) && SMap.wfAbove d (k + 1) m

/-- The canonical form, where an unlisted key `k` reads as `d k`. -/
def SMap.wf {α : Type} [DecidableEq α] (d : Nat → α) (m : SMap α) : Bool := SMap.wfAbove d 0 m

/-- Keep the entries whose key and value satisfy a test. -/
def SMap.keep {α : Type} (p : Nat → α → Bool) (m : SMap α) : SMap α := m.filter fun e => p e.1 e.2

end Sys2Proof.Machine
end

