-- ==== Sys2Proof/Machine/PartsCore.lean ====
section
/-!
DEFINITION. State of the cores, the transaction engine, the memory-side adders and the Piazza, as plain data (chapters 7, 8,
10 and 12).
-/

namespace Sys2Proof.Machine

/-! ### Cores (R120) -/

/-- The thread states of CORE_THR_STAT (Table 7-14). -/
inductive RunState where
  | idle | running | suspended | halted | faulted
  deriving DecidableEq, Repr

/-- The code of a thread state (Table 7-14). -/
def RunState.code : RunState → Nat
  | .idle => 0 | .running => 1 | .suspended => 2 | .halted => 3 | .faulted => 4

/-- A memory or waiting operation of a core with its addresses and data resolved; a suspended thread holds it. -/
inductive CoreOp where
  | load (bytes : Nat) (signed : Bool) (rd : BitVec 5) (addr : Word)
  | fload (bytes : Nat) (fd : BitVec 5) (addr : Word)
  | store (bytes : Nat) (addr : Word) (data : Nat)
  | amo (op : AmoOp) (ord : BitVec 2) (bytes : Nat) (rd : BitVec 5) (addr : Word) (v cmp : Nat)
  | fence (glob : Bool)
  | halt
  | wld (wd : BitVec 5) (mask : Nat) (addr : Word)
  | wst (mask : Nat) (addr : Word) (data : Nat)
  /-- the elements still to load: element index and address -/
  | gather (bytes : Nat) (wd : BitVec 5) (elems : List (Nat × Word))
  /-- the elements still to store: address and value -/
  | scatter (bytes : Nat) (elems : List (Word × Nat))
  deriving DecidableEq, Repr

/-- What a suspended thread waits for (Table 7-2). -/
inductive ThreadWait where
  /-- the response to the request it sent -/
  | reply (op : CoreOp)
  /-- a free tag, or fewer than 16 requests outstanding (R124) -/
  | tag (op : CoreOp)
  /-- the fence points of R208: destination and sequence -/
  | fence (op : CoreOp) (points : List (Nat × Nat))
  /-- the fold of a CLOSE (R159) -/
  | fold (op : CoreOp)
  /-- the acknowledgement of a posted access marked acquire, by its tag (R131) -/
  | acquire (op : CoreOp) (tag : Option Nat)
  deriving DecidableEq, Repr

/-- One hardware thread (R120, R128). `x`, `w` and `k` list the registers that are not 0. -/
structure Thread where
  run : RunState := .idle
  pc : Word := 0
  x : SMap Word := []
  w : SMap Wide := []
  k : SMap Word := []
  fpstat : Word := 0
  fepc : Word := 0
  fcause : Word := 0
  faddr : Word := 0
  /-- HANDLER of the thread entry, 0 for none -/
  handler : Word := 0
  /-- a fault handler is running: FRET is not reserved (Table 7-6) -/
  inHandler : Bool := false
  /-- ordered FADDs issued since the segment started (R158) -/
  ordCount : Nat := 0
  /-- the code and address of a posted request that was refused or abandoned, not yet reported (R197, R211) -/
  posted : Option (Nat × Word) := none
  wait : Option ThreadWait := none
  /-- CPU cycles since the thread started (Table 7-7, CYCLE) -/
  cycles : Nat := 0
  deriving DecidableEq, Repr

/-! ### Memory-side adders (R157 to R159) -/

/-- A logged contribution of an ordered region (R158). -/
structure OrdEntry where
  oreg : Nat
  adder : Nat
  addr : Nat
  key : Nat
  val : Nat
  bytes : Nat
  /-- an integer or record contribution keeps its element type of Table 10-2; 0 FP64, 1 FP32 -/
  etype : Nat
  /-- the 32-byte place that the entry takes in its adder's share of the log area -/
  slot : Nat
  deriving DecidableEq, Repr

/-- Who performed the atomic on a CLOSE word. -/
inductive FoldBy where
  | thread (t : Nat) (op : CoreOp)
  /-- a request of another node, with the copies of it that have arrived since -/
  | request (q : Req) (posted : Bool) (copies : List Req)
  | homeReduction
  deriving DecidableEq, Repr

/-- A fold in progress: the entry, and the contributions that had arrived when it began. -/
structure Fold where
  oreg : Nat
  entries : List OrdEntry
  who : FoldBy
  deriving DecidableEq, Repr

/-- The adders' logs and folds. -/
structure Msa where
  log : List OrdEntry := []
  fold : Option Fold := none
  /-- CLOSEs that wait for the running fold (R159) -/
  waiting : List (Nat × FoldBy) := []
  deriving DecidableEq, Repr

/-! ### Transaction engine (R190 to R222) -/

/-- The transaction types of Table 10-3. -/
inductive ReqType where
  | load | store | atomic | atomicP | blockAdd | mcast | coll | objPut | objGet | floorUpd | nodeReport
  deriving DecidableEq, Repr

/-- The code of a transaction type (Table 10-3). -/
def ReqType.code : ReqType → Nat
  | .load => 1 | .store => 2 | .atomic => 3 | .atomicP => 4 | .blockAdd => 5 | .mcast => 6 | .coll => 7
  | .objPut => 8 | .objGet => 9 | .floorUpd => 10 | .nodeReport => 11

/-- The agent whose request it is, and where its result goes. -/
inductive Owner where
  | thread (t : Nat)
  /-- a piece of the descriptor at an index of a ring; for a GET, the local address of its bytes -/
  | ring (ring index localAddr : Nat)
  /-- a result or failure copy of a collective at its home (R252, R261) -/
  | homeCopy (cn : Nat)
  /-- a notice of a collective at its home (R263) -/
  | notice (cn : Nat)
  /-- a piece of a checkpoint object: object number and piece number (R282) -/
  | ckpt (object piece : Nat)
  /-- the rank entry stored at the coordinator, or a proposal of a checkpoint step (R276, R286) -/
  | rank
  /-- a read of the restore in progress (R290) -/
  | restore (piece : Nat)
  /-- a relay read of the host: the BAR2 offset (R245) -/
  | relayRead (offset : Nat)
  | relayWrite (offset : Nat)
  /-- a SCH_HOLD_AT proposal (R33) -/
  | holdAt
  /-- a node report (R221) -/
  | report
  deriving DecidableEq, Repr

/-- A request at the source, from the moment its agent issues it (R195). A multicast has one copy for each member; any other
request has one. -/
structure OutReq where
  typ : ReqType
  /-- header and payload; TAG, SEQ and ACK_FLOOR are filled in when the tag is taken and the request is sent -/
  req : Req
  owner : Owner
  mcast : Bool
  /-- the copies not yet acknowledged: target in the form of R209, and sequence -/
  copies : List (Nat × Nat)
  tag : Option Nat
  /-- time of the first issue in ns; none while the request waits for a tag, the window or an overlap (R195, R196, R199) -/
  sent : Option Nat
  /-- the wait for the window or an overlap has been counted -/
  waited : Bool := false
  /-- the resends of each copy, by target (R200) -/
  resent : SMap Nat := []
  deriving DecidableEq, Repr

/-- An entry of the ledger (R204): the result is the old value, or the code of an error response. -/
structure LedgerEntry where
  src : Nat
  sys : Bool
  seq : Nat
  created : Nat
  err : Nat
  result : List Byte
  deriving DecidableEq, Repr

/-- A request in the input hold (R206). -/
structure HeldReq where
  typ : ReqType
  req : Req
  /-- time of arrival, in ns -/
  since : Nat
  /-- held by home reduction and not by the ledger (R256, R258) -/
  forHome : Bool
  deriving DecidableEq, Repr

/-- A piece of a descriptor that is still to be issued: its offset and length in the transfer or vector, and for an MCAST the
members of one group, for a collective the number of the contribution (R215, R218, R251). -/
structure RingItem where
  off : Nat
  len : Nat
  members : List Nat := []
  part : Nat := 0
  deriving DecidableEq, Repr

/-- A descriptor that has started and not completed (Tables 10-9 and 12-1). -/
structure RingDesc where
  ring : Nat
  index : Nat
  kind : Nat
  doneAddr : Nat
  doneVal : Nat
  /-- the code it failed with -/
  failed : Option Nat := none
  /-- the 64 bytes of its slot, the pieces whose requests are still to be issued, and whether the engine is issuing it: its slot is
  not over (R214, R215) -/
  slot : List Byte := []
  todo : List RingItem := []
  issuing : Bool := false
  /-- collectives: CN, HOME, RESULT, LEN, and the offsets of RESULT pieces received -/
  cn : Nat := 0
  home : Nat := 0
  result : Nat := 0
  len : Nat := 0
  received : List Nat := []
  deriving DecidableEq, Repr

/-- A dead target and the time of its declaration (R209). -/
structure Dead where
  target : Nat
  since : Nat
  /-- the fallback of R211 has been taken -/
  fellBack : Bool := false
  deriving DecidableEq, Repr

/-- The transaction engine. Streams are keyed 2 * node + 1 for the system stream and 2 * node for the job stream. -/
structure Fxp where
  next : SMap Nat := []
  acked : SMap Nat := []
  /-- sequences acknowledged above ACKED: stream key and sequence (R208) -/
  marks : List (Nat × Nat) := []
  /-- the value last carried to the target as ACK_FLOOR, by stream, and the time at which ACKED last advanced (R202) -/
  carried : SMap Nat := []
  ackedAt : SMap Nat := []
  /-- targets whose first system request since reset has been acknowledged (R203) -/
  synced : List Nat := []
  reqs : List OutReq := []
  floors : SMap Nat := []
  /-- time of the last request of a system stream at this target (R203) -/
  lastIn : SMap Nat := []
  ledger : List LedgerEntry := []
  hold : List HeldReq := []
  dead : List Dead := []
  /-- rings whose TAIL an atomic has touched, and rings whose slots the engine is working off (R214) -/
  woken : List Nat := []
  active : List Nat := []
  descs : List RingDesc := []
  /-- the ring served last (R215) -/
  turn : Nat := 15
  /-- time at which the last request of the old job left, while the quiet time of R212 runs -/
  quiet : Option Nat := none
  /-- time at which the last request of the job left the node -/
  lastOut : Option Nat := none
  deriving DecidableEq, Repr

/-! ### Piazza and home reduction (R251 to R263) -/

/-- A COLL message (Table 12-3) with its source node. -/
structure CollMsg where
  cn : Nat
  ckind : Nat
  kind : Nat
  etype : Nat
  err : Nat
  pidx : Nat
  off : Nat
  len : Nat
  result : Nat
  src : Nat
  data : List Byte
  deriving DecidableEq, Repr

/-- One 2 KiB piece of a collective: the next PIDX, the accumulator (empty before the first fold), and in home reduction the
contributor indices staged and not yet folded (R253, R255, R259). -/
structure FoldPiece where
  off : Nat
  next : Nat := 0
  acc : List Byte := []
  staged : List Nat := []
  deriving DecidableEq, Repr

/-- Where a collective is folded (R254, R256, R258). -/
inductive CollPlace where
  | slot
  /-- home reduction, waiting for area; whether the wait has been counted -/
  | hredWait (counted : Bool)
  /-- home reduction with its offset in the result part and in the staging part -/
  | hred (res stg : Nat)
  | failed
  deriving DecidableEq, Repr

/-- A collective at its home, from admission to the acknowledgement of its last result copy. -/
structure Coll where
  cn : Nat
  kind : Nat
  etype : Nat
  len : Nat
  result : Nat
  loc : Nat
  ncontrib : Nat
  members : List Nat
  place : CollPlace
  pieces : List FoldPiece
  /-- PIDX, OFFSET and source of the contribution pieces taken -/
  seen : List (Nat × Nat × Nat) := []
  /-- members that have had their NOTICE -/
  noticed : List Nat := []
  resultSent : Bool := false
  /-- it has failed; its slot or area is given back with the last FAILED copy (R252, R254) -/
  dead : Bool := false
  /-- the time of its admission, in ns (R263) -/
  since : Nat := 0
  deriving DecidableEq, Repr

/-- A batch of home reduction (R259): the collective, its contributions as OFFSET and PIDX, and whether its CLOSE has been
performed. -/
structure HredBatch where
  cn : Nat
  items : List (Nat × Nat)
  closed : Bool := false
  deriving DecidableEq, Repr

/-- The Piazza and the home-reduction engine of a home. -/
structure Piaz where
  colls : List Coll := []
  /-- Kerbside, in order of arrival -/
  kerb : List CollMsg := []
  /-- collectives marked for home reduction before admission, cause 3 (R256) -/
  marked : List Nat := []
  batch : Option HredBatch := none
  /-- CNs whose descriptor this node has started (R263) -/
  issued : List Nat := []
  /-- the first home reduction and the first stall of the job have been reported (R260, R263) -/
  fellBack : Bool := false
  stalled : Bool := false
  /-- collectives not admitted whose stall has been raised -/
  raised : List Nat := []
  deriving DecidableEq, Repr

end Sys2Proof.Machine
end

