-- ==== Sys2Proof/Machine/PartsJob.lean ====
section
/-!
DEFINITION. The loaded job and the engines that run it, as plain data: image header, segments, fields, node set, the lists of
every engine, and the storage of tiles, vector engines, solver engines and assembly units (chapters 2 to 7).
-/

namespace Sys2Proof.Machine

/-- A field descriptor (Table 2-3). `ext` and `str` hold the four extents, and the strides of dimensions 1 to 3. -/
structure Field where
  no : Nat
  fmt : Fmt
  mx : Bool
  llm : Bool
  rank : Nat
  base : Nat
  ext : List Nat
  str : List Nat
  scaleBase : Nat
  deriving DecidableEq, Repr

/-! ### Engine lists -/

/-- A thread entry of a core list (Table 7-1). -/
structure ThreadEntry where
  thread : Nat
  entry : Nat
  arg : Nat
  handler : Nat
  deriving DecidableEq, Repr

/-- An operand descriptor of a tile (Table 4-6). -/
structure OpDesc where
  field : Nat
  cvt : Nat
  orient : Bool
  align : Nat
  prescale : Int
  expField : Nat
  startK : Nat
  startR : Nat
  start2 : Nat
  start3 : Nat
  expStart : Nat
  deriving DecidableEq, Repr

/-- A result descriptor of a tile (Table 4-7). -/
structure ResDesc where
  field : Nat
  route : Nat
  raw : Bool
  orient : Bool
  tbuf : Nat
  half : Bool
  start : List Nat
  deriving DecidableEq, Repr

/-- A tile command (Table 4-4). -/
structure TileCmd where
  opcode : Nat
  accIn : Bool
  fast : Bool
  long : Bool
  aFmt : Nat
  aMx : Bool
  bFmt : Nat
  bMx : Bool
  m : Nat
  n : Nat
  k : Nat
  bank : Nat
  aSrc : Nat
  aStream : Bool
  bSrc : Nat
  bStream : Bool
  a : OpDesc
  b : OpDesc
  r : ResDesc
  /-- the R_DESC record read as an operand descriptor (LADD) -/
  rOp : OpDesc
  slotOff : Nat
  deriving DecidableEq, Repr

/-- A tile stream (Table 4-3). -/
structure TileStream where
  tile : Nat
  feed : Bool
  cmds : List TileCmd
  deriving DecidableEq, Repr

/-- A vector access descriptor (Table 5-5). -/
structure VecDesc where
  field : Nat
  orient : Bool
  advDim : Nat
  rows : Nat
  cols : Nat
  start : List Nat
  adv : Int
  deriving DecidableEq, Repr

/-- A vector instruction with its access descriptor (Table 5-3). -/
structure VecInstr where
  opcode : Nat
  ty : Nat
  dst : Nat
  src1 : Nat
  src2 : Nat
  src3 : Nat
  imm : Nat
  desc : VecDesc
  deriving DecidableEq, Repr

/-- A vector stream (Table 5-2). -/
structure VecStream where
  engine : Nat
  modeB : Bool
  instrs : List VecInstr
  deriving DecidableEq, Repr

/-- An assembly instruction (Table 6-4). -/
structure AsmInstr where
  opcode : Nat
  acc : Bool
  immCoef : Bool
  directS : Bool
  directD : Bool
  dst : Nat
  src1 : Nat
  src2 : Nat
  coef : Nat
  didx : Nat
  sidx : Nat
  sidx2 : Nat
  count : Nat
  start : Nat
  imm : Nat
  deriving DecidableEq, Repr

/-- An assembly stream (Table 6-3). -/
structure AsmStream where
  unit : Nat
  winLo : Nat
  winHi : Nat
  instrs : List AsmInstr
  deriving DecidableEq, Repr

/-- A solver command (Table 6-8). -/
structure SolvCmd where
  opcode : Nat
  solver : Nat
  reuse : Bool
  guess : Bool
  update : Bool
  deriving DecidableEq, Repr

/-- A stream of a solver list (Table 6-8). -/
structure SolvStream where
  engine : Nat
  cmds : List SolvCmd
  deriving DecidableEq, Repr

/-- A solver record (Table 6-1) with the defaults put in. -/
structure SolvRec where
  id : Nat
  engines : List Nat
  wnFast : Bool
  nrhs : Nat
  tauExp : Int
  growthExp : Int
  refLimit : Nat
  tolExp : Int
  n : Nat
  minCb : Nat
  fields : List Nat
  deriving DecidableEq, Repr

/-- A supernode of a schedule (Table 6-6). -/
structure Supernode where
  first : Nat
  ncol : Nat
  rows : List Nat
  parent : Option Nat
  engine : Nat
  offload : Bool
  rowsPos : Nat
  factPos : Nat
  deriving DecidableEq, Repr

/-- A task of a schedule (Table 6-7): 1 EXTADD, 2 PANEL, 3 UPDATE. -/
structure SolvTask where
  kind : Nat
  sn : Nat
  wait : Nat
  succ : Option Nat
  child : Nat
  deriving DecidableEq, Repr

/-- A compiled pattern (Tables 6-5 to 6-7). -/
structure Schedule where
  hash : Nat
  nodes : List Supernode
  tasks : List SolvTask
  maxFront : Nat
  factorBytes : Nat
  updPos : Nat
  snOff : Nat
  taskOff : Nat
  rowsOff : Nat
  deriving DecidableEq, Repr

/-- A solver of the job: its record and its compiled pattern. -/
structure Solver where
  record : SolvRec
  sched : Schedule
  deriving DecidableEq, Repr

/-- A segment (Table 2-2) with the lists of its engines. -/
structure Segment where
  phase : Nat
  wake : Nat
  preds : List Nat
  engines : Nat
  /-- access list: field and whether it is written -/
  access : List (Nat × Bool)
  asm : List AsmStream := []
  solv : List SolvStream := []
  tile : List TileStream := []
  vec : List VecStream := []
  core : List ThreadEntry := []
  deriving DecidableEq, Repr

/-- The loaded job (R19). -/
structure Job where
  base : Nat
  len : Nat
  sess : Nat
  collCount : Nat
  fprint : Nat := 0
  partCount : Nat := 1
  /-- the node set in rank order -/
  nodes : List Nat
  fields : List Field := []
  segs : List Segment := []
  solvers : List Solver := []
  deriving DecidableEq, Repr

/-! ### Tiles (R56 to R59) -/

/-- An element in an operand slot: its encoding in the delivered format, the scale of its MX block, or its Walnut slices with
the exponent and special mark of the row it was sliced in (R66, R70, R71). -/
structure Cell where
  raw : Nat := 0
  scale : Nat := 127
  slices : List Int := []
  exp : Int := -1022
  special : Bool := false
  deriving DecidableEq, Repr

/-- The block last fetched into an operand slot: its row pitch KW, its format and whether it is MX. -/
structure SlotInfo where
  kw : Nat
  fmt : Nat
  mx : Bool
  deriving DecidableEq, Repr

/-- An element of the long-accumulator store (R72): SUM, the exponents, FLAGS, and whether a special row that WN_SPECIAL has
not counted contributes to it. -/
structure LongCell where
  sum : Nat := 0
  expA : Int := 0
  expB : Int := 0
  special : Bool := false
  fast : Bool := false
  owed : Bool := false
  deriving DecidableEq, Repr

/-- A tensor tile. `cells` holds the elements of the operand slots at their half-byte address, 131,072 to a slot; `banks` holds
FP32 or INT32 patterns at bank * 8192 + row * 128 + column. -/
structure Tile where
  seg : Option Nat := none
  feed : Bool := false
  /-- the position in the stream of the next command -/
  pos : Nat := 0
  cells : SMap (Option Cell) := []
  slots : SMap (Option SlotInfo) := []
  /-- the alignment registers: the row exponents of the A and B blocks in use (Table 4-1, R70) -/
  alignA : List Int := []
  alignB : List Int := []
  banks : SMap Nat := []
  /-- the banks whose latest contents are INT32 -/
  intBanks : List Nat := []
  long : SMap LongCell := []
  /-- the DRAIN that waits for a half of its vector engine (R90) -/
  waiting : Option TileCmd := none
  /-- E_WALNUT_RANGE has been raised in this job (R75) -/
  raised : Bool := false
  deriving DecidableEq, Repr

/-! ### Vector engines (R81 to R91) -/

/-- A LOOP in progress (R88). -/
structure VecLoop where
  first : Nat
  len : Nat
  count : Nat
  iter : Nat
  deriving DecidableEq, Repr

/-- A vector engine. `file` is the register file in 4-byte words, `bufs` the tile buffers at (buffer * 128 + row) * 128 +
column; `halves` holds the states of the eight halves and `rels` the fills released of each. -/
structure Vec where
  seg : Option Nat := none
  modeB : Bool := false
  pc : Nat := 0
  loop : Option VecLoop := none
  file : SMap Nat := []
  bufs : SMap Nat := []
  halves : SMap Nat := []
  rels : SMap Nat := []
  /-- the half that a TAKE waits for -/
  takeWait : Option Nat := none
  deriving DecidableEq, Repr

/-! ### Solver engines and assembly units (R100 to R113) -/

/-- A pivot event (Table 6-12). -/
structure PivEvent where
  index : Nat
  kind : Nat
  old : Nat
  new : Nat
  engine : Nat
  deriving DecidableEq, Repr

/-- A FACTOR in progress. A front is a table of FP64 patterns at row * order + column. -/
structure FactorRun where
  solver : Nat
  step : Nat
  done : List Nat := []
  fronts : SMap (SMap Nat) := []
  scales : List Nat := []
  anorm : Nat := 0
  events : List PivEvent := []
  nonfinite : List Nat := []
  fastUsed : Bool := false
  deriving DecidableEq, Repr

/-- A solver engine: the segment it runs and the position in its stream. -/
structure SolvEng where
  seg : Option Nat := none
  pos : Nat := 0
  deriving DecidableEq, Repr

/-- An assembly unit. -/
structure Asm where
  seg : Option Nat := none
  pos : Nat := 0
  deriving DecidableEq, Repr

/-- The state of a segment in the current step (R21). -/
inductive SegState where
  | waiting | running | done
  deriving DecidableEq, Repr

end Sys2Proof.Machine
end

