-- ==== Sys2Proof/Machine/PartsNode.lean ====
section
/-!
DEFINITION. State of the enclave, the firmware processors, power, links, logs, pins and management, as plain data.
-/

namespace Sys2Proof.Machine

/-- What the node has sent to the outside. -/
inductive OutMsg where
  /-- a packet that the switch queues on a port: a request or response of this node, or one it forwards (R240) -/
  | packet (port : Nat) (k : Packet)
  /-- an MSI-X message (Table 11-10) -/
  | msix (vector : Nat)
  /-- a link-state record on every up local port: the port of this node and whether it is up (R239) -/
  | linkState (port : Nat) (up : Bool)
  /-- the identity record sent on a port (R234) -/
  | identity (port : Nat) (r : IdentRec)
  /-- this node's messages of a link key exchange (R326) -/
  | keyExchange (port : Nat) (m : KeyMsg)
  /-- a frame sent on a port, its twenty blocks (R226); a replay sends the same bytes again (R227) -/
  | frame (port : Nat) (bytes : List Byte)
  /-- bytes written to host memory by the bridge as bus master (R327) -/
  | hostWrite (addr : Nat) (data : List Byte)
  /-- a read of host memory by the bridge as bus master (R327, R338) -/
  | hostRead (addr len : Nat)
  /-- the value that a read of a register returns -/
  | value (v : Nat)
  /-- a message of the MCTP endpoint, its type and body (R395) -/
  | mctp (typ : Nat) (body : List Byte)
  /-- the address byte of an SMBus alert response (R394) -/
  | alertResponse (addr : Nat)
  /-- a VOUT_COMMAND of the PMBus host: the address and page of a regulator and its target in mV (R299) -/
  | vout (addr page mv : Nat)
  /-- the bits of a TAP data register as captured, bit 0 first (R396 to R398) -/
  | tdo (bits : List Bool)
  deriving DecidableEq, Repr

/-- A session between OPEN and FINISH (R323, R324). -/
structure HalfOpen where
  /-- SHA-384 of OPEN followed by REPLY -/
  hash : List Byte
  /-- KT and KN -/
  kt : List Byte
  kn : List Byte
  kind : Nat
  sess : Nat
  /-- the opener's Ed25519 and ML-DSA-65 public keys -/
  pubEd : List Byte
  pubMl : List Byte
  /-- BASE and LIMIT words of the sixteen region entries -/
  regions : List (Nat × Nat)
  /-- time of OPEN in ns -/
  since : Nat
  deriving DecidableEq, Repr

/-- A host transfer in progress (R327). -/
structure Xfer where
  form : Nat
  buffer : Bool
  host : Nat
  loc : Nat
  len : Nat
  moved : Nat := 0
  /-- SEC has taken it up and its limits have been checked; the session has begun to close since it was written -/
  checked : Bool := false
  stop : Bool := false
  deriving DecidableEq, Repr

/-- A CFGF command (Table 18-8): 0 READ, 1 PROGRAM, 2 ERASE, its range and data, and whether presence was missing when it was
written or has lapsed since. -/
structure FlashCmd where
  op : Nat
  addr : Nat
  len : Nat
  data : List Byte
  absent : Bool
  deriving DecidableEq, Repr

/-- The stages of the session close of Table 16-4 that wait for something: none, the HBM scrub, the last stage. -/
inductive CloseStage where
  | none
  /-- the job is to be ended by SCH -/
  | job
  | scrub
  | last
  deriving DecidableEq, Repr

/-- The enclave (chapter 16). -/
structure Sec where
  /-- the identity of the key held in each XTS key slot, 0 for none (R165, R325) -/
  keySlot : SMap Nat := []
  /-- the tenant checkpoint key: KEY_ID and the 32 bytes (R285) -/
  ckptKey : Option (Nat × List Byte) := none
  half : Option HalfOpen := none
  /-- KT and KN of the open session -/
  kt : List Byte := []
  kn : List Byte := []
  /-- the SHA-384 of the six images in the evidence of the open session (R334) -/
  measured : List (List Byte) := []
  /-- the message buffer of 16 KiB -/
  msg : SMap Byte := []
  /-- fuses: the PROVISIONED and RETIRED fuses, the toggle bits blown, the identity seed -/
  provisioned : Bool := false
  retired : Bool := false
  toggles : Nat := 0
  seed : List Byte := []
  /-- the fuse words of LCY_LAST (R319) -/
  last : Nat := 0
  /-- the endorsement record that verified: node ID, both signatures (R321) -/
  endorsement : List Byte := []
  /-- SEC_CMD and LCY_REQ waiting to be taken up (R345) -/
  cmd : Option Nat := none
  req : Option Nat := none
  /-- physical presence was missing when LCY_REQ was written, or has lapsed since (R317) -/
  absent : Bool := false
  /-- a READOUT waits for the step boundary (R333) -/
  readoutDue : Bool := false
  xfer : Option Xfer := none
  closing : CloseStage := .none
  /-- SEC_CMD CLOSE waits for the close; the transition that has passed its checks; the seal rule waits for SEC (R318, R319) -/
  closeCmd : Bool := false
  trans : Option Nat := none
  sealDue : Bool := false
  /-- the regions whose CLEAR_IN bit OPEN set, bit r for region r (R328) -/
  clearIn : Nat := 0
  /-- the CFGF command that SEC has not taken up -/
  cfgf : Option FlashCmd := none
  /-- the start-up scrub of HBM is pending or running (Table 16-4) -/
  startScrub : Bool := false
  /-- the debounced seal loop is closed; presence has held for 10 ms (R317) -/
  sealClosed : Bool := false
  presence : Bool := false
  deriving DecidableEq, Repr

/-- What the coarse telemetry view needs (R332): for each step counter, by its type and offset as 4096 * type + offset, the sum
over the instances at the end of the last completed step; node power and each sensor's temperature summed over the present
one-second window with the number of samples, and the averages over the last full one (power in W, temperatures in whole
degrees). -/
structure Tele where
  sums : SMap Nat := []
  powerSum : Nat := 0
  powerCount : Nat := 0
  powerAvg : Nat := 0
  temps : SMap (Int × Nat) := []
  tempAvg : SMap Int := []
  /-- the end of the present window in ns -/
  windowEnd : Nat := 1000000000
  deriving DecidableEq, Repr

/-! ### Calibration, repair and ageing (chapter 9) -/

/-- The calibration of one HBM channel besides its registers. -/
structure Chan where
  /-- a slice, a retrain or an evacuation is due and waits (R168) -/
  wantSlice : Bool := false
  wantRetrain : Bool := false
  wantEvac : Bool := false
  /-- the time from which the slice interval counts, in ns (R170, R176) -/
  sliceFrom : Nat := 0
  /-- the largest movement of a setting that the last slice applied, in PHY steps (R170) -/
  corrected : Nat := 0
  /-- the free choice of the lines that the die's cache held dirty when the retrain in progress began (R172) -/
  dirty : Nat := 0
  /-- a CHANNEL record that MEM has still to make: its action (R180) -/
  recordDue : Nat := 0
  /-- the retrain in progress has aborted; retrains in a row that did, and all that did (R175, R177) -/
  aborted : Bool := false
  abortsInRow : Nat := 0
  aborts : Nat := 0
  /-- the seconds above the limit since a completed retrain, while no second was below it (R177) -/
  watch : Option Nat := none
  /-- the corrected errors at the end of the last one-second window (R164) -/
  ceLast : Nat := 0
  /-- the times of the lines poisoned within the last hour, in ns, newest first (R177) -/
  ueTimes : List Nat := []
  /-- the stack temperature at the last full retrain, in 0.1 degrees (R170) -/
  tempAt : Option Int := none
  /-- passing width and height of the last margin scan (R182) -/
  eye : Option (Nat × Nat) := none
  deriving DecidableEq, Repr

/-- Channel calibration and repair (chapter 9). -/
structure Cal where
  /-- the Alley lines that writes have pinned: the mask of the bytes that are valid, by line address (R172) -/
  pinned : SMap Nat := []
  /-- the dies whose scratchpad regions a past job has still to give up once REPLAY is over (R176) -/
  llmDrop : List Nat := []
  /-- the ports whose margin scan runs (R182) -/
  linkScans : List Nat := []
  chans : SMap Chan := []
  /-- passing width and height of the last link scan, by port (R182) -/
  linkEyes : SMap (Nat × Nat) := []
  deriving DecidableEq, Repr

/-- A record of the ageing log (Table 9-6): KIND, UNIT, SOURCE and its 40 data bytes. -/
structure AgeRec where
  kind : Nat
  unit : Nat
  source : Nat
  data : List Byte
  deriving DecidableEq, Repr

/-- Ageing (R183 to R188). -/
structure Age where
  /-- the guardband of each rail in mV -/
  gb : SMap Nat := []
  /-- the smallest margin of each rail since the last daily evaluation, in ps -/
  least : List (Nat × Int) := []
  /-- the start table of the AON domain: the newest record of each KIND and UNIT -/
  table : List AgeRec := []
  /-- the SEQ of the newest record, and the ring record that the next one takes -/
  seq : Nat := 0
  next : Nat := 0
  /-- records that wait in their writers' memory while SEC is down (R186) -/
  waiting : List AgeRec := []
  /-- AON_POH at a moment, and that moment in ns -/
  pohBase : Nat := 0
  pohAt : Nat := 0
  deriving DecidableEq, Repr

/-! ### Power (chapter 15) -/

/-- What uses HBM besides a loaded job (R14). -/
inductive HbmUse where
  /-- the host transfer of the SEC page -/
  | xfer
  | scrub
  | restore
  | ckpt
  | fwLoad (fwp : Nat)
  | log
  | fwRestart (fwp : Nat)
  /-- a margin scan of an HBM channel -/
  | margin (ch : Nat)
  /-- a slice, a retrain or an evacuation of a channel, which completes even where the job ends (R168, R176) -/
  | cal (ch : Nat)
  deriving DecidableEq, Repr

/-- A waiting wake or release of the Roundabout (R303, R306). -/
structure WakeReq where
  dom : Nat
  up : Bool
  /-- the units it covers, and those not planned yet -/
  units : Nat
  left : Nat
  /-- the quantum in which it was requested, and the first quantum that begins at least 2 us after it -/
  asked : Nat
  earliest : Nat
  /-- its first unit was held back by the minimum high time of R307 -/
  held : Bool := false
  deriving DecidableEq, Repr

/-- A planned unit: the quantum, the domain, the unit, and its predicted step on each rail in uA. -/
structure PlannedUnit where
  quantum : Nat
  dom : Nat
  unit : Nat
  up : Bool
  pred : List Nat
  deriving DecidableEq, Repr

/-- The Roundabout, the envelope in force, the clamps and the loop's memory (chapter 15). Currents are in uA. -/
structure Power where
  /-- the Phase domains that SCH requests -/
  phase : List Nat := []
  uses : List HbmUse := []
  /-- the domains whose grant is requested -/
  wanted : List Nat := []
  /-- ungated units by domain -/
  up : SMap Nat := []
  queue : List WakeReq := []
  plan : List PlannedUnit := []
  /-- the present quantum -/
  quantum : Nat := 0
  /-- the last four measurements, newest first, by 16 * domain + rail -/
  hist : SMap (List Nat) := []
  /-- LOADSTEP bits: the quantum of the last rise plus 1 -/
  rise : SMap Nat := []
  /-- the first deferral since JOB_LOAD or RESTORE has been reported (R305) -/
  deferSeen : Bool := false
  /-- the power envelope in force (R297): maximum currents in 0.1 A, step budgets in 0.1 A, masks, unit entries
  (domain, rail, step in 0.1 A); and the rails that RAIL_MAP lists, each with its PMBus address and page -/
  maxCur : List Nat := [20, 3200, 4000, 4000, 4000, 4000, 2400, 3600, 2000, 400, 4800, 4400, 500, 50]
  budgetMax : List Nat := [0, 80, 80, 80, 80, 80, 80, 40, 40, 0, 40, 40, 0, 0]
  masks : List Nat := [0, 1, 1, 2, 4, 8, 15, 0, 0, 0, 0, 0, 0, 0]
  steps : List (Nat × Nat × Nat) := []
  limitMax : Nat := 2800
  railMap : List (Nat × Nat × Nat) := []
  /-- a current clamp has been reported since power-up (R310) -/
  clampSeen : Bool := false
  /-- dies under the junction clamp, and stacks under theirs (R311) -/
  hot : List Nat := []
  hotStacks : List Nat := []
  /-- the level of a die before its clamp (R310) -/
  before : SMap Nat := []
  /-- loops in a row that let a die's level fall, by die (R308) -/
  cool : SMap Nat := []
  /-- domains stopped by a rail fault or THERMTRIP_N (R298, R312) -/
  dead : List Nat := []
  deriving DecidableEq, Repr

/-- The pins of the node that hold state (R367, R380, R382): an input is true when high. -/
structure Pins where
  resetN : Bool := false
  pwrok : Bool := false
  perstN : Bool := false
  presenceN : Bool := true
  groupBridge : Bool := false
  /-- bit i: LOADSTEP_N[i] is low -/
  loadstep : Nat := 0
  faultN : Bool := true
  thermtripN : Bool := true
  smbAlertN : Bool := true
  /-- bit p: the optical gate of port p is open (R225) -/
  gates : Nat := 0
  deriving DecidableEq, Repr

/-! ### Switch and ports (chapter 11) -/

/-- A packet block that waits at a port (R229, Table 11-2): VC, SOP, EOP, its 256 bytes, and whether its wait for credit has been
counted. -/
structure Block where
  vc : Nat
  sop : Bool
  eop : Bool
  data : List Byte
  stalled : Bool := false
  deriving DecidableEq, Repr

/-- The counts of one pool for each VC and of the shared pool, with nothing in them. -/
abbrev noCredit : List Nat := [0, 0, 0, 0, 0, 0, 0]

/-- A port besides its registers. -/
structure Port where
  /-- the time at which its state began, in ns -/
  since : Nat := 0
  /-- the next frame sequence expected -/
  rxNext : Nat := 0
  /-- the frame that the partner names in its NAKs, and how many in a row did -/
  nakOf : Nat := 0
  naks : Nat := 0
  /-- the times of the frames whose tags failed within the last 1 ms, newest first -/
  tagFails : List Nat := []
  /-- the key slot its frames use, and the keys of the two slots -/
  txSlot : Nat := 0
  keys : SMap (List Byte) := []
  /-- received light has been lost in FAILED -/
  lightLost : Bool := false
  /-- FPORT_FEC_CORR at the end of the last one-second window -/
  fecLast : Nat := 0
  /-- a key exchange is running, with this node's messages and its two secrets -/
  exchange : Option (KeyMsg × List Byte × List Byte) := none
  /-- the packet blocks that wait to be sent, and the credit left for them: dedicated for VC 0 to 5, and shared (R229, R230) -/
  txq : List Block := []
  credit : List Nat := noCredit
  /-- the sequence of the next frame, and the last 192 frames sent, oldest first (R226, R227) -/
  txNext : Nat := 0
  replay : List (Nat × List Byte) := []
  /-- the blocks freed since the last frame, by pool (Table 11-3, CREDITS) -/
  freed : List Nat := noCredit
  /-- by VC: the bytes of the packet whose first blocks have arrived -/
  rxPart : SMap (Option (List Byte)) := []
  /-- requests that have arrived and stop at the full input hold, oldest first: VC, blocks and bytes (R206) -/
  rxStop : List (Nat × Nat × List Byte) := []
  /-- the partner has announced a retune (Table 11-3) -/
  peerRetune : Bool := false
  deriving DecidableEq, Repr

/-- The switch's tables: exits by destination group and gateways by number, as the 64-bit entries of FSW_TBL_DATA (R238). -/
structure Sw where
  /-- the last non-minimal candidate taken, in rotation: an intermediate group, or an intermediate member (R240) -/
  lastGroup : Nat := 0
  lastMember : Nat := 0
  exits : SMap Word := []
  gates : SMap Word := []
  /-- the SHA-384 of each gateway's identity public keys (Table 19-5) -/
  gateKeys : SMap (List Byte) := []
  /-- entries that the host has written while FAB was down: FSW_TBL_SEL and the entry (R235, R344) -/
  late : List (Nat × Word) := []
  deriving DecidableEq, Repr

/-! ### Start-up and firmware processors (chapters 17 and 19) -/

/-- What the start-up sequence knows besides registers. -/
structure Boot where
  /-- the node acts as with RESET_N low (R367, R386, R397) -/
  held : Bool := true
  /-- the time of that fall of RESET_N, and of its last filtered rise, in ns -/
  fell : Nat := 0
  rose : Nat := 0
  /-- RESET_N must fall before a rise counts, after a lost reference or a TAP instruction -/
  needFall : Bool := false
  /-- LANE_MAP, which the PCIe lanes follow outside the model: receive polarity, transmit polarity, lane reversal -/
  laneMap : Nat × Nat × Nat := (0, 0, 0)
  /-- the member that BRIDGE_ROLE names, and its FXP_REPORT_NODE value -/
  bridge : Nat := 0
  reportNode : Nat := 0
  smbAddr : Nat := 0x4C
  /-- the MEMORY record: mode, SPARE_CH of each stack, least eye width and height, by which the training that commands
  report is judged -/
  spared : Bool := false
  spareCh : List Nat := List.replicate 16 31
  eyeWidth : Nat := 16
  eyeHeight : Nat := 40
  /-- the SECURITY record -/
  policy : Nat := 1
  sealCloses : Bool := false
  /-- the GATEWAY record's entries as FAB takes them up, and the ENDORSEMENT record as SEC does -/
  gates : SMap Word := []
  gateKeys : SMap (List Byte) := []
  endorsement : List Byte := []
  /-- the laser modules fitted, and those whose identity is valid -/
  lasers : Nat := 0
  validLasers : Nat := 0
  /-- the boot port is lit: start-up has ended its settings read and FAB has not released the port (R340) -/
  booting : Bool := false
  deriving DecidableEq, Repr

/-- A firmware processor besides its registers (R338 to R343). -/
structure Fwp where
  /-- the bytes of the image in its slot -/
  len : Nat := 0
  /-- the restart in progress, or the last one: its cause (0 none), the pc, and the time of the halt in ns -/
  cause : Nat := 0
  pc : Nat := 0
  haltAt : Nat := 0
  /-- the time in ns at which the current or last hold of its pages began (Table 17-2) -/
  heldAt : Nat := 0
  /-- the private memories: the code and the initialised data; every byte past them is 0 (R338, R342) -/
  imem : List Byte := []
  dmem : List Byte := []
  /-- the watchdog: the time in ns of the last kick, and the period in ms that it took up (R341) -/
  kickAt : Nat := 0
  period : Nat := 0
  /-- the times of the restarts of causes 1, 2 and 4 within the last 10 s -/
  recent : List Nat := []
  /-- it has run since the last reset that took the dies through power-on reset -/
  ran : Bool := false
  deriving DecidableEq, Repr

/-- The image load in progress (R338): the instance, the host address and length, the state before START, and whether the bytes
are staged. -/
structure FwLoad where
  inst : Nat
  host : Nat
  len : Nat
  prior : Nat
  staged : Bool := false
  /-- header and signatures have been found good; the session of R334 may still have to close -/
  verified : Bool := false
  deriving DecidableEq, Repr

/-! ### Management and test access (chapter 20) -/

/-- The MCTP endpoint and the PLDM event queue (R394, R395): events as sensor, previous and present state. -/
structure Mgmt where
  eid : Nat := 0
  events : List (Nat × Nat × Nat) := []
  /-- the event states last seen, by sensor -/
  last : SMap Nat := []
  deriving DecidableEq, Repr

/-- The TAP (R396 to R398): the instruction, the boundary-scan register with bit 0 next to TDO, and the debug bridge's DONE, ERR
and data. -/
structure Tap where
  ir : Nat := 1
  scan : List Bool := List.replicate 107 false
  done_ : Bool := false
  err : Bool := false
  data : Nat := 0
  deriving DecidableEq, Repr

/-! ### Scheduler (chapter 2) -/

/-- The shadow of a pending HIF command (R345). -/
structure HifCmd where
  seq : Nat
  op : Nat
  args : List Nat
  deriving DecidableEq, Repr

/-- An event record without the fields that follow from its place (R37). -/
structure EventRec where
  kind : Nat
  reason : Nat
  err : Nat
  seq : Nat
  step : Nat
  deriving DecidableEq, Repr

/-- What follows a checkpoint when it is over (R29, R34, R277). -/
inductive CkptAfter where
  | nothing
  /-- actions 5 to 7 of Table 2-6 -/
  | boundary
  /-- the hold or end that was due at once in READY or HOLD -/
  | atOnce
  /-- the dispatch of a RUN or RUN_N that was accepted while the checkpoint ran -/
  | dispatch
  deriving DecidableEq, Repr

/-- SCH besides its registers. -/
structure Sched where
  /-- the states of the segments in the present step; a step is in progress -/
  segs : List SegState := []
  stepping : Bool := false
  events : List EventRec := []
  evtSeq : Nat := 0
  /-- a job-wide hold or end is pending, the reasons for it, and the highest target written to the other nodes (R33) -/
  holdOn : Bool := false
  causes : List Nat := []
  sent : Nat := 0
  endPending : Bool := false
  /-- END asked for a checkpoint, or a lapse of an armed job did (R36) -/
  ckptDue : Bool := false
  /-- a RUN_N count is active -/
  counted : Bool := false
  /-- time of the last heartbeat in ns; none while no job is loaded -/
  hbStart : Option Nat := none
  /-- the lapse of this heartbeat has been acted on -/
  lapsed : Bool := false
  /-- a lapse during LOADING, acted on when loading completes (R35) -/
  lapseDue : Bool := false
  /-- a checkpoint advisory waits for SCH -/
  advisoryDue : Bool := false
  /-- the job is to end once SCH runs: reason and code of the JOB_END event -/
  endDue : Option (Nat × Nat) := none
  /-- the pending HIF command -/
  cmd : Option HifCmd := none
  /-- the load that JOB_LOAD_COMPLETE finishes -/
  loading : Bool := false
  restored : Bool := false
  /-- a JOB_LOAD or RESTORE held for the quiet time of R212 -/
  quietCmd : Option HifCmd := none
  /-- the boundary actions wait for SCH (chapter 2, last paragraph) -/
  boundaryDue : Bool := false
  /-- an ABORT that ABORT_COMPLETE finishes -/
  aborting : Bool := false
  deriving DecidableEq, Repr

/-! ### Checkpoint and restore (chapter 14) -/

/-- A destination record (Table 14-1) or the same fields of a restore record. -/
structure CkptDest where
  gwFirst : Nat
  gwCount : Nat
  setId : Nat
  atWord : Nat
  entryBuf : Nat
  shardLog2 : Nat
  deriving DecidableEq, Repr

/-- An object to put: its number, INDEX, KIND, RANK and gateway, its bytes, the next piece to issue and the pieces
acknowledged. -/
structure CkptObj where
  id : Nat
  index : Nat
  kind : Nat
  rank : Nat
  gw : Nat
  bytes : List Byte
  next : Nat := 0
  acked : List Nat := []
  deriving DecidableEq, Repr

/-- The phase of a checkpoint. -/
inductive CkptPhase where
  /-- STATE, IMAGE and FIELD shards, then the INDEX object -/
  | shards
  | index
  /-- every piece acknowledged; the coordinator waits for rank entries -/
  | waiting
  | manifest
  deriving DecidableEq, Repr

/-- A checkpoint in progress on this node. -/
structure CkptRun where
  step : Nat
  dest : CkptDest
  phase : CkptPhase
  objs : List CkptObj
  /-- the SHA-384 of the INDEX object and the number of shards, for the rank entry -/
  shards : Nat
  indexHash : List Byte
  /-- the shards' INDEX records -/
  records : List Byte
  /-- start of the phase-2 wait in ns -/
  since : Nat
  after : CkptAfter
  /-- the code it failed with, not reported yet -/
  failed : Option Nat := none
  deriving DecidableEq, Repr

/-- The name of an object at its gateway: RANK, KIND, INDEX. -/
structure ObjName where
  rank : Nat
  kind : Nat
  index : Nat
  deriving DecidableEq, Repr

/-- A RESTORE in progress: its record, its map, and what has been read. -/
structure Restore where
  dest : CkptDest
  step : Nat
  image : Nat
  imageLen : Nat
  rank : Nat
  sess : Nat
  map : List (Nat × Nat × Nat)
  /-- candidates not tried yet, newest first; the upper bound of the last LIST page, and whether it was full -/
  cands : List Nat := []
  /-- the objects of the candidate still to read -/
  todo : List ObjName := []
  bound : Nat := 2 ^ 64 - 1
  more : Bool := false
  /-- the candidate being read: its objects so far, and the bytes of the object being read -/
  cur : Option Nat := none
  got : List (ObjName × List Byte) := []
  part : List Byte := []
  /-- objects that a gateway reports missing -/
  missing : List ObjName := []
  /-- the error and step of the newest refused candidate -/
  firstErr : Option (Nat × Nat) := none
  /-- the error of a read that is no fault of the candidate -/
  stop : Option Nat := none
  /-- a read is outstanding -/
  busy : Bool := false
  deriving DecidableEq, Repr

/-- Checkpoints and restores. -/
structure Ckpt where
  run : Option CkptRun := none
  restore : Option Restore := none
  /-- the SET_ID of the last checkpoint (R277) -/
  lastSet : Nat := 0
  deriving DecidableEq, Repr

/-! ### Host bridge and log (chapters 11 and 17) -/

/-- The report queue of the group bridge, the reports of this node that FAB has not sent yet, and relays in flight: the value
a relay read returns is known when its response arrives. -/
structure Hbr where
  /-- the mask and pending bits of the MSI-X vectors in BAR4 (Table 11-9) -/
  msixMask : Nat := 0
  msixPend : Nat := 0
  queue : List (List Byte) := []
  waiting : List (List Byte) := []
  /-- relay reads that completed: BAR2 offset and the value returned to the host -/
  reads : List (Nat × Nat) := []
  deriving DecidableEq, Repr

/-- LOG's queue of entries that are not in the ring yet; SEQ is filled in when an entry is written (R348). -/
structure Log where
  queue : List (List Byte) := []
  deriving DecidableEq, Repr

end Sys2Proof.Machine
end

