-- ==== Sys2Proof/Machine/RegTable.lean ====
section
/-!
DEFINITION. The register map: block types and instance counts (Table 18-4), and every register of the pages with its
offset, width, access, reset value, defined bits and range (Tables 2-7 to 20-10, R355, R364, R365).
-/

namespace Sys2Proof.Machine

/-- Access codes of Table 0-5 as the pages use them; WO and W1C keep their name, RWL fields stand as `rw`. -/
inductive Access where
  | ro | rw | wo | w1c
  deriving DecidableEq, Repr

/-- A register of a page: `count` registers of `bytes` bytes from `off`, one after another. -/
structure RegRow where
  off : Nat
  bytes : Nat
  count : Nat
  acc : Access
  reset : Nat
  /-- the bits a write may set; the others are reserved or read-only (R4) -/
  mask : Nat
  /-- the range of R7, none when `hi` is 0 -/
  lo : Nat
  hi : Nat
  deriving DecidableEq, Repr

/-- A register named by block type and offset. -/
structure Reg where
  ty : Nat
  off : Nat
  deriving DecidableEq, Repr

/-! ### Block types (Table 18-4) -/

/-- Block type NODE of Table 18-4. -/
abbrev tyNode : Nat := 0x00

/-- Block type AON of Table 18-4. -/
abbrev tyAon : Nat := 0x01

/-- Block type CLK of Table 18-4. -/
abbrev tyClk : Nat := 0x02

/-- Block type PWR of Table 18-4. -/
abbrev tyPwr : Nat := 0x03

/-- Block type THM of Table 18-4. -/
abbrev tyThm : Nat := 0x04

/-- Block type SEC of Table 18-4. -/
abbrev tySec : Nat := 0x05

/-- Block type LCY of Table 18-4. -/
abbrev tyLcy : Nat := 0x06

/-- Block type FWP of Table 18-4. -/
abbrev tyFwp : Nat := 0x07

/-- Block type SCH of Table 18-4. -/
abbrev tySch : Nat := 0x08

/-- Block type HIF of Table 18-4. -/
abbrev tyHif : Nat := 0x09

/-- Block type CFGF of Table 18-4. -/
abbrev tyCfgf : Nat := 0x0A

/-- Block type DBG of Table 18-4. -/
abbrev tyDbg : Nat := 0x0B

/-- Block type HBR of Table 18-4. -/
abbrev tyHbr : Nat := 0x0C

/-- Block type AGE of Table 18-4. -/
abbrev tyAge : Nat := 0x0D

/-- Block type TILE of Table 18-4. -/
abbrev tyTile : Nat := 0x10

/-- Block type VEC of Table 18-4. -/
abbrev tyVec : Nat := 0x11

/-- Block type SOLV of Table 18-4. -/
abbrev tySolv : Nat := 0x12

/-- Block type ASM of Table 18-4. -/
abbrev tyAsm : Nat := 0x13

/-- Block type LLM of Table 18-4. -/
abbrev tyLlm : Nat := 0x14

/-- Block type CORE of Table 18-4. -/
abbrev tyCore : Nat := 0x15

/-- Block type PUNC of Table 18-4. -/
abbrev tyPunc : Nat := 0x16

/-- Block type HBMC of Table 18-4. -/
abbrev tyHbmc : Nat := 0x18

/-- Block type HBMCH of Table 18-4. -/
abbrev tyHbmch : Nat := 0x19

/-- Block type MSA of Table 18-4. -/
abbrev tyMsa : Nat := 0x1A

/-- Block type FPORT of Table 18-4. -/
abbrev tyFport : Nat := 0x1C

/-- Block type FSW of Table 18-4. -/
abbrev tyFsw : Nat := 0x1D

/-- Block type PIAZ of Table 18-4. -/
abbrev tyPiaz : Nat := 0x1E

/-- Block type FXP of Table 18-4. -/
abbrev tyFxp : Nat := 0x1F

/-- The instance count of a block type; 0 for a reserved type (R354, Table 18-4). -/
def instCount : Nat → Nat
  | 0x00 => 1
  | 0x01 => 1
  | 0x02 => 1
  | 0x03 => 1
  | 0x04 => 1
  | 0x05 => 1
  | 0x06 => 1
  | 0x07 => 6
  | 0x08 => 1
  | 0x09 => 1
  | 0x0A => 1
  | 0x0B => 1
  | 0x0C => 1
  | 0x0D => 12
  | 0x10 => 256
  | 0x11 => 16
  | 0x12 => 4
  | 0x13 => 4
  | 0x14 => 4
  | 0x15 => 64
  | 0x16 => 1
  | 0x18 => 16
  | 0x19 => 512
  | 0x1A => 16
  | 0x1C => 48
  | 0x1D => 1
  | 0x1E => 1
  | 0x1F => 1
  | _ => 0

/-- NODE_BGRP_MASK1 to 15, 48 bytes each: BASE in [8:0] of the first word, the 256-bit map from byte 16, the rest reserved
(R362). -/
def rowsBgrp : List RegRow :=
  [0, 1, 2, 3, 4, 5, 6, 7, 8, 9, 10, 11, 12, 13, 14].flatMap fun n =>
    [⟨0x100 + 48 * n, 4, 1, .rw, 0x0, 0x1FF, 0, 0⟩, ⟨0x104 + 48 * n, 4, 3, .ro, 0x0, 0x0, 0, 0⟩,
     ⟨0x110 + 48 * n, 4, 8, .rw, 0x0, 0xFFFFFFFF, 0, 0⟩]

/-- The NODE page. -/
def rowsNode : List RegRow :=
  [⟨0x080, 4, 1, .ro, 0x0, 0x0, 0, 0⟩,
   ⟨0x088, 4, 1, .ro, 0x0, 0x0, 0, 0⟩,
   ⟨0x08C, 4, 1, .ro, 0x0, 0x0, 0, 0⟩,
   ⟨0x084, 4, 1, .ro, 0x1B1, 0x0, 0, 0⟩,
   ⟨0x090, 8, 1, .ro, 0xB1010100, 0x0, 0, 0⟩] ++ rowsBgrp

/-- The AON page. -/
def rowsAon : List RegRow :=
  [⟨0x080, 4, 1, .ro, 0x0, 0x0, 0, 0⟩,
   ⟨0x084, 4, 1, .ro, 0x0, 0x0, 0, 0⟩,
   ⟨0x100, 4, 1, .ro, 0x1, 0x0, 0, 0⟩,
   ⟨0x104, 4, 1, .ro, 0x0, 0x0, 0, 0⟩,
   ⟨0x108, 4, 1, .ro, 0x0, 0x0, 0, 0⟩,
   ⟨0x110, 4, 1, .rw, 0x7, 0x7, 0, 0⟩]

/-- The CLK page. -/
def rowsClk : List RegRow :=
  [⟨0x080, 8, 1, .ro, 0x0, 0x0, 0, 0⟩,
   ⟨0x088, 4, 1, .ro, 0x0, 0x0, 0, 0⟩,
   ⟨0x100, 4, 25, .ro, 0x0, 0x0, 0, 0⟩]

/-- The PWR page. -/
def rowsPwr : List RegRow :=
  [⟨0x080, 4, 1, .ro, 0x0, 0x0, 0, 0⟩,
   ⟨0x084, 4, 1, .rw, 0xAF0, 0xFFFFFFFF, 0, 0⟩,
   ⟨0x088, 4, 1, .ro, 0x0, 0x0, 0, 0⟩,
   ⟨0x08C, 4, 1, .ro, 0x0, 0x0, 0, 0⟩,
   ⟨0x090, 4, 1, .ro, 0x0, 0x0, 0, 0⟩,
   ⟨0x094, 4, 1, .ro, 0x0, 0x0, 0, 0⟩,
   ⟨0x098, 4, 1, .ro, 0x0, 0x0, 0, 0⟩,
   ⟨0x09C, 4, 1, .ro, 0x0, 0x0, 0, 0⟩,
   ⟨0x0A0, 4, 1, .ro, 0x0, 0x0, 0, 0⟩,
   ⟨0x100, 8, 14, .ro, 0x0, 0x0, 0, 0⟩,
   ⟨0x180, 4, 14, .rw, 0x0, 0xFFFF, 0, 0⟩]

/-- The THM page. -/
def rowsThm : List RegRow :=
  [⟨0x080, 4, 1, .ro, 0x0, 0x0, 0, 0⟩,
   ⟨0x084, 4, 1, .ro, 0x0, 0x0, 0, 0⟩,
   ⟨0x088, 4, 1, .rw, 0x64, 0xFFFFFFFF, 70, 102⟩,
   ⟨0x08C, 4, 1, .ro, 0x0, 0x0, 0, 0⟩,
   ⟨0x090, 4, 1, .ro, 0x0, 0x0, 0, 0⟩,
   ⟨0x094, 4, 1, .ro, 0x0, 0x0, 0, 0⟩,
   ⟨0x100, 4, 32, .ro, 0x0, 0x0, 0, 0⟩]

/-- The SEC page. -/
def rowsSec : List RegRow :=
  [⟨0x080, 4, 1, .ro, 0x0, 0x0, 0, 0⟩,
   ⟨0x084, 4, 1, .wo, 0x0, 0xFF, 0, 0⟩,
   ⟨0x088, 4, 1, .ro, 0x0, 0x0, 0, 0⟩,
   ⟨0x090, 8, 1, .rw, 0x0, 0xFFFFFFFFFFFFFFFF, 0, 0⟩,
   ⟨0x098, 8, 1, .rw, 0x0, 0xFFFFFFFFFFFFFFFF, 0, 0⟩,
   ⟨0x0A0, 8, 1, .rw, 0x0, 0xFFFFFFFFFFFFFFFF, 1, 1099511627776⟩,
   ⟨0x0A8, 4, 1, .wo, 0x0, 0x13, 0, 0⟩,
   ⟨0x0AC, 4, 1, .ro, 0x0, 0x0, 0, 0⟩,
   ⟨0x0B0, 4, 1, .ro, 0x0, 0x0, 0, 0⟩,
   ⟨0x0B8, 4, 1, .ro, 0x0, 0x0, 0, 0⟩,
   ⟨0x0BC, 4, 1, .ro, 0x0, 0x0, 0, 0⟩,
   ⟨0x100, 8, 32, .ro, 0x0, 0x0, 0, 0⟩]

/-- The LCY page. -/
def rowsLcy : List RegRow :=
  [⟨0x080, 4, 1, .ro, 0x0, 0x0, 0, 0⟩,
   ⟨0x084, 4, 1, .wo, 0x0, 0x7, 0, 0⟩,
   ⟨0x088, 4, 1, .ro, 0x0, 0x0, 0, 0⟩,
   ⟨0x08C, 4, 1, .ro, 0x0, 0x0, 0, 0⟩,
   ⟨0x090, 4, 1, .ro, 0x0, 0x0, 0, 0⟩]

/-- The FWP page. -/
def rowsFwp : List RegRow :=
  [⟨0x080, 4, 1, .ro, 0x0, 0x0, 0, 0⟩,
   ⟨0x088, 8, 1, .rw, 0x0, 0xFFFFFFFFFFFFFFFF, 0, 0⟩,
   ⟨0x090, 4, 1, .rw, 0x0, 0xFFFFFFFF, 0, 0⟩,
   ⟨0x094, 4, 1, .wo, 0x0, 0x1, 0, 0⟩,
   ⟨0x098, 4, 1, .rw, 0x64, 0xFFFFFFFF, 1, 1000⟩,
   ⟨0x09C, 4, 1, .ro, 0x0, 0x0, 0, 0⟩,
   ⟨0x0A0, 4, 1, .ro, 0x0, 0x0, 0, 0⟩,
   ⟨0x0A4, 4, 1, .ro, 0x0, 0x0, 0, 0⟩,
   ⟨0x0A8, 4, 1, .ro, 0x0, 0x0, 0, 0⟩,
   ⟨0x0B0, 8, 6, .ro, 0x0, 0x0, 0, 0⟩]

/-- The SCH page. -/
def rowsSch : List RegRow :=
  [⟨0x080, 4, 1, .ro, 0x0, 0x0, 0, 0⟩,
   ⟨0x084, 4, 1, .ro, 0x0, 0x0, 0, 0⟩,
   ⟨0x088, 8, 1, .ro, 0x0, 0x0, 0, 0⟩,
   ⟨0x090, 8, 1, .rw, 0x0, 0xFFFFFFFFFFFFFFFF, 0, 0⟩,
   ⟨0x098, 4, 1, .ro, 0x0, 0x0, 0, 0⟩,
   ⟨0x0A0, 8, 1, .rw, 0x0, 0xFFFFFFFFFFFFFFFF, 0, 0⟩,
   ⟨0x0A8, 4, 1, .rw, 0x0, 0x1, 0, 0⟩,
   ⟨0x0B0, 4, 1, .wo, 0x0, 0xFFFFFFFF, 0, 0⟩,
   ⟨0x0B4, 4, 1, .ro, 0x1388, 0x0, 0, 0⟩,
   ⟨0x0B8, 4, 1, .ro, 0x0, 0x0, 0, 0⟩,
   ⟨0x0C0, 4, 1, .ro, 0x0, 0x0, 0, 0⟩,
   ⟨0x0C8, 4, 1, .rw, 0x0, 0xFFFFFFFF, 0, 0⟩,
   ⟨0x0CC, 4, 1, .w1c, 0x0, 0x40, 0, 0⟩,
   ⟨0x0D0, 4, 4, .ro, 0x0, 0x0, 0, 0⟩,
   ⟨0x0E0, 4, 1, .wo, 0x0, 0xFFFFFFFF, 0, 0⟩,
   ⟨0x0E8, 4, 1, .ro, 0x0, 0x0, 0, 0⟩,
   ⟨0x100, 8, 32, .wo, 0x0, 0xFFFFFFFFFFFFFFFF, 0, 0⟩,
   ⟨0x200, 4, 1, .ro, 0x0, 0x0, 0, 0⟩,
   ⟨0x208, 8, 1, .ro, 0x0, 0x0, 0, 0⟩,
   ⟨0x210, 8, 1, .ro, 0xFFFFFFFFFFFFFFFF, 0x0, 0, 0⟩,
   ⟨0x218, 8, 1, .ro, 0xFFFFFFFFFFFFFFFF, 0x0, 0, 0⟩,
   ⟨0x220, 4, 1, .rw, 0x3C, 0xFFFFFFFF, 1, 3600⟩,
   ⟨0x224, 4, 1, .ro, 0x0, 0x0, 0, 0⟩,
   ⟨0x228, 8, 1, .ro, 0x0, 0x0, 0, 0⟩]

/-- The HIF page. -/
def rowsHif : List RegRow :=
  [⟨0x080, 4, 1, .rw, 0x0, 0xFFFF00FF, 0, 0⟩,
   ⟨0x088, 8, 8, .rw, 0x0, 0xFFFFFFFFFFFFFFFF, 0, 0⟩,
   ⟨0x0C8, 8, 1, .ro, 0x0, 0x0, 0, 0⟩,
   ⟨0x0D0, 4, 1, .ro, 0x0, 0x0, 0, 0⟩]

/-- The CFGF page. -/
def rowsCfgf : List RegRow :=
  [⟨0x080, 4, 1, .ro, 0x0, 0x0, 0, 0⟩,
   ⟨0x084, 4, 1, .ro, 0x0, 0x0, 0, 0⟩,
   ⟨0x088, 4, 1, .rw, 0x0, 0xFFFFFFFF, 0, 0⟩,
   ⟨0x08C, 4, 1, .rw, 0x0, 0xFFFFFFFF, 1, 256⟩,
   ⟨0x090, 4, 1, .wo, 0x0, 0x3, 0, 0⟩,
   ⟨0x094, 4, 1, .ro, 0x0, 0x0, 0, 0⟩,
   ⟨0x098, 4, 1, .ro, 0x0, 0x0, 0, 0⟩,
   ⟨0x09C, 4, 1, .ro, 0x0, 0x0, 0, 0⟩,
   ⟨0x100, 4, 64, .rw, 0x0, 0xFFFFFFFF, 0, 0⟩]

/-- The DBG page. -/
def rowsDbg : List RegRow :=
  [⟨0x080, 8, 1, .ro, 0x0, 0x0, 0, 0⟩,
   ⟨0x088, 8, 1, .ro, 0x0, 0x0, 0, 0⟩,
   ⟨0x090, 8, 1, .rw, 0x0, 0xFFFFFFFFFFFFFFFF, 0, 0⟩,
   ⟨0x098, 8, 4, .ro, 0x0, 0x0, 0, 0⟩,
   ⟨0x0B8, 4, 1, .ro, 0x0, 0x0, 0, 0⟩,
   ⟨0x0BC, 4, 1, .ro, 0x0, 0x0, 0, 0⟩,
   ⟨0x0C0, 8, 1, .rw, 0x0, 0xFFFFFFFFFFFFFFFF, 0, 0⟩]

/-- The HBR page. -/
def rowsHbr : List RegRow :=
  [⟨0x080, 4, 1, .ro, 0x0, 0x0, 0, 0⟩,
   ⟨0x084, 4, 1, .ro, 0x0, 0x0, 0, 0⟩,
   ⟨0x088, 4, 1, .w1c, 0x0, 0xFFFFFFFF, 0, 0⟩,
   ⟨0x08C, 4, 1, .ro, 0x0, 0x0, 0, 0⟩,
   ⟨0x090, 4, 1, .ro, 0x0, 0x0, 0, 0⟩,
   ⟨0x094, 4, 1, .ro, 0x0, 0x0, 0, 0⟩,
   ⟨0x098, 4, 1, .ro, 0x0, 0x0, 0, 0⟩,
   ⟨0x0A0, 8, 4, .ro, 0x0, 0x0, 0, 0⟩,
   ⟨0x0C0, 4, 1, .wo, 0x0, 0xFFFFFFFF, 0, 0⟩]

/-- The AGE page. -/
def rowsAge : List RegRow :=
  [⟨0x080, 4, 1, .ro, 0x0, 0x0, 0, 0⟩,
   ⟨0x084, 4, 1, .ro, 0x0, 0x0, 0, 0⟩,
   ⟨0x088, 4, 1, .ro, 0x0, 0x0, 0, 0⟩,
   ⟨0x08C, 4, 1, .ro, 0x0, 0x0, 0, 0⟩,
   ⟨0x090, 4, 1, .ro, 0x0, 0x0, 0, 0⟩,
   ⟨0x094, 4, 1, .ro, 0x0, 0x0, 0, 0⟩]

/-- The TILE page. -/
def rowsTile : List RegRow :=
  [⟨0x080, 4, 1, .ro, 0xFF0000, 0x0, 0, 0⟩,
   ⟨0x084, 4, 1, .ro, 0x0, 0x0, 0, 0⟩,
   ⟨0x088, 8, 1, .ro, 0x0, 0x0, 0, 0⟩,
   ⟨0x1C0, 4, 1, .ro, 0x0, 0x0, 0, 0⟩,
   ⟨0x1C4, 4, 1, .ro, 0x0, 0x0, 0, 0⟩,
   ⟨0x1C8, 4, 1, .ro, 0x0, 0x0, 0, 0⟩,
   ⟨0x1D0, 4, 1, .ro, 0x0, 0x0, 0, 0⟩,
   ⟨0x1D4, 4, 1, .ro, 0x0, 0x0, 0, 0⟩,
   ⟨0x1D8, 4, 1, .ro, 0x0, 0x0, 0, 0⟩,
   ⟨0x1DC, 4, 1, .ro, 0x0, 0x0, 0, 0⟩,
   ⟨0x1E0, 4, 1, .ro, 0x0, 0x0, 0, 0⟩]

/-- The VEC page. -/
def rowsVec : List RegRow :=
  [⟨0x1C0, 4, 1, .ro, 0x0, 0x0, 0, 0⟩,
   ⟨0x1C4, 4, 1, .ro, 0x0, 0x0, 0, 0⟩,
   ⟨0x1C8, 4, 1, .ro, 0x0, 0x0, 0, 0⟩,
   ⟨0x080, 4, 1, .ro, 0xFF0000, 0x0, 0, 0⟩,
   ⟨0x084, 4, 1, .ro, 0x0, 0x0, 0, 0⟩,
   ⟨0x088, 4, 1, .ro, 0x0, 0x0, 0, 0⟩,
   ⟨0x090, 8, 1, .ro, 0xFFFFFFFFFFFFFFFF, 0x0, 0, 0⟩,
   ⟨0x098, 8, 1, .ro, 0x0, 0x0, 0, 0⟩,
   ⟨0x0A0, 4, 1, .ro, 0x0, 0x0, 0, 0⟩]

/-- The SOLV page. -/
def rowsSolv : List RegRow :=
  [⟨0x080, 4, 1, .ro, 0xFF0000, 0x0, 0, 0⟩,
   ⟨0x084, 4, 1, .ro, 0x0, 0x0, 0, 0⟩,
   ⟨0x088, 4, 1, .ro, 0x0, 0x0, 0, 0⟩,
   ⟨0x090, 4, 1, .ro, 0x0, 0x0, 0, 0⟩,
   ⟨0x094, 4, 1, .ro, 0x0, 0x0, 0, 0⟩,
   ⟨0x098, 4, 1, .ro, 0x0, 0x0, 0, 0⟩,
   ⟨0x09C, 4, 1, .ro, 0x0, 0x0, 0, 0⟩,
   ⟨0x0A0, 4, 1, .ro, 0x0, 0x0, 0, 0⟩,
   ⟨0x0A4, 4, 1, .ro, 0x0, 0x0, 0, 0⟩,
   ⟨0x0A8, 4, 1, .ro, 0x0, 0x0, 0, 0⟩,
   ⟨0x0B0, 8, 1, .ro, 0x0, 0x0, 0, 0⟩]

/-- The ASM page. -/
def rowsAsm : List RegRow :=
  [⟨0x080, 4, 1, .ro, 0xFF0000, 0x0, 0, 0⟩,
   ⟨0x084, 4, 1, .ro, 0x0, 0x0, 0, 0⟩,
   ⟨0x088, 8, 1, .ro, 0x0, 0x0, 0, 0⟩,
   ⟨0x090, 4, 1, .ro, 0x0, 0x0, 0, 0⟩,
   ⟨0x094, 4, 1, .ro, 0x0, 0x0, 0, 0⟩,
   ⟨0x098, 8, 1, .ro, 0x0, 0x0, 0, 0⟩]

/-- The LLM page. -/
def rowsLlm : List RegRow :=
  [⟨0x080, 4, 1, .ro, 0x0, 0x0, 0, 0⟩,
   ⟨0x084, 4, 1, .ro, 0x0, 0x0, 0, 0⟩,
   ⟨0x088, 8, 1, .ro, 0x0, 0x0, 0, 0⟩,
   ⟨0x090, 8, 1, .ro, 0x0, 0x0, 0, 0⟩,
   ⟨0x098, 4, 1, .ro, 0x0, 0x0, 0, 0⟩,
   ⟨0x09C, 4, 1, .ro, 0x0, 0x0, 0, 0⟩]

/-- The CORE page. -/
def rowsCore : List RegRow :=
  [⟨0x080, 4, 1, .ro, 0xFF0000, 0x0, 0, 0⟩,
   ⟨0x084, 4, 1, .ro, 0x0, 0x0, 0, 0⟩,
   ⟨0x088, 8, 1, .ro, 0x0, 0x0, 0, 0⟩,
   ⟨0x090, 8, 1, .ro, 0x0, 0x0, 0, 0⟩,
   ⟨0x098, 4, 1, .ro, 0x0, 0x0, 0, 0⟩,
   ⟨0x09C, 4, 1, .ro, 0x0, 0x0, 0, 0⟩,
   ⟨0x0A0, 8, 1, .ro, 0x0, 0x0, 0, 0⟩,
   ⟨0x0A8, 4, 1, .ro, 0x0, 0x0, 0, 0⟩,
   ⟨0x0B0, 8, 1, .ro, 0x0, 0x0, 0, 0⟩]

/-- The PUNC page. -/
def rowsPunc : List RegRow :=
  [⟨0x080, 4, 1, .ro, 0x0, 0x0, 0, 0⟩,
   ⟨0x084, 4, 1, .ro, 0x210000, 0x0, 0, 0⟩,
   ⟨0x088, 4, 1, .ro, 0x0, 0x0, 0, 0⟩,
   ⟨0x090, 8, 1, .ro, 0x0, 0x0, 0, 0⟩,
   ⟨0x098, 8, 1, .ro, 0x0, 0x0, 0, 0⟩]

/-- The HBMC page. -/
def rowsHbmc : List RegRow :=
  [⟨0x080, 4, 1, .ro, 0x1F, 0x0, 0, 0⟩,
   ⟨0x084, 4, 1, .ro, 0x0, 0x0, 0, 0⟩,
   ⟨0x088, 4, 1, .rw, 0x18, 0xFFFFFFFF, 1, 168⟩,
   ⟨0x08C, 4, 1, .rw, 0x3E8, 0xFFFFFFFF, 1, 1000000⟩,
   ⟨0x090, 8, 1, .ro, 0x0, 0x0, 0, 0⟩,
   ⟨0x098, 4, 1, .ro, 0x0, 0x0, 0, 0⟩,
   ⟨0x0A0, 4, 1, .rw, 0x1, 0xFFFFFFFF, 1, 100⟩,
   ⟨0x0A4, 4, 1, .rw, 0x8, 0xFFFFFFFF, 2, 32⟩,
   ⟨0x100, 8, 32, .ro, 0x0, 0x0, 0, 0⟩]

/-- The HBMCH page. -/
def rowsHbmch : List RegRow :=
  [⟨0x080, 4, 1, .ro, 0x0, 0x0, 0, 0⟩,
   ⟨0x084, 4, 1, .ro, 0x0, 0x0, 0, 0⟩,
   ⟨0x088, 4, 1, .ro, 0x0, 0x0, 0, 0⟩,
   ⟨0x08C, 4, 1, .ro, 0x0, 0x0, 0, 0⟩,
   ⟨0x090, 4, 1, .ro, 0x0, 0x0, 0, 0⟩,
   ⟨0x0A0, 4, 1, .ro, 0x0, 0x0, 0, 0⟩,
   ⟨0x0A4, 4, 1, .ro, 0x0, 0x0, 0, 0⟩,
   ⟨0x0A8, 4, 1, .ro, 0x0, 0x0, 0, 0⟩,
   ⟨0x0AC, 4, 1, .ro, 0x0, 0x0, 0, 0⟩,
   ⟨0x0B0, 4, 1, .ro, 0x0, 0x0, 0, 0⟩,
   ⟨0x0B4, 4, 1, .ro, 0x0, 0x0, 0, 0⟩,
   ⟨0x0B8, 8, 1, .ro, 0x0, 0x0, 0, 0⟩]

/-- The MSA page. -/
def rowsMsa : List RegRow :=
  [⟨0x080, 4, 1, .ro, 0x0, 0x0, 0, 0⟩,
   ⟨0x088, 8, 1, .ro, 0x0, 0x0, 0, 0⟩,
   ⟨0x090, 4, 1, .ro, 0x0, 0x0, 0, 0⟩,
   ⟨0x094, 4, 1, .ro, 0x0, 0x0, 0, 0⟩,
   ⟨0x098, 4, 1, .ro, 0x0, 0x0, 0, 0⟩,
   ⟨0x09C, 4, 1, .ro, 0x0, 0x0, 0, 0⟩,
   ⟨0x100, 8, 64, .rw, 0x0, 0xFFFFFFFFFFFFFFFF, 0, 0⟩]

/-- The FPORT page. -/
def rowsFport : List RegRow :=
  [⟨0x080, 4, 1, .ro, 0x0, 0x0, 0, 0⟩,
   ⟨0x084, 4, 1, .ro, 0x0, 0x0, 0, 0⟩,
   ⟨0x088, 4, 1, .rw, 0x1000000, 0xFFFFFFFF, 65536, 1073741824⟩,
   ⟨0x08C, 4, 1, .ro, 0x0, 0x0, 0, 0⟩,
   ⟨0x090, 8, 1, .ro, 0x0, 0x0, 0, 0⟩,
   ⟨0x098, 4, 1, .ro, 0x0, 0x0, 0, 0⟩,
   ⟨0x09C, 4, 1, .ro, 0x0, 0x0, 0, 0⟩,
   ⟨0x0A0, 4, 1, .ro, 0x0, 0x0, 0, 0⟩,
   ⟨0x0A4, 4, 1, .ro, 0x0, 0x0, 0, 0⟩,
   ⟨0x0A8, 4, 1, .ro, 0x0, 0x0, 0, 0⟩,
   ⟨0x0AC, 4, 1, .wo, 0x0, 0x1, 0, 0⟩,
   ⟨0x0B0, 4, 4, .ro, 0x0, 0x0, 0, 0⟩,
   ⟨0x0C0, 8, 1, .ro, 0x0, 0x0, 0, 0⟩,
   ⟨0x0C8, 8, 1, .ro, 0x0, 0x0, 0, 0⟩,
   ⟨0x0D0, 4, 1, .ro, 0x0, 0x0, 0, 0⟩,
   ⟨0x0D4, 4, 1, .rw, 0x0, 0xFF003FFF, 0, 0⟩]

/-- The FSW page. -/
def rowsFsw : List RegRow :=
  [⟨0x080, 4, 1, .ro, 0x0, 0x0, 0, 0⟩,
   ⟨0x084, 4, 1, .rw, 0x400000, 0xFFFF0003, 0, 0⟩,
   ⟨0x088, 4, 1, .ro, 0x0, 0x0, 0, 0⟩,
   ⟨0x08C, 4, 1, .ro, 0x0, 0x0, 0, 0⟩,
   ⟨0x090, 4, 1, .ro, 0x0, 0x0, 0, 0⟩,
   ⟨0x094, 4, 1, .ro, 0x0, 0x0, 0, 0⟩,
   ⟨0x098, 4, 1, .rw, 0x0, 0xF000FFFF, 0, 0⟩,
   ⟨0x0A0, 8, 1, .rw, 0x0, 0xFFFFFFFFFFFFFFFF, 0, 0⟩,
   ⟨0x0A8, 4, 1, .ro, 0x0, 0x0, 0, 0⟩,
   ⟨0x100, 8, 32, .ro, 0x0, 0x0, 0, 0⟩]

/-- The PIAZ page. -/
def rowsPiaz : List RegRow :=
  [⟨0x080, 4, 1, .ro, 0x0, 0x0, 0, 0⟩,
   ⟨0x084, 4, 1, .ro, 0x8000, 0x0, 0, 0⟩,
   ⟨0x088, 4, 1, .ro, 0x0, 0x0, 0, 0⟩,
   ⟨0x08C, 4, 1, .ro, 0x0, 0x0, 0, 0⟩,
   ⟨0x090, 4, 1, .ro, 0x0, 0x0, 0, 0⟩,
   ⟨0x094, 4, 1, .ro, 0x0, 0x0, 0, 0⟩,
   ⟨0x098, 4, 1, .ro, 0x0, 0x0, 0, 0⟩,
   ⟨0x09C, 4, 1, .ro, 0x0, 0x0, 0, 0⟩,
   ⟨0x0A0, 8, 1, .ro, 0x0, 0x0, 0, 0⟩,
   ⟨0x0A8, 8, 1, .ro, 0x0, 0x0, 0, 0⟩,
   ⟨0x0B0, 8, 1, .ro, 0x0, 0x0, 0, 0⟩,
   ⟨0x0B8, 4, 1, .ro, 0x0, 0x0, 0, 0⟩,
   ⟨0x0C0, 8, 1, .rw, 0x0, 0xFFFFFFFFFFF, 0, 0⟩,
   ⟨0x0C8, 4, 1, .rw, 0x0, 0xFFFFFFFF, 0, 0⟩,
   ⟨0x0CC, 4, 1, .rw, 0x0, 0xFFFFFFFF, 0, 0⟩,
   ⟨0x0D0, 4, 1, .rw, 0x0, 0xFFFFFFFF, 0, 0⟩]

/-- The FXP page. -/
def rowsFxp : List RegRow :=
  [⟨0x080, 4, 1, .ro, 0x0, 0x0, 0, 0⟩,
   ⟨0x084, 4, 1, .ro, 0x0, 0x0, 0, 0⟩,
   ⟨0x088, 4, 1, .rw, 0x14, 0xFFFFFFFF, 1, 1000⟩,
   ⟨0x08C, 4, 1, .ro, 0x0, 0x0, 0, 0⟩,
   ⟨0x090, 4, 1, .ro, 0x0, 0x0, 0, 0⟩,
   ⟨0x094, 4, 1, .ro, 0x0, 0x0, 0, 0⟩,
   ⟨0x098, 4, 1, .ro, 0x0, 0x0, 0, 0⟩,
   ⟨0x09C, 4, 1, .ro, 0x0, 0x0, 0, 0⟩,
   ⟨0x0A0, 4, 1, .ro, 0x0, 0x0, 0, 0⟩,
   ⟨0x0A4, 4, 1, .ro, 0x0, 0x0, 0, 0⟩,
   ⟨0x0A8, 4, 1, .ro, 0x0, 0x0, 0, 0⟩,
   ⟨0x0AC, 4, 1, .ro, 0x0, 0x0, 0, 0⟩,
   ⟨0x0B0, 4, 1, .ro, 0x0, 0x0, 0, 0⟩,
   ⟨0x0B4, 4, 1, .ro, 0x0, 0x0, 0, 0⟩,
   ⟨0x0BC, 4, 1, .ro, 0x0, 0x0, 0, 0⟩,
   ⟨0x0B8, 4, 1, .rw, 0x0, 0xBFFF, 0, 0⟩,
   ⟨0x0C0, 8, 1, .ro, 0x0, 0x0, 0, 0⟩,
   ⟨0x0C8, 8, 1, .ro, 0x0, 0x0, 0, 0⟩,
   ⟨0x0D0, 4, 16, .ro, 0x0, 0x0, 0, 0⟩,
   ⟨0x200, 8, 64, .rw, 0x0, 0xFFFFFFFFFFFFFFFF, 0, 0⟩]

/-- The registers of a type below and above the header (R364). -/
def pageRows : Nat → List RegRow
  | 0x00 => rowsNode
  | 0x01 => rowsAon
  | 0x02 => rowsClk
  | 0x03 => rowsPwr
  | 0x04 => rowsThm
  | 0x05 => rowsSec
  | 0x06 => rowsLcy
  | 0x07 => rowsFwp
  | 0x08 => rowsSch
  | 0x09 => rowsHif
  | 0x0A => rowsCfgf
  | 0x0B => rowsDbg
  | 0x0C => rowsHbr
  | 0x0D => rowsAge
  | 0x10 => rowsTile
  | 0x11 => rowsVec
  | 0x12 => rowsSolv
  | 0x13 => rowsAsm
  | 0x14 => rowsLlm
  | 0x15 => rowsCore
  | 0x16 => rowsPunc
  | 0x18 => rowsHbmc
  | 0x19 => rowsHbmch
  | 0x1A => rowsMsa
  | 0x1C => rowsFport
  | 0x1D => rowsFsw
  | 0x1E => rowsPiaz
  | 0x1F => rowsFxp
  | _ => []

/-! ### The registers by name -/

/-- NODE page, offset 0x080. -/
abbrev rNodeId : Reg := ⟨0x00, 0x080⟩

/-- NODE page, offset 0x088. -/
abbrev rNodeStat : Reg := ⟨0x00, 0x088⟩

/-- NODE page, offset 0x08C. -/
abbrev rNodeIntSum : Reg := ⟨0x00, 0x08C⟩

/-- NODE page, offset 0x084. -/
abbrev rNodePart : Reg := ⟨0x00, 0x084⟩

/-- NODE page, offset 0x090. -/
abbrev rNumFprint : Reg := ⟨0x00, 0x090⟩

/-- NODE page, offset 0x100. -/
abbrev rNodeBgrp : Reg := ⟨0x00, 0x100⟩

/-- AON page, offset 0x080. -/
abbrev rAonStrap : Reg := ⟨0x01, 0x080⟩

/-- AON page, offset 0x084. -/
abbrev rAonPoh : Reg := ⟨0x01, 0x084⟩

/-- AON page, offset 0x100. -/
abbrev rAonResetCause : Reg := ⟨0x01, 0x100⟩

/-- AON page, offset 0x104. -/
abbrev rAonBootStat : Reg := ⟨0x01, 0x104⟩

/-- AON page, offset 0x108. -/
abbrev rAonBootMs : Reg := ⟨0x01, 0x108⟩

/-- AON page, offset 0x110. -/
abbrev rAonIoCtrl : Reg := ⟨0x01, 0x110⟩

/-- CLK page, offset 0x080. -/
abbrev rClkState : Reg := ⟨0x02, 0x080⟩

/-- CLK page, offset 0x088. -/
abbrev rClkRefStat : Reg := ⟨0x02, 0x088⟩

/-- CLK page, offset 0x100. -/
abbrev rClkFreq : Reg := ⟨0x02, 0x100⟩

/-- PWR page, offset 0x080. -/
abbrev rPwrStat : Reg := ⟨0x03, 0x080⟩

/-- PWR page, offset 0x084. -/
abbrev rPwrLimit : Reg := ⟨0x03, 0x084⟩

/-- PWR page, offset 0x088. -/
abbrev rPwrNodePower : Reg := ⟨0x03, 0x088⟩

/-- PWR page, offset 0x08C. -/
abbrev rPwrWakeReq : Reg := ⟨0x03, 0x08C⟩

/-- PWR page, offset 0x090. -/
abbrev rPwrWakeDefer : Reg := ⟨0x03, 0x090⟩

/-- PWR page, offset 0x094. -/
abbrev rPwrDeferMax : Reg := ⟨0x03, 0x094⟩

/-- PWR page, offset 0x098. -/
abbrev rPwrPredMiss : Reg := ⟨0x03, 0x098⟩

/-- PWR page, offset 0x09C. -/
abbrev rPwrClamps : Reg := ⟨0x03, 0x09C⟩

/-- PWR page, offset 0x0A0. -/
abbrev rPwrThrottle : Reg := ⟨0x03, 0x0A0⟩

/-- PWR page, offset 0x100. -/
abbrev rPwrRail : Reg := ⟨0x03, 0x100⟩

/-- PWR page, offset 0x180. -/
abbrev rPwrBudget : Reg := ⟨0x03, 0x180⟩

/-- THM page, offset 0x080. -/
abbrev rThmStat : Reg := ⟨0x04, 0x080⟩

/-- THM page, offset 0x084. -/
abbrev rThmTmax : Reg := ⟨0x04, 0x084⟩

/-- THM page, offset 0x088. -/
abbrev rThmTarget : Reg := ⟨0x04, 0x088⟩

/-- THM page, offset 0x08C. -/
abbrev rThmClamps : Reg := ⟨0x04, 0x08C⟩

/-- THM page, offset 0x090. -/
abbrev rThmHbmMax : Reg := ⟨0x04, 0x090⟩

/-- THM page, offset 0x094. -/
abbrev rThmTripLast : Reg := ⟨0x04, 0x094⟩

/-- THM page, offset 0x100. -/
abbrev rThmSensor : Reg := ⟨0x04, 0x100⟩

/-- LCY page, offset 0x080. -/
abbrev rLcyStat : Reg := ⟨0x06, 0x080⟩

/-- LCY page, offset 0x084. -/
abbrev rLcyReq : Reg := ⟨0x06, 0x084⟩

/-- LCY page, offset 0x088. -/
abbrev rLcyPresence : Reg := ⟨0x06, 0x088⟩

/-- LCY page, offset 0x08C. -/
abbrev rLcySealOpens : Reg := ⟨0x06, 0x08C⟩

/-- LCY page, offset 0x090. -/
abbrev rLcyLast : Reg := ⟨0x06, 0x090⟩

/-- SEC page, offset 0x080. -/
abbrev rSecStat : Reg := ⟨0x05, 0x080⟩

/-- SEC page, offset 0x084. -/
abbrev rSecCmd : Reg := ⟨0x05, 0x084⟩

/-- SEC page, offset 0x088. -/
abbrev rSecRsp : Reg := ⟨0x05, 0x088⟩

/-- SEC page, offset 0x090. -/
abbrev rSecXferHost : Reg := ⟨0x05, 0x090⟩

/-- SEC page, offset 0x098. -/
abbrev rSecXferLocal : Reg := ⟨0x05, 0x098⟩

/-- SEC page, offset 0x0A0. -/
abbrev rSecXferLen : Reg := ⟨0x05, 0x0A0⟩

/-- SEC page, offset 0x0A8. -/
abbrev rSecXferCtrl : Reg := ⟨0x05, 0x0A8⟩

/-- SEC page, offset 0x0AC. -/
abbrev rSecXferStat : Reg := ⟨0x05, 0x0AC⟩

/-- SEC page, offset 0x0B0. -/
abbrev rSecXferBytes : Reg := ⟨0x05, 0x0B0⟩

/-- SEC page, offset 0x0B8. -/
abbrev rSecXferNo : Reg := ⟨0x05, 0x0B8⟩

/-- SEC page, offset 0x0BC. -/
abbrev rSecReadoutNo : Reg := ⟨0x05, 0x0BC⟩

/-- SEC page, offset 0x100. -/
abbrev rSecRegion : Reg := ⟨0x05, 0x100⟩

/-- FWP page, offset 0x080. -/
abbrev rFwpStat : Reg := ⟨0x07, 0x080⟩

/-- FWP page, offset 0x088. -/
abbrev rFwpLoadHost : Reg := ⟨0x07, 0x088⟩

/-- FWP page, offset 0x090. -/
abbrev rFwpLoadLen : Reg := ⟨0x07, 0x090⟩

/-- FWP page, offset 0x094. -/
abbrev rFwpLoadCtrl : Reg := ⟨0x07, 0x094⟩

/-- FWP page, offset 0x098. -/
abbrev rFwpWdogMs : Reg := ⟨0x07, 0x098⟩

/-- FWP page, offset 0x09C. -/
abbrev rFwpWdogLeft : Reg := ⟨0x07, 0x09C⟩

/-- FWP page, offset 0x0A0. -/
abbrev rFwpImageVer : Reg := ⟨0x07, 0x0A0⟩

/-- FWP page, offset 0x0A4. -/
abbrev rFwpRestarts : Reg := ⟨0x07, 0x0A4⟩

/-- FWP page, offset 0x0A8. -/
abbrev rFwpLastCause : Reg := ⟨0x07, 0x0A8⟩

/-- FWP page, offset 0x0B0. -/
abbrev rFwpMeasure : Reg := ⟨0x07, 0x0B0⟩

/-- SCH page, offset 0x080. -/
abbrev rSchState : Reg := ⟨0x08, 0x080⟩

/-- SCH page, offset 0x084. -/
abbrev rSchSegDone : Reg := ⟨0x08, 0x084⟩

/-- SCH page, offset 0x088. -/
abbrev rSchStep : Reg := ⟨0x08, 0x088⟩

/-- SCH page, offset 0x090. -/
abbrev rSchHoldAt : Reg := ⟨0x08, 0x090⟩

/-- SCH page, offset 0x098. -/
abbrev rSchRunLeft : Reg := ⟨0x08, 0x098⟩

/-- SCH page, offset 0x0A0. -/
abbrev rSchStopAt : Reg := ⟨0x08, 0x0A0⟩

/-- SCH page, offset 0x0A8. -/
abbrev rSchBal : Reg := ⟨0x08, 0x0A8⟩

/-- SCH page, offset 0x0B0. -/
abbrev rSchHb : Reg := ⟨0x08, 0x0B0⟩

/-- SCH page, offset 0x0B4. -/
abbrev rSchHbLimit : Reg := ⟨0x08, 0x0B4⟩

/-- SCH page, offset 0x0B8. -/
abbrev rSchHbAge : Reg := ⟨0x08, 0x0B8⟩

/-- SCH page, offset 0x0C0. -/
abbrev rSchJobStat : Reg := ⟨0x08, 0x0C0⟩

/-- SCH page, offset 0x0C8. -/
abbrev rSchEvtCtrl : Reg := ⟨0x08, 0x0C8⟩

/-- SCH page, offset 0x0CC. -/
abbrev rSchEvtStat : Reg := ⟨0x08, 0x0CC⟩

/-- SCH page, offset 0x0D0. -/
abbrev rSchEvt : Reg := ⟨0x08, 0x0D0⟩

/-- SCH page, offset 0x0E0. -/
abbrev rSchEvtPop : Reg := ⟨0x08, 0x0E0⟩

/-- SCH page, offset 0x0E8. -/
abbrev rSchSeedValid : Reg := ⟨0x08, 0x0E8⟩

/-- SCH page, offset 0x100. -/
abbrev rSchSeed : Reg := ⟨0x08, 0x100⟩

/-- SCH page, offset 0x200. -/
abbrev rSchCkptStat : Reg := ⟨0x08, 0x200⟩

/-- SCH page, offset 0x208. -/
abbrev rSchCkptDest : Reg := ⟨0x08, 0x208⟩

/-- SCH page, offset 0x210. -/
abbrev rSchCkptLast : Reg := ⟨0x08, 0x210⟩

/-- SCH page, offset 0x218. -/
abbrev rSchCkptCommit : Reg := ⟨0x08, 0x218⟩

/-- SCH page, offset 0x220. -/
abbrev rSchCkptTimeout : Reg := ⟨0x08, 0x220⟩

/-- SCH page, offset 0x224. -/
abbrev rSchCkptFails : Reg := ⟨0x08, 0x224⟩

/-- SCH page, offset 0x228. -/
abbrev rSchCkptBytes : Reg := ⟨0x08, 0x228⟩

/-- HIF page, offset 0x080. -/
abbrev rHifCmd : Reg := ⟨0x09, 0x080⟩

/-- HIF page, offset 0x088. -/
abbrev rHifArg : Reg := ⟨0x09, 0x088⟩

/-- HIF page, offset 0x0C8. -/
abbrev rHifRsp : Reg := ⟨0x09, 0x0C8⟩

/-- HIF page, offset 0x0D0. -/
abbrev rHifStat : Reg := ⟨0x09, 0x0D0⟩

/-- CFGF page, offset 0x080. -/
abbrev rCfgfStat : Reg := ⟨0x0A, 0x080⟩

/-- CFGF page, offset 0x084. -/
abbrev rCfgfSize : Reg := ⟨0x0A, 0x084⟩

/-- CFGF page, offset 0x088. -/
abbrev rCfgfAddr : Reg := ⟨0x0A, 0x088⟩

/-- CFGF page, offset 0x08C. -/
abbrev rCfgfLen : Reg := ⟨0x0A, 0x08C⟩

/-- CFGF page, offset 0x090. -/
abbrev rCfgfCtrl : Reg := ⟨0x0A, 0x090⟩

/-- CFGF page, offset 0x094. -/
abbrev rCfgfActive : Reg := ⟨0x0A, 0x094⟩

/-- CFGF page, offset 0x098. -/
abbrev rCfgfGen : Reg := ⟨0x0A, 0x098⟩

/-- CFGF page, offset 0x09C. -/
abbrev rCfgfRecDef : Reg := ⟨0x0A, 0x09C⟩

/-- CFGF page, offset 0x100. -/
abbrev rCfgfData : Reg := ⟨0x0A, 0x100⟩

/-- DBG page, offset 0x080. -/
abbrev rDbgLogHead : Reg := ⟨0x0B, 0x080⟩

/-- DBG page, offset 0x088. -/
abbrev rDbgLogTail : Reg := ⟨0x0B, 0x088⟩

/-- DBG page, offset 0x090. -/
abbrev rDbgLogSel : Reg := ⟨0x0B, 0x090⟩

/-- DBG page, offset 0x098. -/
abbrev rDbgLogData : Reg := ⟨0x0B, 0x098⟩

/-- DBG page, offset 0x0B8. -/
abbrev rDbgLogDrop : Reg := ⟨0x0B, 0x0B8⟩

/-- DBG page, offset 0x0BC. -/
abbrev rDbgLogOverwr : Reg := ⟨0x0B, 0x0BC⟩

/-- DBG page, offset 0x0C0. -/
abbrev rDbgTraceEn : Reg := ⟨0x0B, 0x0C0⟩

/-- HBR page, offset 0x080. -/
abbrev rHbrStat : Reg := ⟨0x0C, 0x080⟩

/-- HBR page, offset 0x084. -/
abbrev rHbrRole : Reg := ⟨0x0C, 0x084⟩

/-- HBR page, offset 0x088. -/
abbrev rHbrPend : Reg := ⟨0x0C, 0x088⟩

/-- HBR page, offset 0x08C. -/
abbrev rHbrRelayErr : Reg := ⟨0x0C, 0x08C⟩

/-- HBR page, offset 0x090. -/
abbrev rHbrRelayLast : Reg := ⟨0x0C, 0x090⟩

/-- HBR page, offset 0x094. -/
abbrev rHbrRptLost : Reg := ⟨0x0C, 0x094⟩

/-- HBR page, offset 0x098. -/
abbrev rHbrRptCount : Reg := ⟨0x0C, 0x098⟩

/-- HBR page, offset 0x0A0. -/
abbrev rHbrRpt : Reg := ⟨0x0C, 0x0A0⟩

/-- HBR page, offset 0x0C0. -/
abbrev rHbrRptPop : Reg := ⟨0x0C, 0x0C0⟩

/-- AGE page, offset 0x080. -/
abbrev rAgeStat : Reg := ⟨0x0D, 0x080⟩

/-- AGE page, offset 0x084. -/
abbrev rAgeDelay : Reg := ⟨0x0D, 0x084⟩

/-- AGE page, offset 0x088. -/
abbrev rAgeMargin : Reg := ⟨0x0D, 0x088⟩

/-- AGE page, offset 0x08C. -/
abbrev rAgeBase : Reg := ⟨0x0D, 0x08C⟩

/-- AGE page, offset 0x090. -/
abbrev rAgeGb : Reg := ⟨0x0D, 0x090⟩

/-- AGE page, offset 0x094. -/
abbrev rAgeSamples : Reg := ⟨0x0D, 0x094⟩

/-- TILE page, offset 0x080. -/
abbrev rTileStat : Reg := ⟨0x10, 0x080⟩

/-- TILE page, offset 0x084. -/
abbrev rTileCmdDone : Reg := ⟨0x10, 0x084⟩

/-- TILE page, offset 0x088. -/
abbrev rTileBusyCyc : Reg := ⟨0x10, 0x088⟩

/-- TILE page, offset 0x1C0. -/
abbrev rTileConvSat : Reg := ⟨0x10, 0x1C0⟩

/-- TILE page, offset 0x1C4. -/
abbrev rTileConvNan : Reg := ⟨0x10, 0x1C4⟩

/-- TILE page, offset 0x1C8. -/
abbrev rTileConvRloss : Reg := ⟨0x10, 0x1C8⟩

/-- VEC page, offset 0x1C0. -/
abbrev rVecConvSat : Reg := ⟨0x11, 0x1C0⟩

/-- VEC page, offset 0x1C4. -/
abbrev rVecConvNan : Reg := ⟨0x11, 0x1C4⟩

/-- VEC page, offset 0x1C8. -/
abbrev rVecConvRloss : Reg := ⟨0x11, 0x1C8⟩

/-- TILE page, offset 0x1D0. -/
abbrev rWnRloss : Reg := ⟨0x10, 0x1D0⟩

/-- TILE page, offset 0x1D4. -/
abbrev rWnSat : Reg := ⟨0x10, 0x1D4⟩

/-- TILE page, offset 0x1D8. -/
abbrev rWnOvf : Reg := ⟨0x10, 0x1D8⟩

/-- TILE page, offset 0x1DC. -/
abbrev rWnSpecial : Reg := ⟨0x10, 0x1DC⟩

/-- TILE page, offset 0x1E0. -/
abbrev rAccWrap : Reg := ⟨0x10, 0x1E0⟩

/-- VEC page, offset 0x080. -/
abbrev rVecStat : Reg := ⟨0x11, 0x080⟩

/-- VEC page, offset 0x084. -/
abbrev rVecInstrDone : Reg := ⟨0x11, 0x084⟩

/-- VEC page, offset 0x088. -/
abbrev rVecHalfStat : Reg := ⟨0x11, 0x088⟩

/-- VEC page, offset 0x090. -/
abbrev rVecFillNext : Reg := ⟨0x11, 0x090⟩

/-- VEC page, offset 0x098. -/
abbrev rVecBusyCyc : Reg := ⟨0x11, 0x098⟩

/-- VEC page, offset 0x0A0. -/
abbrev rVecInvalid : Reg := ⟨0x11, 0x0A0⟩

/-- SOLV page, offset 0x080. -/
abbrev rSolvStat : Reg := ⟨0x12, 0x080⟩

/-- SOLV page, offset 0x084. -/
abbrev rSolvCmdDone : Reg := ⟨0x12, 0x084⟩

/-- SOLV page, offset 0x088. -/
abbrev rSolvTaskDone : Reg := ⟨0x12, 0x088⟩

/-- SOLV page, offset 0x090. -/
abbrev rSolvPivTiny : Reg := ⟨0x12, 0x090⟩

/-- SOLV page, offset 0x094. -/
abbrev rSolvPivZero : Reg := ⟨0x12, 0x094⟩

/-- SOLV page, offset 0x098. -/
abbrev rSolvPivGrowth : Reg := ⟨0x12, 0x098⟩

/-- SOLV page, offset 0x09C. -/
abbrev rSolvNonfinite : Reg := ⟨0x12, 0x09C⟩

/-- SOLV page, offset 0x0A0. -/
abbrev rSolvRepLost : Reg := ⟨0x12, 0x0A0⟩

/-- SOLV page, offset 0x0A4. -/
abbrev rSolvWarmRej : Reg := ⟨0x12, 0x0A4⟩

/-- SOLV page, offset 0x0A8. -/
abbrev rSolvSkipped : Reg := ⟨0x12, 0x0A8⟩

/-- SOLV page, offset 0x0B0. -/
abbrev rSolvBusyCyc : Reg := ⟨0x12, 0x0B0⟩

/-- ASM page, offset 0x080. -/
abbrev rAsmStat : Reg := ⟨0x13, 0x080⟩

/-- ASM page, offset 0x084. -/
abbrev rAsmInstrDone : Reg := ⟨0x13, 0x084⟩

/-- ASM page, offset 0x088. -/
abbrev rAsmEntries : Reg := ⟨0x13, 0x088⟩

/-- ASM page, offset 0x090. -/
abbrev rAsmOor : Reg := ⟨0x13, 0x090⟩

/-- ASM page, offset 0x094. -/
abbrev rAsmInvalid : Reg := ⟨0x13, 0x094⟩

/-- ASM page, offset 0x098. -/
abbrev rAsmBusyCyc : Reg := ⟨0x13, 0x098⟩

/-- LLM page, offset 0x080. -/
abbrev rLlmStat : Reg := ⟨0x14, 0x080⟩

/-- LLM page, offset 0x084. -/
abbrev rLlmRegMode : Reg := ⟨0x14, 0x084⟩

/-- LLM page, offset 0x088. -/
abbrev rLlmHit : Reg := ⟨0x14, 0x088⟩

/-- LLM page, offset 0x090. -/
abbrev rLlmMiss : Reg := ⟨0x14, 0x090⟩

/-- LLM page, offset 0x098. -/
abbrev rLlmCe : Reg := ⟨0x14, 0x098⟩

/-- LLM page, offset 0x09C. -/
abbrev rLlmUe : Reg := ⟨0x14, 0x09C⟩

/-- CORE page, offset 0x080. -/
abbrev rCoreStat : Reg := ⟨0x15, 0x080⟩

/-- CORE page, offset 0x084. -/
abbrev rCoreThrStat : Reg := ⟨0x15, 0x084⟩

/-- CORE page, offset 0x088. -/
abbrev rCoreFaultPc : Reg := ⟨0x15, 0x088⟩

/-- CORE page, offset 0x090. -/
abbrev rCoreFaultAddr : Reg := ⟨0x15, 0x090⟩

/-- CORE page, offset 0x098. -/
abbrev rCoreFaultInfo : Reg := ⟨0x15, 0x098⟩

/-- CORE page, offset 0x09C. -/
abbrev rCoreFaults : Reg := ⟨0x15, 0x09C⟩

/-- CORE page, offset 0x0A0. -/
abbrev rCoreRemoteReq : Reg := ⟨0x15, 0x0A0⟩

/-- CORE page, offset 0x0A8. -/
abbrev rCoreTagWait : Reg := ⟨0x15, 0x0A8⟩

/-- CORE page, offset 0x0B0. -/
abbrev rCoreBusyCyc : Reg := ⟨0x15, 0x0B0⟩

/-- PUNC page, offset 0x080. -/
abbrev rPuncStat : Reg := ⟨0x16, 0x080⟩

/-- PUNC page, offset 0x084. -/
abbrev rPuncDirCap : Reg := ⟨0x16, 0x084⟩

/-- PUNC page, offset 0x088. -/
abbrev rPuncDirUsed : Reg := ⟨0x16, 0x088⟩

/-- PUNC page, offset 0x090. -/
abbrev rPuncDirMiss : Reg := ⟨0x16, 0x090⟩

/-- PUNC page, offset 0x098. -/
abbrev rPuncDirInval : Reg := ⟨0x16, 0x098⟩

/-- HBMC page, offset 0x080. -/
abbrev rHbmcMap : Reg := ⟨0x18, 0x080⟩

/-- HBMC page, offset 0x084. -/
abbrev rHbmcStat : Reg := ⟨0x18, 0x084⟩

/-- HBMC page, offset 0x088. -/
abbrev rHbmcScrubPeriod : Reg := ⟨0x18, 0x088⟩

/-- HBMC page, offset 0x08C. -/
abbrev rHbmcCeLimit : Reg := ⟨0x18, 0x08C⟩

/-- HBMC page, offset 0x090. -/
abbrev rHbmcScrubPos : Reg := ⟨0x18, 0x090⟩

/-- HBMC page, offset 0x098. -/
abbrev rHbmcXtsDeny : Reg := ⟨0x18, 0x098⟩

/-- HBMC page, offset 0x0A0. -/
abbrev rHbmcSliceInterval : Reg := ⟨0x18, 0x0A0⟩

/-- HBMC page, offset 0x0A4. -/
abbrev rHbmcDriftLimit : Reg := ⟨0x18, 0x0A4⟩

/-- HBMC page, offset 0x100. -/
abbrev rHbmcXtsReg : Reg := ⟨0x18, 0x100⟩

/-- HBMCH page, offset 0x080. -/
abbrev rHbmchStat : Reg := ⟨0x19, 0x080⟩

/-- HBMCH page, offset 0x084. -/
abbrev rHbmchCe : Reg := ⟨0x19, 0x084⟩

/-- HBMCH page, offset 0x088. -/
abbrev rHbmchUe : Reg := ⟨0x19, 0x088⟩

/-- HBMCH page, offset 0x08C. -/
abbrev rHbmchCeRate : Reg := ⟨0x19, 0x08C⟩

/-- HBMCH page, offset 0x090. -/
abbrev rHbmchPoisonRd : Reg := ⟨0x19, 0x090⟩

/-- HBMCH page, offset 0x0A0. -/
abbrev rHbmchCalStat : Reg := ⟨0x19, 0x0A0⟩

/-- HBMCH page, offset 0x0A4. -/
abbrev rHbmchSlices : Reg := ⟨0x19, 0x0A4⟩

/-- HBMCH page, offset 0x0A8. -/
abbrev rHbmchRetrains : Reg := ⟨0x19, 0x0A8⟩

/-- HBMCH page, offset 0x0AC. -/
abbrev rHbmchAlleyLines : Reg := ⟨0x19, 0x0AC⟩

/-- HBMCH page, offset 0x0B0. -/
abbrev rHbmchAlleyFull : Reg := ⟨0x19, 0x0B0⟩

/-- HBMCH page, offset 0x0B4. -/
abbrev rHbmchWaitMax : Reg := ⟨0x19, 0x0B4⟩

/-- HBMCH page, offset 0x0B8. -/
abbrev rHbmchEvacPos : Reg := ⟨0x19, 0x0B8⟩

/-- MSA page, offset 0x080. -/
abbrev rMsaStat : Reg := ⟨0x1A, 0x080⟩

/-- MSA page, offset 0x088. -/
abbrev rMsaAtomics : Reg := ⟨0x1A, 0x088⟩

/-- MSA page, offset 0x090. -/
abbrev rMsaOrdFull : Reg := ⟨0x1A, 0x090⟩

/-- MSA page, offset 0x094. -/
abbrev rMsaLogUsed : Reg := ⟨0x1A, 0x094⟩

/-- MSA page, offset 0x098. -/
abbrev rMsaFolds : Reg := ⟨0x1A, 0x098⟩

/-- MSA page, offset 0x09C. -/
abbrev rMsaLaccSpecial : Reg := ⟨0x1A, 0x09C⟩

/-- MSA page, offset 0x100. -/
abbrev rMsaOreg : Reg := ⟨0x1A, 0x100⟩

/-- FPORT page, offset 0x080. -/
abbrev rFportStat : Reg := ⟨0x1C, 0x080⟩

/-- FPORT page, offset 0x084. -/
abbrev rFportPartner : Reg := ⟨0x1C, 0x084⟩

/-- FPORT page, offset 0x088. -/
abbrev rFportFecLimit : Reg := ⟨0x1C, 0x088⟩

/-- FPORT page, offset 0x08C. -/
abbrev rFportFecRate : Reg := ⟨0x1C, 0x08C⟩

/-- FPORT page, offset 0x090. -/
abbrev rFportFecCorr : Reg := ⟨0x1C, 0x090⟩

/-- FPORT page, offset 0x098. -/
abbrev rFportFecUncorr : Reg := ⟨0x1C, 0x098⟩

/-- FPORT page, offset 0x09C. -/
abbrev rFportReplays : Reg := ⟨0x1C, 0x09C⟩

/-- FPORT page, offset 0x0A0. -/
abbrev rFportAuthFail : Reg := ⟨0x1C, 0x0A0⟩

/-- FPORT page, offset 0x0A4. -/
abbrev rFportRetunes : Reg := ⟨0x1C, 0x0A4⟩

/-- FPORT page, offset 0x0A8. -/
abbrev rFportDowns : Reg := ⟨0x1C, 0x0A8⟩

/-- FPORT page, offset 0x0AC. -/
abbrev rFportCtrl : Reg := ⟨0x1C, 0x0AC⟩

/-- FPORT page, offset 0x0B0. -/
abbrev rFportRxPwr : Reg := ⟨0x1C, 0x0B0⟩

/-- FPORT page, offset 0x0C0. -/
abbrev rFportTxBlocks : Reg := ⟨0x1C, 0x0C0⟩

/-- FPORT page, offset 0x0C8. -/
abbrev rFportRxBlocks : Reg := ⟨0x1C, 0x0C8⟩

/-- FPORT page, offset 0x0D0. -/
abbrev rFportCreditStall : Reg := ⟨0x1C, 0x0D0⟩

/-- FPORT page, offset 0x0D4. -/
abbrev rFportExpect : Reg := ⟨0x1C, 0x0D4⟩

/-- FSW page, offset 0x080. -/
abbrev rFswStat : Reg := ⟨0x1D, 0x080⟩

/-- FSW page, offset 0x084. -/
abbrev rFswRouteCtrl : Reg := ⟨0x1D, 0x084⟩

/-- FSW page, offset 0x088. -/
abbrev rFswId : Reg := ⟨0x1D, 0x088⟩

/-- FSW page, offset 0x08C. -/
abbrev rFswDiscard : Reg := ⟨0x1D, 0x08C⟩

/-- FSW page, offset 0x090. -/
abbrev rFswUnreach : Reg := ⟨0x1D, 0x090⟩

/-- FSW page, offset 0x094. -/
abbrev rFswReroute : Reg := ⟨0x1D, 0x094⟩

/-- FSW page, offset 0x098. -/
abbrev rFswTblSel : Reg := ⟨0x1D, 0x098⟩

/-- FSW page, offset 0x0A0. -/
abbrev rFswTblData : Reg := ⟨0x1D, 0x0A0⟩

/-- FSW page, offset 0x0A8. -/
abbrev rFswLaser : Reg := ⟨0x1D, 0x0A8⟩

/-- FSW page, offset 0x100. -/
abbrev rFswGroupUp : Reg := ⟨0x1D, 0x100⟩

/-- PIAZ page, offset 0x080. -/
abbrev rPiazStat : Reg := ⟨0x1E, 0x080⟩

/-- PIAZ page, offset 0x084. -/
abbrev rPiazCredits : Reg := ⟨0x1E, 0x084⟩

/-- PIAZ page, offset 0x088. -/
abbrev rPiazSlots : Reg := ⟨0x1E, 0x088⟩

/-- PIAZ page, offset 0x08C. -/
abbrev rPiazKerbUsed : Reg := ⟨0x1E, 0x08C⟩

/-- PIAZ page, offset 0x090. -/
abbrev rPiazFallbacks : Reg := ⟨0x1E, 0x090⟩

/-- PIAZ page, offset 0x094. -/
abbrev rPiazStalls : Reg := ⟨0x1E, 0x094⟩

/-- PIAZ page, offset 0x098. -/
abbrev rPiazHraWait : Reg := ⟨0x1E, 0x098⟩

/-- PIAZ page, offset 0x09C. -/
abbrev rPiazFailed : Reg := ⟨0x1E, 0x09C⟩

/-- PIAZ page, offset 0x0A0. -/
abbrev rPiazStallOwed : Reg := ⟨0x1E, 0x0A0⟩

/-- PIAZ page, offset 0x0A8. -/
abbrev rPiazStallAwait : Reg := ⟨0x1E, 0x0A8⟩

/-- PIAZ page, offset 0x0B0. -/
abbrev rPiazFoldBytes : Reg := ⟨0x1E, 0x0B0⟩

/-- PIAZ page, offset 0x0B8. -/
abbrev rPiazResultErr : Reg := ⟨0x1E, 0x0B8⟩

/-- PIAZ page, offset 0x0C0. -/
abbrev rPiazHraBase : Reg := ⟨0x1E, 0x0C0⟩

/-- PIAZ page, offset 0x0C8. -/
abbrev rPiazHraRes : Reg := ⟨0x1E, 0x0C8⟩

/-- PIAZ page, offset 0x0CC. -/
abbrev rPiazHraLog : Reg := ⟨0x1E, 0x0CC⟩

/-- PIAZ page, offset 0x0D0. -/
abbrev rPiazHraStg : Reg := ⟨0x1E, 0x0D0⟩

/-- FXP page, offset 0x080. -/
abbrev rFxpStat : Reg := ⟨0x1F, 0x080⟩

/-- FXP page, offset 0x084. -/
abbrev rFxpTagsUsed : Reg := ⟨0x1F, 0x084⟩

/-- FXP page, offset 0x088. -/
abbrev rFxpDeadLimit : Reg := ⟨0x1F, 0x088⟩

/-- FXP page, offset 0x08C. -/
abbrev rFxpLedgerUsed : Reg := ⟨0x1F, 0x08C⟩

/-- FXP page, offset 0x090. -/
abbrev rFxpLedgerFull : Reg := ⟨0x1F, 0x090⟩

/-- FXP page, offset 0x094. -/
abbrev rFxpRetries : Reg := ⟨0x1F, 0x094⟩

/-- FXP page, offset 0x098. -/
abbrev rFxpDupHit : Reg := ⟨0x1F, 0x098⟩

/-- FXP page, offset 0x09C. -/
abbrev rFxpDupDrop : Reg := ⟨0x1F, 0x09C⟩

/-- FXP page, offset 0x0A0. -/
abbrev rFxpRspStale : Reg := ⟨0x1F, 0x0A0⟩

/-- FXP page, offset 0x0A4. -/
abbrev rFxpErrRsp : Reg := ⟨0x1F, 0x0A4⟩

/-- FXP page, offset 0x0A8. -/
abbrev rFxpDeadCount : Reg := ⟨0x1F, 0x0A8⟩

/-- FXP page, offset 0x0AC. -/
abbrev rFxpWinWait : Reg := ⟨0x1F, 0x0AC⟩

/-- FXP page, offset 0x0B0. -/
abbrev rFxpOverlapWait : Reg := ⟨0x1F, 0x0B0⟩

/-- FXP page, offset 0x0B4. -/
abbrev rFxpRingErr : Reg := ⟨0x1F, 0x0B4⟩

/-- FXP page, offset 0x0BC. -/
abbrev rFxpReportLost : Reg := ⟨0x1F, 0x0BC⟩

/-- FXP page, offset 0x0B8. -/
abbrev rFxpReportNode : Reg := ⟨0x1F, 0x0B8⟩

/-- FXP page, offset 0x0C0. -/
abbrev rFxpReqOut : Reg := ⟨0x1F, 0x0C0⟩

/-- FXP page, offset 0x0C8. -/
abbrev rFxpReqIn : Reg := ⟨0x1F, 0x0C8⟩

/-- FXP page, offset 0x0D0. -/
abbrev rFxpDead : Reg := ⟨0x1F, 0x0D0⟩

/-- FXP page, offset 0x200. -/
abbrev rFxpRing : Reg := ⟨0x1F, 0x200⟩

end Sys2Proof.Machine
end

