-- ==== Sys2Proof/Machine/State.lean ====
section
/-!
DEFINITION. The state of the node, the reasons a step can stop, and the state after reset.
-/

namespace Sys2Proof.Machine

/-- The state of the node (INVENTORY.md, State). `pending`, `out`, `now` and `fresh` are the model's own fields. -/
structure State where
  /-- the commands that wait, first in first out -/
  pending : List Instr := []
  /-- what the node has sent to the outside, oldest first (log entry 3) -/
  out : List OutMsg := []
  /-- elapsed time in ns, advanced by the timed commands (log entry 4) -/
  now : Nat := 0
  /-- the counter that free values are applied to (log entry 2) -/
  fresh : Nat := 0
  /-- the registers of the register window -/
  regs : SMap Word := []
  /-- local memory: HBM and the LLM window; an unlisted byte reads 0 (log entry 5) -/
  mem : List Host.Cell := []
  /-- the key identity that the stored bytes of a 64-byte line are under, by line number; 0 none -/
  lineKey : SMap Nat := []
  /-- the coherence directory: by line number, the cores that hold a copy in L1 or L2 (R12) -/
  dir : SMap (List Nat) := []
  /-- poisoned lines by line number (R163) -/
  poison : SMap Bool := []
  /-- the configuration flash; an unlisted byte reads 0xFF (log entry 9) -/
  flash : SMap Byte := []
  job : Option Job := none
  threads : SMap Thread := []
  tiles : SMap Tile := []
  vecs : SMap Vec := []
  solvEngs : SMap SolvEng := []
  /-- the FACTORs in progress -/
  factors : List FactorRun := []
  asms : SMap Asm := []
  msa : Msa := {}
  fxp : Fxp := {}
  piaz : Piaz := {}
  cal : Cal := {}
  age : Age := {}
  sec : Sec := {}
  power : Power := {}
  pins : Pins := {}
  sched : Sched := {}
  ckpt : Ckpt := {}
  hbr : Hbr := {}
  sw : Sw := {}
  ports : SMap Port := []
  boot : Boot := {}
  fws : SMap Fwp := []
  /-- the image load in progress -/
  fwLoad : Option FwLoad := none
  mgmt : Mgmt := {}
  tap : Tap := {}
  log : Log := {}
  tele : Tele := {}
  deriving DecidableEq, Repr

/-- Why a step stops. Nothing in the manual stops the node, so no command of this model ends in a fault: the type has no
constructor (safe). -/
inductive Fault where
  deriving DecidableEq, Repr

/-- Why a command is not carried out by the model. -/
inductive Refusal where
  /-- raised by exec for a command whose meaning is not written yet: safe, the model stops where the node goes on -/
  | notModelled (mnemonic : String)
  deriving DecidableEq, Repr

/-- The outcome of a command. -/
abbrev Outcome := Host.Outcome State Fault Refusal

/-- The node right after the AON reset (R366): every register at the value of its table, nothing loaded, nothing queued. -/
def State.reset : State := {}

end Sys2Proof.Machine
end

