-- ==== Sys2Proof/Machine/Regs.lean ====
section
/-!
DEFINITION. Reading and writing the register file by name, the error registers of a page, interrupts, and the error codes of
Table 18-5 (R355 to R357, R363).
-/

namespace Sys2Proof.Machine

/-! ### Error codes (Table 18-5) -/

abbrev eNone : Nat := 0x00
abbrev eBadcmd : Nat := 0x01
abbrev eState : Nat := 0x02
abbrev eLocked : Nat := 0x03
abbrev eRange : Nat := 0x04
abbrev eBcastRead : Nat := 0x05
abbrev eAborted : Nat := 0x06
abbrev eDeadTarget : Nat := 0x10
abbrev eLedger : Nat := 0x11
abbrev eFenceTimeout : Nat := 0x12
abbrev eCollStall : Nat := 0x13
abbrev ePiazzaFallback : Nat := 0x14
abbrev eLinkAuth : Nat := 0x15
abbrev eLinkFail : Nat := 0x16
abbrev ePivotTiny : Nat := 0x20
abbrev ePivotZero : Nat := 0x21
abbrev eGrowth : Nat := 0x22
abbrev eWarmReject : Nat := 0x23
abbrev eWalnutRange : Nat := 0x24
abbrev eSolvNonfinite : Nat := 0x25
abbrev eCkptMixed : Nat := 0x30
abbrev eCkptIncomplete : Nat := 0x31
abbrev eCkptAuth : Nat := 0x32
abbrev eFwWdog : Nat := 0x40
abbrev eFwImage : Nat := 0x41
abbrev eSig : Nat := 0x42
abbrev ePresence : Nat := 0x43
abbrev eWakeDefer : Nat := 0x50
abbrev eTherm : Nat := 0x51
abbrev eRail : Nat := 0x52
abbrev ePwrClamp : Nat := 0x53
abbrev eCalAbort : Nat := 0x60
abbrev eChRetired : Nat := 0x61
abbrev ePoison : Nat := 0x62
abbrev eChFenced : Nat := 0x63
abbrev eAgeLimit : Nat := 0x64

/-! ### Header offsets (Table 18-2) -/

abbrev hPageId : Nat := 0x000
abbrev hPageVer : Nat := 0x004
abbrev hPageCap : Nat := 0x008
abbrev hPageCtrl : Nat := 0x010
abbrev hPageStat : Nat := 0x014
abbrev hIntStat : Nat := 0x020
abbrev hIntEn : Nat := 0x024
abbrev hIntForce : Nat := 0x028
abbrev hErrCode : Nat := 0x030
abbrev hErrInfo0 : Nat := 0x034
abbrev hErrInfo1 : Nat := 0x038
abbrev hHoldStat : Nat := 0x040
abbrev hScratch : Nat := 0x078

/-- The owner of a block type (Table 1-6): the FWP instance. -/
def ownerOf (ty : Nat) : Option Nat :=
  if ty = tyClk ∨ ty = tyPwr ∨ ty = tyThm ∨ ty = tyAge then some 0
  else if ty = tyLlm ∨ ty = tyHbmc ∨ ty = tyHbmch ∨ ty = tyMsa then some 1
  else if ty = tyFport ∨ ty = tyFsw ∨ ty = tyPiaz ∨ ty = tyFxp then some 2
  else if ty = tySec ∨ ty = tyLcy ∨ ty = tyCfgf then some 3
  else if ty = tySch ∨ ty = tyHif ∨ ty = tyHbr ∨ ty = tyTile ∨ ty = tyVec ∨ ty = tySolv ∨ ty = tyAsm ∨ ty = tyCore
    ∨ ty = tyPunc then some 4
  else if ty = tyDbg then some 5
  else none

/-- The key of a register in the register file: block type, instance and byte offset. -/
def regKey (ty inst off : Nat) : Nat := (ty * 512 + inst) * 4096 + off

/-- The row that an offset of a page belongs to, where the offset is the start of one of its registers. -/
def findRow (ty off : Nat) : Option RegRow :=
  (pageRows ty).find? fun r => r.off ≤ off && decide (off < r.off + r.count * r.bytes) && (off - r.off) % r.bytes = 0

/-- The row that an offset lies in, not necessarily at the start of a register. -/
def coverRow (ty off : Nat) : Option RegRow :=
  (pageRows ty).find? fun r => r.off ≤ off && decide (off < r.off + r.count * r.bytes)

/-- The reset value of a register (the tables of each page; the header's of Tables 18-2, 18-3 and 17-2). -/
def regDefault (key : Nat) : Word :=
  let off := key % 4096
  let ty := key / 4096 / 512
  if off < 0x80 then
    if off = hPageVer then 1
    else if off = hPageCtrl then (if ty = tyDbg ∨ ty = tyFport then 0 else 1)
    else if off = hHoldStat then
      match ownerOf ty with
      | some i => BitVec.ofNat 64 (2 ^ 31 + (i + 1) * 2 ^ 16)
      | none => 0
    else 0
  else if ty = tyPwr ∧ 0x180 ≤ off ∧ off < 0x1B8 then
    BitVec.ofNat 64 (([0, 80, 80, 80, 80, 80, 80, 40, 40, 0, 40, 40] : List Nat).getD ((off - 0x180) / 4) 0)
  else
    match findRow ty off with
    | some r => BitVec.ofNat 64 r.reset
    | none => 0

/-- Read a word of the register file. -/
def State.regGet (s : State) (key : Nat) : Word := SMap.get (regDefault key) s.regs key

/-- Write a word of the register file. -/
def State.regSet (s : State) (key : Nat) (v : Word) : State :=
  { s with regs := SMap.set (regDefault key) s.regs key v }

/-- The value of a register: `i` the instance, `o` a byte offset inside an array. -/
def State.rd (s : State) (r : Reg) (i : Nat := 0) (o : Nat := 0) : Nat :=
  (s.regGet (regKey r.ty i (r.off + o))).toNat

/-- Set a register. -/
def State.wr (s : State) (r : Reg) (v : Nat) (i : Nat := 0) (o : Nat := 0) : State :=
  s.regSet (regKey r.ty i (r.off + o)) (BitVec.ofNat 64 v)

/-- Bits [hi:lo] of a register. -/
def State.fld (s : State) (r : Reg) (hi lo : Nat) (i : Nat := 0) : Nat := bitsOf (s.rd r i) hi lo

/-- Set bits [hi:lo] of a register. -/
def State.setFld (s : State) (r : Reg) (hi lo v : Nat) (i : Nat := 0) : State :=
  s.wr r (withBits (s.rd r i) hi lo v) i

/-- Bit `b` of a register. -/
def State.flag (s : State) (r : Reg) (b : Nat) (i : Nat := 0) : Bool := bitOf (s.rd r i) b

/-- Set or clear bit `b` of a register. -/
def State.setFlag (s : State) (r : Reg) (b : Nat) (v : Bool) (i : Nat := 0) : State :=
  s.wr r (withBit (s.rd r i) b v) i

/-- Add to a saturating 32-bit counter (R48, R146, R167, R222, R247, R264). -/
def State.bump (s : State) (r : Reg) (n : Nat := 1) (i : Nat := 0) : State :=
  s.wr r (min (s.rd r i + n) 0xFFFFFFFF) i

/-- Add to a saturating 64-bit counter. -/
def State.bump64 (s : State) (r : Reg) (n : Nat := 1) (i : Nat := 0) : State :=
  s.wr r (min (s.rd r i + n) 0xFFFFFFFFFFFFFFFF) i

/-- Set a register of every instance below `n`. -/
def State.wrAll (s : State) (r : Reg) (v : Nat) : Nat → State
  | 0 => s
  | n + 1 => (s.wrAll r v n).wr r v n

/-- The value of a header register of a page. -/
def State.hdr (s : State) (ty inst off : Nat) : Nat := (s.regGet (regKey ty inst off)).toNat

/-- Set a header register of a page. -/
def State.setHdr (s : State) (ty inst off v : Nat) : State := s.regSet (regKey ty inst off) (BitVec.ofNat 64 v)

/-! ### Free values (log entry 2) -/

/-- A free value of a use, and the state with the counter advanced. -/
def State.free (s : State) (use : Nat) : Nat × State := (Config.free use s.fresh, { s with fresh := s.fresh + 1 })

/-- Advance a saturating 64-bit counter by a free amount: cycles and the like that no rule counts (log entry 41). -/
def State.bumpFree (s : State) (r : Reg) (use : Nat) (i : Nat := 0) : State := (s.free use).2.bump64 r (s.free use).1 i

/-- Free bytes of a use. -/
def State.freeBytes (s : State) (use n : Nat) : List Byte × State :=
  ((upTo n).map fun i => BitVec.ofNat 8 (Config.free use (s.fresh + i)), { s with fresh := s.fresh + n })

/-- Append a message to what the node has sent. -/
def State.emit (s : State) (m : OutMsg) : State := { s with out := s.out ++ [m] }

/-! ### Errors and interrupts (R356, R357) -/

/-- This node is the group bridge (R243). -/
def State.isBridge (s : State) : Bool := s.flag rHbrRole 0

/-- Fire an MSI-X vector; only the bridge has one (R246). A masked vector sets its pending bit instead (Table 11-9). -/
def State.msix (s : State) (v : Nat) : State :=
  if !s.isBridge then s
  else if bitOf s.hbr.msixMask v then { s with hbr := { s.hbr with msixPend := withBit s.hbr.msixPend v true } }
  else s.emit (.msix v)

/-- NODE_INT_SUM: bit t is the OR over the instances of type t of INT_STAT AND INT_EN (R357). -/
def State.intSum (s : State) : Nat :=
  s.regs.foldl (fun acc e =>
    if e.1 % 4096 = hIntStat ∧ (e.2.toNat &&& (s.regGet (e.1 - hIntStat + hIntEn)).toNat) ≠ 0 then
      acc ||| 2 ^ (e.1 / 4096 / 512)
    else acc) 0

/-- What follows a change of INT_STAT or INT_EN, from the state `s` before it: SUM of the HBR page follows NODE_INT_SUM from 0,
and MSI-X vector 34 fires on the bridge when INT_STAT AND INT_EN of the HBR page becomes non-zero (R357). -/
def State.intEdge (s s1 : State) : State :=
  let hbr := fun (t : State) => (t.hdr tyHbr 0 hIntStat &&& t.hdr tyHbr 0 hIntEn) ≠ 0
  let s2 :=
    if s.intSum = 0 ∧ s1.intSum ≠ 0 then s1.setHdr tyHbr 0 hIntStat (s1.hdr tyHbr 0 hIntStat ||| 0x20) else s1
  if ¬ hbr s ∧ hbr s2 then s2.msix 34 else s2

/-- Set bits of INT_STAT. -/
def State.setInt (s : State) (ty inst bits : Nat) : State :=
  s.intEdge (s.setHdr ty inst hIntStat (s.hdr ty inst hIntStat ||| bits))

/-- The interrupt bits of Table 18-2. -/
abbrev iErr : Nat := 1
abbrev iEvt : Nat := 2
abbrev iDone : Nat := 4
abbrev iHeld : Nat := 8
abbrev iAdvisory : Nat := 16

/-- Write ERR_CODE, ERR_INFO0 and ERR_INFO1 of a page as one event (R356). -/
def State.refuse (s : State) (ty inst code info0 info1 : Nat) : State :=
  (((s.setHdr ty inst hErrCode code).setHdr ty inst hErrInfo0 (info0 % 2 ^ 32)).setHdr ty inst hErrInfo1
    (info1 % 2 ^ 32)).setInt ty inst iErr

/-- True of the informational codes (Table 18-5, class I). -/
def isInfo (code : Nat) : Bool := code = ePiazzaFallback || code = eWakeDefer

/-- Write an event code: an informational code never replaces one that is not (R356). -/
def State.raise (s : State) (ty inst code info0 info1 : Nat) : State :=
  let old := s.hdr ty inst hErrCode
  if isInfo code && old ≠ 0 && !isInfo old then s else s.refuse ty inst code info0 info1

/-- The node's own ID, 0 while it is not valid (Table 18-6). -/
def State.nodeId (s : State) : Nat := s.fld rNodeId 13 0

/-- The owner of a page is down: HELD is set (R342). -/
def State.down (s : State) (fwp : Nat) : Bool :=
  bitOf (s.hdr (match fwp with | 0 => tyPwr | 1 => tyHbmc | 2 => tyFxp | 3 => tySec | 4 => tySch | _ => tyDbg) 0 hHoldStat) 31

/-- The requests of other nodes whose CLOSE has not been answered yet; each has its entry already (R159, R204). -/
def State.foldReqs (s : State) : List Req :=
  let who := fun (w : FoldBy) => match w with | .request q _ _ => [q] | .thread _ _ | .homeReduction => []
  (s.msa.fold.elim [] fun f => who f.who) ++ s.msa.waiting.flatMap fun x => who x.2

/-- The ledger entries in use. -/
def State.ledgerUsed (s : State) : Nat := s.fxp.ledger.length + s.foldReqs.length

end Sys2Proof.Machine
end

