-- ==== Sys2Proof/Machine/Mem.lean ====
section
/-!
DEFINITION. Local memory: the address map, the interleave, lines with their keys and poison marks, and the one read and the one
write that every agent uses (R147 to R166, R172, R179, R337).
-/

namespace Sys2Proof.Machine

/-! ### Address map (Table 8-1) and interleave (R149, R150) -/

/-- The first address of the LLM window. -/
abbrev llmBase : Nat := 0x80000000000

/-- The first address of the register window. -/
abbrev regWinBase : Nat := 0xF0000000000

/-- HBMC_MAP.MODE: spared (R149). -/
def State.spared (s : State) : Bool := s.flag rHbmcMap 24

/-- The size of local HBM (Table 8-1). -/
def State.hbmSize (s : State) : Nat := if s.spared then 0xF800000000 else 0x10000000000

/-- The first byte of the protected region, the top 64 MiB of local HBM (R337). -/
def State.protBase (s : State) : Nat := if s.spared then 0xF7FC000000 else 0xFFFC000000

/-- The stack of an HBM address. -/
def State.stackOf (s : State) (a : Nat) : Nat :=
  let g := a / 512
  if s.spared then
    let row := g / 992
    ((g % 992 % 16) ^^^ (row % 16)) ^^^ (row / 16 % 16)
  else
    let row := g / 1024
    ((g % 1024) ^^^ (((row % 1024) ^^^ (row / 1024 % 1024)) ^^^ (row / 2 ^ 20))) % 16

/-- The channel of an HBM address within its stack. -/
def State.chanOf (s : State) (a : Nat) : Nat :=
  let g := a / 512
  if s.spared then
    let row := g / 992
    let st := s.stackOf a
    let j := g % 992 / 16 + row % 62
    let j := if 62 ≤ j then j - 62 else j
    let spare := s.fld rHbmcMap 4 0 st
    let vch := j / 2
    let chan := if vch < spare then vch else vch + 1
    if s.fld rHbmcMap 17 16 st = 1 ∧ chan = s.fld rHbmcMap 12 8 st then spare else chan
  else
    let row := g / 1024
    ((g % 1024) ^^^ (((row % 1024) ^^^ (row / 1024 % 1024)) ^^^ (row / 2 ^ 20))) / 16 / 2

/-- The pseudo-channel of an HBM address within its channel. -/
def State.pchOf (s : State) (a : Nat) : Nat :=
  let g := a / 512
  if s.spared then
    let j := g % 992 / 16 + g / 992 % 62
    (if 62 ≤ j then j - 62 else j) % 2
  else
    let row := g / 1024
    ((g % 1024) ^^^ (((row % 1024) ^^^ (row / 1024 % 1024)) ^^^ (row / 2 ^ 20))) / 16 % 2

/-- The byte of the pseudo-channel that an HBM address lies at. -/
def State.offOf (s : State) (a : Nat) : Nat := (if s.spared then a / 512 / 992 else a / 512 / 1024) * 512 + a % 512

/-- The HBMCH instance of an HBM address (R148). -/
def State.hbmchOf (s : State) (a : Nat) : Nat := 32 * s.stackOf a + s.chanOf a

/-- The range lies in local HBM. -/
def State.inHbm (s : State) (a n : Nat) : Bool := decide (a + n ≤ s.hbmSize)

/-- The range lies in local HBM outside the protected region. -/
def State.inOpenHbm (s : State) (a n : Nat) : Bool := decide (a + n ≤ s.protBase)

/-- The range lies in the LLM window. -/
def inLlm (a n : Nat) : Bool := decide (llmBase ≤ a) && decide (a + n ≤ llmBase + 0x20000000)

/-- The range lies in the register window. -/
def inRegWin (a n : Nat) : Bool := decide (regWinBase ≤ a) && decide (a + n ≤ regWinBase + 0x8000000)

/-- The LLM region (die and number) of a window byte is in scratchpad mode (R152). -/
def State.llmScratch (s : State) (a : Nat) : Bool :=
  let r := a % 0x20000000 / 0x800000
  s.flag rLlmRegMode (r % 16) (r / 16)

/-- Every LLM region that the range touches is in scratchpad mode. -/
def State.llmOk (s : State) (a n : Nat) : Bool :=
  inLlm a n && ((pieces 0x800000 a n).all fun p => s.llmScratch p.1)

/-- The range may be reached by job traffic: open HBM, or scratchpad bytes of the window (R147, R190). -/
def State.memOk (s : State) (a n : Nat) : Bool := s.inOpenHbm a n || s.llmOk a n

/-! ### Lines -/

/-- What becomes of an access to a line. -/
inductive LineState where
  /-- read and written under a key identity, 0 for none -/
  | plain (key : Nat)
  /-- a valid region whose key slot holds no key (R166) -/
  | denied
  | poisoned
  /-- the channel is fenced (R179) -/
  | fenced
  deriving DecidableEq, Repr

/-- The valid protection region that holds an address, as its key slot (R165; SEC_REGION of the SEC page). -/
def State.regionSlot (s : State) (a : Nat) : Option Nat :=
  ((upTo 16).find? fun r =>
    let base := s.rd rSecRegion 0 (16 * r)
    let lim := s.rd rSecRegion 0 (16 * r + 8)
    bitOf lim 63 && decide (bitsOf base 43 20 * 2 ^ 20 ≤ a) && decide (a < bitsOf lim 43 20 * 2 ^ 20)).map fun r =>
      bitsOf (s.rd rSecRegion 0 (16 * r + 8)) 59 56

/-- The state of the 64-byte line that holds an address. -/
def State.lineState (s : State) (a : Nat) : LineState :=
  if llmBase ≤ a then .plain 0
  else if s.fld rHbmchStat 2 0 (s.hbmchOf a) = 6 then .fenced
  else
    match s.regionSlot a with
    | some slot =>
      let k := SMap.get 0 s.sec.keySlot slot
      if k = 0 then .denied else if SMap.get false s.poison (a / 64) then .poisoned else .plain k
    | none => if SMap.get false s.poison (a / 64) then .poisoned else .plain 0

/-- The key pair of a key identity: the data key and the tweak key (R165). -/
def xtsKeys (k : Nat) : List Nat × List Nat :=
  ((upTo 32).map fun i => (Config.xtsKey k i).toNat, (upTo 32).map fun i => (Config.xtsKey k (32 + i)).toNat)

/-- The bytes of a line that was written under key `k'`, 0 for none, as key `k` reads them: what HBM holds is decrypted with the
present key and the line's own address as the tweak (R165, R325). -/
def xtsReread (k' k line : Nat) (bs : List Nat) : List Nat :=
  let held := if k' = 0 then bs else xtsEncrypt (xtsKeys k').1 (xtsKeys k').2 (64 * line) bs
  if k = 0 then held else xtsDecrypt (xtsKeys k).1 (xtsKeys k).2 (64 * line) held

/-- The stored bytes of a line, plain under the key that they were written under. -/
def State.storedLine (s : State) (line : Nat) : List Nat := (upTo 64).map fun i => (SMap.get 0#8 s.mem (64 * line + i)).toNat

/-- The byte an agent reads at a local memory address (R163, R165, R166, R179, R325). -/
def State.peek (s : State) (a : Nat) : Byte :=
  match s.lineState a with
  | .plain k =>
    let b := SMap.get 0#8 s.mem a
    let k' := if llmBase ≤ a then 0 else SMap.get 0 s.lineKey (a / 64)
    if k' = k then b else BitVec.ofNat 8 ((xtsReread k' k (a / 64) (s.storedLine (a / 64))).getD (a % 64) 0)
  | .denied | .poisoned | .fenced => 0xFF

/-- The `n` bytes at a local memory address. -/
def State.peekN (s : State) (a n : Nat) : List Byte := (upTo n).map fun i => s.peek (a + i)

/-! ### Channels (Table 8-7) -/

/-- The channel states of HBMCH_STAT (Table 8-7). -/
abbrev chActive : Nat := 0
abbrev chSpare : Nat := 1
abbrev chSlice : Nat := 2
abbrev chRetrain : Nat := 3
abbrev chEvacuating : Nat := 4
abbrev chRetired : Nat := 5
abbrev chFenced : Nat := 6

/-- The state of a channel. -/
def State.chState (s : State) (ch : Nat) : Nat := s.fld rHbmchStat 2 0 ch

/-- A channel's calibration record. -/
def State.chan (s : State) (ch : Nat) : Chan := SMap.get {} s.cal.chans ch

/-- The channels of a stack, and of a die. -/
def stackChans (st : Nat) : List Nat := (upTo 32).map (· + 32 * st)
def dieChans (die : Nat) : List Nat := (upTo 128).map (· + 128 * die)

/-- A channel of the die is in RETRAIN (R176). -/
def State.dieRetrains (s : State) (die : Nat) : Bool := (dieChans die).any fun c => decide (s.chState c = chRetrain)

/-- A channel of the die is in RETRAIN or EVACUATING (R168). -/
def State.dieBusy (s : State) (die : Nat) : Bool :=
  (dieChans die).any fun c => decide (s.chState c = chRetrain) || decide (s.chState c = chEvacuating)

/-- A start waits for a running operation under the limits of R168 (HBMCH_CAL_STAT.PENDING). -/
def State.startPends (s : State) (ch : Nat) : Bool :=
  let c := s.chan ch
  (c.wantSlice && (stackChans (ch / 32)).any fun x => decide (s.chState x = chSlice)) ||
    ((c.wantRetrain || c.wantEvac) && s.dieBusy (ch / 128))

/-! ### The Alley (R171 to R174) -/

/-- The line lies in a channel whose retrain is in DRAIN or TRAIN (R171). -/
def State.retraining (s : State) (a : Nat) : Bool :=
  let ch := s.hbmchOf a
  decide (a < llmBase) && decide (s.chState ch = chRetrain) && decide (s.fld rHbmchCalStat 2 0 ch ≤ 2)

/-- The regions of a die in cache mode. -/
def State.cacheRegions (s : State) (die : Nat) : Nat := ((upTo 16).filter fun r => !s.flag rLlmRegMode r die).length

/-- The set of the die's cache that a line lies in: 8,192 sets of 16 ways per region in cache mode (R153, R172). Which line goes to
which set is not stated (log entry 76). -/
def State.llmSet (s : State) (line : Nat) : Nat :=
  let n := s.cacheRegions (s.stackOf (64 * line) / 4)
  Config.llmSet n line % (8192 * n)

/-- The line was dirty in the cache when its channel's retrain began, so that it is pinned (R172; log entry 76). -/
def State.dirtyLine (s : State) (line : Nat) : Bool :=
  Config.dirtyLine (s.chan (s.hbmchOf (64 * line))).dirty line

/-- The mask of `n` bytes of a line from byte `o`. -/
def byteMask (o n : Nat) : Nat := (2 ^ n - 1) * 2 ^ o

/-- The ways 14 and 15 of a line's set that pinned lines hold: lines of the channel in RETRAIN that were dirty, and those that writes
have pinned since (R172, R173). -/
def State.waysUsed (s : State) (line : Nat) : Nat :=
  let set := s.llmSet line
  let die := s.stackOf (64 * line) / 4
  Config.dirtyWays (s.chan (s.hbmchOf (64 * line))).dirty set % 3 +
    (s.cal.pinned.filter fun e => decide (s.stackOf (64 * e.1) / 4 = die) && decide (s.llmSet e.1 = set) && !s.dirtyLine e.1).length

/-- Count a read of `n` bytes of a line that waits for DRAIN and TRAIN: one that does not hit the die's cache, or hits a partial line
that lacks a byte of it; whether a line that no write has pinned lies clean in the cache is free (R171, R172; Table 9-5,
READS_WAITING). -/
def State.noteWait (s : State) (a n : Nat) : State :=
  if s.retraining a then
    let ch := s.hbmchOf a
    let mask := SMap.get 0 s.cal.pinned (a / 64)
    let need := byteMask (a % 64) n
    let waits := fun (t : State) => t.setFld rHbmchCalStat 31 24 (min 255 (t.fld rHbmchCalStat 31 24 ch + 1)) ch
    if s.cacheRegions (s.stackOf a / 4) = 0 then waits s
    else if mask ≠ 0 then (if mask &&& need = need then s else waits s)
    else if s.dirtyLine (a / 64) then s
    else (if (s.free 56).1 % 2 = 0 then (s.free 56).2 else waits (s.free 56).2)
  else s

/-- A write of `n` bytes of a line to a channel in DRAIN or TRAIN (R172, R173): a pinned line takes it; a line that is not pinned yet
becomes so, with the bytes written or, where it lay clean in the cache, all of them, unless its set has no way left: the write then
waits, which HBMCH_ALLEY_FULL counts, as it does on a die without a region in cache mode. In REPLAY a write merges into a pinned line
or goes to the channel (R174). -/
def State.pinLine (s : State) (a n : Nat) : State :=
  if s.retraining a then
    let ch := s.hbmchOf a
    let line := a / 64
    let mask := SMap.get 0 s.cal.pinned line
    let need := byteMask (a % 64) n
    let put := fun (t : State) (m : Nat) => { t with cal := { t.cal with pinned := SMap.set 0 t.cal.pinned line m } }
    if s.cacheRegions (s.stackOf a / 4) = 0 then s.bump rHbmchAlleyFull 1 ch
    else if mask ≠ 0 then put s (mask ||| need)
    else if s.dirtyLine line then s
    else if s.waysUsed line < 2 then
      (put (s.free 56).2 (if (s.free 56).1 % 2 = 0 then byteMask 0 64 else need)).bump rHbmchAlleyLines 1 ch
    else s.bump rHbmchAlleyFull 1 ch
  else s

/-- Count one access to a line that delivered or discarded nothing of it (R163, R166, R179). -/
def State.noteLine (s : State) (a : Nat) : State :=
  match s.lineState a with
  | .plain _ => s
  | .denied => s.bump rHbmcXtsDeny 1 (s.stackOf a)
  | .poisoned | .fenced => s.bump rHbmchPoisonRd 1 (s.hbmchOf a)

/-- Count an access that the cache of a die takes as a hit or a miss, which is free (R153, log entry 41); requests of a die
without cache regions and those to the LLM window count as neither. -/
def State.noteLlm (s : State) (a : Nat) : State :=
  let die := s.stackOf a / 4
  if llmBase ≤ a ∨ s.rd rLlmRegMode die % 2 ^ 16 = 0xFFFF then s
  else (s.free 48).2.bump64 (if (s.free 48).1 % 2 = 0 then rLlmHit else rLlmMiss) 1 die

/-- What one read of `n` bytes of a line counts, whichever agent makes it (R153, R163, R166, R172, R179). -/
def State.noteRead (s : State) (a n : Nat) : State := ((s.noteLine a).noteWait a n).noteLlm a

/-- What a read of `n` bytes counts, line by line. -/
def State.noteRange (s : State) (a n : Nat) : State := (pieces 64 a n).foldl (fun t p => t.noteRead p.1 p.2) s

/-- What a read counts where it lies in memory that job traffic may reach. -/
def State.noteOk (s : State) (a n : Nat) : State := if s.memOk a n then s.noteRange a n else s

/-- Read `n` bytes of local memory: the bytes, and the state with each line's count. -/
def State.fetch (s : State) (a n : Nat) : List Byte × State := (s.peekN a n, s.noteRange a n)

/-- Write one stored byte. -/
def State.pokeRaw (s : State) (a : Nat) (b : Byte) : State := { s with mem := SMap.set 0#8 s.mem a b }

/-- Write stored bytes from an address. -/
def State.pokeBytes (s : State) : Nat → List Byte → State
  | _, [] => s
  | a, b :: bs => (s.pokeRaw a b).pokeBytes (a + 1) bs

/-- Write the bytes of one line: poisoned, denied and fenced lines as their rules say; a line under another key is first
read and written whole under the present one. -/
def State.storeLine (s : State) (a : Nat) (bs : List Byte) : State :=
  if llmBase ≤ a then s.pokeBytes a bs
  else
    let line := a / 64
    match s.lineState a with
    | .denied | .fenced => s.noteLine a
    | .poisoned =>
      if bs.length = 64 then
        let s1 := { s with poison := SMap.set false s.poison line false }
        match s1.lineState a with
        | .plain k => (({ s1 with lineKey := SMap.set 0 s1.lineKey line k }).pokeBytes a bs).pinLine a bs.length
        | .denied | .poisoned | .fenced => s1
      else s.noteLine a
    | .plain k =>
      let s1 :=
        if SMap.get 0 s.lineKey line = k then s
        else ({ s with lineKey := SMap.set 0 s.lineKey line k }).pokeBytes (64 * line) (s.peekN (64 * line) 64)
      (s1.pokeBytes a bs).pinLine a bs.length

/-! ### The coherence directory (R12, R125, Table 18-9) -/

/-- The lines that one core's L1 and L2 can hold: 64 KiB and 2 MiB of 64-byte lines. -/
abbrev coreLines : Nat := 33792

/-- The lines that a core holds. -/
def State.linesOf (s : State) (core : Nat) : List Nat := (s.dir.filter fun e => e.2.contains core).map (·.1)

/-- A core gives up its copy of a line. -/
def State.dropCopyOf (s : State) (core line : Nat) : State :=
  { s with dir := SMap.set [] s.dir line ((SMap.get [] s.dir line).filter (· ≠ core)) }

/-- A line comes into a core's caches. Which line the caches give up for it, if any, is free (log entry 80); none is kept
beyond their size. -/
def State.cacheFill (s : State) (core line : Nat) : State :=
  let old := SMap.get [] s.dir line
  let s1 := { s with dir := SMap.set [] s.dir line (if old.contains core then old else old ++ [core]) }
  let (v, s2) := s1.free 45
  let mine := s2.linesOf core
  let n := if mine.length ≤ coreLines then mine.length + 1 else mine.length
  match mine[v % n]? with
  | some l => s2.dropCopyOf core l
  | none => s2

/-- A write of one line reaches the directory before it is visible: one of a core (`by_`) leaves no copy but the core's own,
one of any other agent none at all, and is counted (R12). -/
def State.snoop (s : State) (by_ : Option Nat) (line : Nat) : State :=
  let cs := SMap.get [] s.dir line
  match by_ with
  | some c => { s with dir := SMap.set [] s.dir line (cs.filter (· = c)) }
  | none =>
    if cs = [] then s.bump64 rPuncDirMiss else { s with dir := SMap.set [] s.dir line [] }.bump64 rPuncDirInval cs.length

/-- Write line pieces of a byte list; a core that holds the line asks nothing of the LLM (R12, R153). -/
def State.storePieces (s : State) (by_ : Option Nat) (bs : List Byte) (a0 : Nat) : List (Nat × Nat) → State
  | [] => s
  | (a, n) :: ps =>
    let s1 := s.snoop by_ (a / 64)
    let held := by_.elim false fun c => (SMap.get [] s.dir (a / 64)).contains c
    ((if held then s1 else s1.noteLlm a).storeLine a ((bs.drop (a - a0)).take n)).storePieces by_ bs a0 ps

/-- Write bytes to local memory, line by line, as an agent other than a core. -/
def State.store (s : State) (a : Nat) (bs : List Byte) : State := s.storePieces none bs a (pieces 64 a bs.length)

/-- Write bytes to local memory as a core. -/
def State.coreStore (s : State) (core a : Nat) (bs : List Byte) : State :=
  (pieces 64 a bs.length).foldl (fun t p => t.cacheFill core (p.1 / 64)) (s.storePieces (some core) bs a (pieces 64 a bs.length))

/-- Clear a range: bytes 0, no key, no poison. -/
def State.zeroRange (s : State) (a n : Nat) : State :=
  { s with
    mem := s.mem.filter fun c => c.1 < a || a + n ≤ c.1
    lineKey := s.lineKey.filter fun e => 64 * e.1 < a || a + n ≤ 64 * e.1
    poison := s.poison.filter fun e => 64 * e.1 < a || a + n ≤ 64 * e.1 }

/-- The memory is in its canonical form (R5, R147). -/
abbrev Memory.wf (m : List Host.Cell) : Prop := SMap.wf (fun _ => (0#8 : Byte)) m = true

end Sys2Proof.Machine
end

