-- ==== Sys2Proof/Machine/Adder.lean ====
section
/-!
DEFINITION. The memory-side adders: atomics, ordered regions, folds, block adds and long-accumulator records (R155 to R161).
-/

namespace Sys2Proof.Machine

/-- One addition rounded once in a floating format, RNE with the canonical NaN (R42, R44). -/
def fAdd (f : Fmt) (a b : Nat) : Nat :=
  (encodeIeee f .rne (FVal.add .rne (decodeFmt f a) (decodeFmt f b))).1

/-- The format of a floating element type of Table 10-2. -/
def etypeFmt (etype : Nat) : Fmt := if etype = 0 then .fp64 else .fp32

/-- The bytes of an element type of Table 10-2. -/
def etypeBytes : Nat → Nat
  | 0 => 8 | 1 => 4 | 2 => 8 | 3 => 4 | _ => 32

/-- The fields of a long-accumulator record (Table 4-11). -/
structure LaccRec where
  sum : Nat
  expA : Nat
  expB : Nat
  flags : Nat
  deriving DecidableEq, Repr

/-- Read a record from its 32-byte number. -/
def laccOf (n : Nat) : LaccRec :=
  ⟨n % 2 ^ 160, n / 2 ^ 160 % 2 ^ 16, n / 2 ^ 176 % 2 ^ 16, n / 2 ^ 192 % 2 ^ 8⟩

/-- The 32-byte number of a record. -/
def LaccRec.toNat (r : LaccRec) : Nat :=
  r.sum % 2 ^ 160 + r.expA % 2 ^ 16 * 2 ^ 160 + r.expB % 2 ^ 16 * 2 ^ 176 + r.flags % 2 ^ 8 * 2 ^ 192

/-- LACC: the sum of a destination and an incoming record, and whether the addition set SPECIAL (R161). -/
def laccAdd (d c : LaccRec) : LaccRec × Bool :=
  let s := (d.sum + c.sum) % 2 ^ 160
  let neg := fun n => decide (2 ^ 159 ≤ n)
  let overflows := neg d.sum == neg c.sum && neg s != neg d.sum
  let special := d.expA ≠ c.expA || d.expB ≠ c.expB || overflows
  (⟨s, d.expA, d.expB, (d.flags ||| c.flags) ||| special.toNat⟩, special)

/-- Add an element of a type of Table 10-2 to a value (Table 8-4, R253); the flag is a record that became special. -/
def etypeAdd (etype old v : Nat) : Nat × Bool :=
  if etype = 4 then
    let r := laccAdd (laccOf old) (laccOf v)
    (r.1.toNat, r.2)
  else if etype = 0 ∨ etype = 1 then (fAdd (etypeFmt etype) old v, false)
  else ((old + v) % 2 ^ (8 * etypeBytes etype), false)

/-- What memory becomes under an atomic (Table 7-8), on `bytes` bytes. -/
def amoNew (op : AmoOp) (bytes old v cmp : Nat) : Nat :=
  let w := 8 * bytes
  let s := signedOf w
  match op with
  | .swap => v % 2 ^ w
  | .add | .addp => (old + v) % 2 ^ w
  | .and => old &&& (v % 2 ^ w)
  | .or => old ||| (v % 2 ^ w)
  | .xor => old ^^^ (v % 2 ^ w)
  | .min => if s v < s old then v % 2 ^ w else old
  | .max => if s old < s v then v % 2 ^ w else old
  | .minu => min old (v % 2 ^ w)
  | .maxu => max old (v % 2 ^ w)
  | .cas => if old = cmp % 2 ^ w then v % 2 ^ w else old
  | .fadd => fAdd (if bytes = 8 then .fp64 else .fp32) old (v % 2 ^ w)
  | .ldacq => old
  | .strel => v % 2 ^ w

/-- An atomic on local memory: the old value, and the state after it. A line that is not plain returns all-ones and stays
as it is, and no atomic is performed on it (R163, R166, R179). -/
def State.amoLocal (s : State) (op : AmoOp) (a bytes v cmp : Nat) : Nat × State :=
  match s.lineState a with
  | .plain _ =>
    let s0 := if a < llmBase then s.bump64 rMsaAtomics 1 (s.stackOf a) else s
    let old := natLE (s0.peekN a bytes)
    (old, (s0.noteWait a bytes).store a (bytesLE bytes (amoNew op bytes old v cmp)))
  | .denied | .poisoned | .fenced => (2 ^ (8 * bytes) - 1, s.noteLine a)

/-! ### Ordered regions (R157 to R160) -/

/-- Word `w` (0 BASE, 1 LIMIT, 2 LOG_BASE, 3 LOG_LIMIT) of an ordered-region entry. -/
def State.oregWord (s : State) (e w : Nat) : Nat := bitsOf (s.rd rMsaOreg 0 (32 * e + 8 * w)) 43 0

/-- An entry is valid. -/
def State.oregValid (s : State) (e : Nat) : Bool := bitOf (s.rd rMsaOreg 0 (32 * e)) 63

/-- The valid entry whose region holds an address (R157). -/
def State.oregOf (s : State) (a : Nat) : Option Nat :=
  (upTo 16).find? fun e => s.oregValid e && decide (s.oregWord e 0 ≤ a) && decide (a < s.oregWord e 1)

/-- The valid entry whose CLOSE word holds an address. -/
def State.closeOf (s : State) (a : Nat) : Option Nat :=
  (upTo 16).find? fun e => s.oregValid e && decide (s.oregWord e 2 ≤ a) && decide (a < s.oregWord e 2 + 8)

/-- The granules below granule `n` that the interleave places on a stack. -/
def State.granulesBelow (s : State) (st n : Nat) : Nat :=
  if s.spared then
    n / 992 * 62 + ((upTo (n % 992)).filter fun i => s.stackOf ((n / 992 * 992 + i) * 512) = st).length
  else
    n / 1024 * 64 + ((upTo (n % 1024)).filter fun i => s.stackOf ((n / 1024 * 1024 + i) * 512) = st).length

/-- The entries that the log share of an adder holds: 16 in each of its granules, less the 64 bytes of the CLOSE word. -/
def State.logShare (s : State) (e st : Nat) : Nat :=
  let lo := s.oregWord e 2
  let hi := s.oregWord e 3
  16 * (s.granulesBelow st (hi / 512) - s.granulesBelow st (lo / 512)) - (if s.stackOf lo = st then 2 else 0)

/-- The entries of a region that an adder holds now. -/
def State.logUsed (s : State) (e st : Nat) : Nat :=
  (s.msa.log.filter fun x => x.oreg = e ∧ x.adder = st).length

/-- The `r`-th place, from 0, that is not among those in use. -/
def nthFree (used : List Nat) (r : Nat) : Nat :=
  (upTo (used.length + 1)).foldl (fun x _ => r + (used.filter fun u => decide (u ≤ x)).length) r

/-- The address of place `i` of an adder's share of a log area: the granules that the interleave places on its stack, in ascending
order, less the 64 bytes of the CLOSE word (R157, R158). -/
def State.logPlace (s : State) (e st i : Nat) : Nat :=
  let lo := s.oregWord e 2
  let j := i + (if s.stackOf lo = st then 2 else 0)
  let row := if s.spared then 992 else 1024
  let g := s.granulesBelow st (lo / 512) + j / 16
  let col := ((upTo row).filter fun c => decide (s.stackOf ((g / (row / 16) * row + c) * 512) = st)).getD (g % (row / 16)) 0
  (g / (row / 16) * row + col) * 512 + j % 16 * 32

/-- Log a contribution on the adder of its stack: an entry of 32 bytes in a free place of its share of the log area; which place, and
how the entry lies in it, are free (R158, log entry 25). The caller has checked the share. -/
def State.logPut (s : State) (e a key v bytes etype : Nat) : State :=
  let st := s.stackOf a
  let used := (s.msa.log.filter fun x => x.oreg = e ∧ x.adder = st).map (·.slot)
  let (r, s1) := s.free 55
  let slot := nthFree used (r % (s.logShare e st - used.length))
  let s2 := s1.store (s1.logPlace e st slot) ((upTo 32).map fun i => Config.logByte a key v etype i)
  ({ s2 with msa := { s2.msa with log := s2.msa.log ++ [(⟨e, st, a, key, v, bytes, etype, slot⟩ : OrdEntry)] } }).bump rMsaLogUsed 1 st

/-- The refusal of a contribution whose adder has no room (R160). -/
def State.logRefuse (s : State) (e st : Nat) : State :=
  let s1 := if s.rd rMsaOrdFull st = 0 then s.raise tyMsa st eRange e 0 else s
  s1.bump rMsaOrdFull 1 st

/-- Fold order: address, then key, then value bits (R159). -/
def foldLe (x y : OrdEntry) : Bool :=
  if x.addr = y.addr then (if x.key = y.key then decide (x.val ≤ y.val) else decide (x.key < y.key))
  else decide (x.addr < y.addr)

/-- Insert a contribution in fold order. -/
def foldInsert (x : OrdEntry) : List OrdEntry → List OrdEntry
  | [] => [x]
  | y :: ys => if foldLe x y then x :: y :: ys else y :: foldInsert x ys

/-- The contributions in fold order. -/
def foldSort (l : List OrdEntry) : List OrdEntry := l.foldr foldInsert []

/-- Apply one contribution to memory; a poisoned word stays poisoned and is counted (R160). -/
def State.foldEntry (s : State) (x : OrdEntry) : State :=
  match s.lineState x.addr with
  | .plain _ =>
    let r := etypeAdd x.etype (natLE (s.peekN x.addr x.bytes)) x.val
    let s1 := s.store x.addr (bytesLE x.bytes r.1)
    if r.2 then s1.bump rMsaLaccSpecial 1 x.adder else s1
  | .denied | .poisoned | .fenced => s.noteLine x.addr

/-- FOLDING of every adder (Table 8-8). -/
def State.setFolding (s : State) (b : Bool) : State :=
  (upTo 16).foldl (fun t i => (t.setFlag rMsaStat 1 b i).setFlag rMsaStat 0 b i) s

/-- An atomic on the CLOSE word of a valid entry: the fold takes the contributions logged so far, or waits for the running
fold (R159). -/
def State.closeStart (s : State) (e : Nat) (who : FoldBy) : State :=
  match s.msa.fold with
  | some _ => { s with msa := { s.msa with waiting := s.msa.waiting ++ [(e, who)] } }
  | none =>
    ({ s with msa := { s.msa with fold := some ⟨e, s.msa.log.filter (fun x => x.oreg = e), who⟩ } }).setFolding true

/-- Apply every contribution of the running fold and free its log entries (R159). -/
def State.foldApply (s : State) (f : Fold) : State :=
  let s1 := (foldSort f.entries).foldl State.foldEntry s
  let s2 := { s1 with msa := { s1.msa with log := f.entries.foldl List.erase s1.msa.log, fold := none } }
  let s3 := f.entries.foldl (fun t x => t.wr rMsaLogUsed (t.rd rMsaLogUsed x.adder - 1) x.adder) s2
  (s3.bump rMsaFolds).setFolding false

/-- The elements of a block add: address and value of each (Table 10-2, OPF). -/
def blockElems (etype a : Nat) (data : List Byte) : List (Nat × Nat) :=
  let n := etypeBytes etype
  (upTo (data.length / n)).map fun i => (a + i * n, fieldLE data (i * n) n)

/-- Perform a block add on local memory, unordered elements added at once and ordered ones logged under the key; the code is
E_NONE or the refusal of R160 or R217. -/
def State.blockAdd (s : State) (etype a : Nat) (key : Option Nat) (data : List Byte) : State × Nat :=
  let elems := blockElems etype a data
  let ordered := elems.filterMap fun x => (s.oregOf x.1).map fun e => (e, x)
  if ordered ≠ [] ∧ key = none then (s, eBadcmd)
  else
    let lacking := (upTo 16).filter fun st =>
      (upTo 16).any fun e =>
        let need := (ordered.filter fun y => y.1 = e ∧ s.stackOf y.2.1 = st).length
        decide (0 < need) && decide (s.logShare e st < s.logUsed e st + need)
    match lacking, ordered with
    | l :: ls, (e, _) :: _ => ((l :: ls).foldl (fun t st => t.logRefuse e st) s, eRange)
    | _, _ =>
      (elems.foldl (fun t x =>
        match t.oregOf x.1 with
        | some e => t.logPut e x.1 (key.getD 0) x.2 (etypeBytes etype) etype
        | none =>
          match t.lineState x.1 with
          | .plain _ =>
            let r := etypeAdd etype (natLE (t.peekN x.1 (etypeBytes etype))) x.2
            let t1 := t.store x.1 (bytesLE (etypeBytes etype) r.1)
            if r.2 then t1.bump rMsaLaccSpecial 1 (t1.stackOf x.1) else t1
          | .denied | .poisoned | .fenced => t.noteLine x.1) s, eNone)

/-- Discard every contribution of an entry and clear the entry (R157). -/
def State.oregClear (s : State) (e : Nat) : State :=
  let gone := s.msa.log.filter fun x => x.oreg = e
  let s1 := { s with msa := { s.msa with log := s.msa.log.filter fun x => x.oreg ≠ e } }
  let s2 := gone.foldl (fun t x => t.wr rMsaLogUsed (t.rd rMsaLogUsed x.adder - 1) x.adder) s1
  (upTo 16).foldl (fun t i => (upTo 4).foldl (fun u w => u.wr rMsaOreg 0 i (32 * e + 8 * w)) t) s2

/-- Boundaries that an entry may have: aligned, region and log area below the protected region, apart from each other and from
every other valid entry; a valid entry's region and log area hold something (R157, R337). -/
def State.oregFits (s : State) (valid : Bool) (e base limit lo hi : Nat) : Bool :=
  let ok := fun (a b : Nat) => decide (a % 2 ^ 21 = 0) && decide (b % 2 ^ 21 = 0) && (!valid || decide (a < b)) &&
    decide (a ≤ s.protBase) && decide (b ≤ s.protBase)
  let apart := fun (a b c d : Nat) => decide (b ≤ c) || decide (d ≤ a) || decide (b ≤ a) || decide (d ≤ c)
  ok base limit && ok lo hi && apart base limit lo hi &&
    (upTo 16).all fun k => decide (k = e) || !s.oregValid k ||
      (([(0, 1), (2, 3)] : List (Nat × Nat)).all fun w =>
        apart base limit (s.oregWord k w.1) (s.oregWord k w.2) && apart lo hi (s.oregWord k w.1) (s.oregWord k w.2))

/-- Write a word of an entry in every MSA page. -/
def State.oregPut (s : State) (e w v : Nat) : State := (upTo 16).foldl (fun t i => t.wr rMsaOreg v i (32 * e + 8 * w)) s

/-- Invalidate all entries, at JOB_LOAD, RESTORE and job end (R157). -/
def State.oregClearAll (s : State) : State :=
  let s1 := (upTo 16).foldl State.oregClear s
  ({ s1 with msa := {} }).setFolding false

end Sys2Proof.Machine
end

