-- ==== Sys2Proof/Machine/PowerBase.lean ====
section
/-!
DEFINITION. Clock grants and the Roundabout: which domains are wanted, the wake and release queue, predictions, planning and
LOADSTEP_N (R13, R14, R297, R302 to R307).
-/

namespace Sys2Proof.Machine

/-! ### Domains and units (Tables 1-4 and 15-3) -/

/-- The units of a gated domain. -/
def domUnits (d : Nat) : Nat :=
  if d = 3 then 64 else if d = 4 then 4 else if 5 ≤ d ∧ d ≤ 8 then 64 else if 9 ≤ d ∧ d ≤ 12 then 6
  else if 13 ≤ d ∧ d ≤ 16 then 16 else if d = 17 then 12 else if d = 18 then 48 else if d = 19 ∨ d = 20 then 8
  else if d = 21 then 16 else if 22 ≤ d ∧ d ≤ 24 then 1 else 0

/-- The gated domains, in order. -/
def gatedDomains : List Nat := (upTo 22).map (· + 3)

/-- The rail of an A-die's logic. -/
def dieRail (k : Nat) : Nat := 2 + k

/-- The A-die of the stack that a unit of HBMC-W, HBMC-E or HBM PHY serves (R9). -/
def unitDie (d u : Nat) : Nat :=
  if d = 19 then 2 * (u / 4) else if d = 20 then 2 * (u / 4) + 1 else u / 4

/-- The rails of a unit with the reference envelope in 0.1 A (Table 15-3). SRAM steps of 0.25 A need uA. -/
def envelopeRef (d u : Nat) : List (Nat × Nat) :=
  if d = 3 then [(1, 4000000), (6, 200000)]
  else if d = 4 then [(1, 8000000)]
  else if 5 ≤ d ∧ d ≤ 8 then [(dieRail (d - 5), 4000000), (6, 250000)]
  else if 9 ≤ d ∧ d ≤ 12 then [(dieRail (d - 9), 4000000), (6, 250000)]
  else if 13 ≤ d ∧ d ≤ 16 then [(6, 1500000)]
  else if d = 17 then [(7, 6000000)]
  else if d = 18 then [(8, 3000000)]
  else if d = 19 ∨ d = 20 then [(dieRail (unitDie d u), 4000000), (10, 4000000)]
  else if d = 21 then [(dieRail (unitDie d u), 3000000), (11, 4000000)]
  else if d = 22 then [(7, 6000000)]
  else if d = 23 then [(7, 3000000)]
  else if d = 24 then [(7, 1000000)]
  else []

/-- The envelope of a unit on a rail in uA: a unit entry of the power-envelope record replaces Table 15-3 for its domain and
rail (R302). -/
def Power.envelope (p : Power) (d u r : Nat) : Nat :=
  let ref := ((envelopeRef d u).find? fun x => x.1 = r).map (·.2)
  match p.steps.find? fun x => x.1 = d ∧ x.2.1 = r with
  | some x => if 2 ≤ r ∧ r ≤ 5 ∧ ref = none then 0 else x.2.2 * 100000
  | none => ref.getD 0

/-- The history of a domain on a rail (R302). -/
def Power.history (p : Power) (d r : Nat) : List Nat := SMap.get [] p.hist (16 * d + r)

/-- The predicted step of a unit on a rail in uA: 9/8 of the largest of the last four measurements, never above the
envelope, and the envelope without history (R302). -/
def Power.predict (p : Power) (d u r : Nat) : Nat :=
  let env := p.envelope d u r
  match p.history d r with
  | [] => env
  | h => min env ((h.foldl max 0 * 9 + 7) / 8)

/-- The predictions of a unit on the fourteen rails. -/
def Power.predictAll (p : Power) (d u : Nat) : List Nat := (upTo 14).map (p.predict d u)

/-! ### Grants (R13, R14) -/

/-- HBM is in use (R14). -/
def State.hbmInUse (s : State) : Bool := s.job.isSome || !s.power.uses.isEmpty

/-- A port is up: FPORT_STAT.STATE is UP, RETUNE or BOOT, the states that carry frames (Table 11-6; log entry 82). -/
def State.anyPortUp (s : State) : Bool := (upTo 48).any fun p => ([7, 8, 10] : List Nat).contains (s.fld rFportStat 3 0 p)

/-- A region of an A-die's LLM is in scratchpad mode. -/
def State.anyScratch (s : State) (k : Nat) : Bool := decide (s.fld rLlmRegMode 15 0 k ≠ 0)

/-- A domain's grant condition holds (Table 1-4, R13). -/
def State.grantWanted (s : State) (d : Nat) : Bool :=
  if d = 3 ∨ d = 4 then s.job.isSome
  else if 5 ≤ d ∧ d ≤ 12 then s.power.phase.contains d
  else if 13 ≤ d ∧ d ≤ 16 then s.power.phase.contains d || s.anyScratch (d - 13) || (s.hbmInUse && s.job.isNone)
  else if d = 17 ∨ d = 18 then s.anyPortUp
  else if d = 19 ∨ d = 20 ∨ d = 21 then s.hbmInUse
  else if d = 22 then s.isBridge
  else if d = 23 then decide (s.fld rSecStat 2 0 = 2)
  else if d = 24 then decide (s.hdr tyDbg 0 hPageCtrl % 2 = 1)
  else false

/-- The units of a domain that are ungated once every plan has run. -/
def Power.projected (p : Power) (d : Nat) : Nat :=
  let mine := p.plan.filter fun x => x.dom = d ∧ p.quantum < x.quantum
  SMap.get 0 p.up d + (mine.filter (·.up)).length - (mine.filter fun x => !x.up).length

/-- Insert a request by the quantum it was made in and its domain (R303). -/
def insertWake (w : WakeReq) : List WakeReq → List WakeReq
  | [] => [w]
  | x :: xs => if x.asked < w.asked ∨ (x.asked = w.asked ∧ x.dom < w.dom) then x :: insertWake w xs else w :: x :: xs

/-- Request a wake or a release of a domain: the unplanned rest of the opposite request is dropped (R306). -/
def State.askGrant (s : State) (d : Nat) (on : Bool) : State :=
  let p := s.power
  let n := if on then domUnits d - p.projected d else p.projected d
  let q := p.queue.filter fun w => w.dom ≠ d
  let w : WakeReq := { dom := d, up := on, units := n, left := n, asked := p.quantum, earliest := p.quantum + 9 }
  let p1 := { p with
    wanted := if on then p.wanted ++ [d] else p.wanted.filter (· ≠ d)
    queue := if n = 0 ∨ p.dead.contains d then q else insertWake w q }
  ({ s with power := p1 }).bump rPwrWakeReq

/-- The state of a domain as the CLK page shows it (R303, R306, Table 15-10). -/
def State.clkOf (s : State) (d : Nat) : Nat :=
  let p := s.power
  if p.dead.contains d then 0
  else
    let n := SMap.get 0 p.up d
    match p.plan.find? fun x => x.dom = d ∧ x.quantum ≤ p.quantum with
    | some x => if x.up then 1 else 3
    | none => if n = domUnits d then 2 else if n = 0 then 0 else if p.wanted.contains d then 1 else 3

/-- The domain that clocks the controller of a stack: HBMC-W or HBMC-E (R9). -/
def sideDomain (stack : Nat) : Nat := if stack / 4 % 2 = 0 then 19 else 20

/-- SELF_REFRESH of each stack: held once its controller or the interface has stopped after training, left when both run (R14;
log entry 81). -/
def State.syncRefresh (s : State) : State :=
  (upTo 16).foldl (fun t i =>
    let c := s.clkOf (sideDomain i)
    let p := s.clkOf 21
    if c = 2 ∧ p = 2 then t.setFlag rHbmcStat 0 false i
    else if (c = 0 ∨ p = 0) ∧ s.fld rAonBootStat 2 0 = 4 then t.setFlag rHbmcStat 0 true i
    else t) s

/-- Bring CLK_STATE and the pending bits of PWR_STAT in line with the Roundabout. -/
def State.syncClk (s : State) : State :=
  let v := gatedDomains.foldl (fun v d => withBits v (2 * d - 1) (2 * d - 2) (s.clkOf d)) (s.rd rClkState)
  let p := s.power
  let deferring := p.queue.any fun w => w.up && decide (w.left = w.units) && decide (w.earliest ≤ p.quantum + 8)
  let env := p.queue.any fun w => (upTo (domUnits w.dom)).any fun u =>
    (upTo 14).any fun r => decide (0 < p.envelope w.dom u r) && (p.history w.dom r).isEmpty
  (((s.wr rClkState v).setFlag rPwrStat 20 deferring).setFlag rPwrStat 19 env).syncRefresh

/-- Request what the grant conditions ask for now, in ascending domain number. -/
def State.syncGrants (s : State) : State :=
  (gatedDomains.foldl (fun t d =>
    let on := t.grantWanted d
    if on = t.power.wanted.contains d then t else t.askGrant d on) s).syncClk

/-- Begin a use of HBM (R14). -/
def State.useHbm (s : State) (u : HbmUse) : State :=
  ({ s with power := { s.power with uses := if s.power.uses.contains u then s.power.uses else s.power.uses ++ [u] } }).syncGrants

/-- End a use of HBM. -/
def State.dropHbm (s : State) (u : HbmUse) : State :=
  ({ s with power := { s.power with uses := s.power.uses.filter (· ≠ u) } }).syncGrants

/-- The named domains run (R21). -/
def State.domainsRun (s : State) (ds : List Nat) : Bool := ds.all fun d => decide (s.clkOf d = 2)

/-- The controllers and interfaces of every stack run, so that no access to HBM waits at a stopped domain (R13, R14). -/
def State.hbmRuns (s : State) : Bool := s.domainsRun [19, 20, 21]

/-- The domains behind a local address run: of its LLM's die in the scratchpad window, else of HBM (R11, R13). -/
def State.addrRuns (s : State) (a : Nat) : Bool :=
  if llmBase ≤ a then s.domainsRun [13 + a % 0x20000000 / 0x800000 / 16] else s.hbmRuns

/-- An access that no job makes also finds the LLMs running (R14). -/
def State.pathRuns (s : State) : Bool := s.hbmRuns && (s.job.isSome || s.domainsRun [13, 14, 15, 16])

/-! ### Throttle levels and frequencies (R15, R308, Table 15-10) -/

/-- The throttle level of a die: 0 the P-die, 1 to 4 A0 to A3, 5 the F-die. -/
def State.level (s : State) (die : Nat) : Nat := s.fld rPwrThrottle (4 * die + 3) (4 * die)

/-- The nominal frequency of a domain in kHz. -/
def nominalKhz (d : Nat) : Nat :=
  if d = 1 then 25000 else if d = 2 then 400000 else if d = 3 then 1800000 else if d = 4 then 1200000
  else if 5 ≤ d ∧ d ≤ 12 then 1800000 else if 13 ≤ d ∧ d ≤ 16 then 1200000 else if d = 17 then 1600000
  else if d = 18 then 1562500 else if d = 19 ∨ d = 20 then 1000000 else if d = 21 then 4000000
  else if d = 22 ∨ d = 23 then 1000000 else if d = 24 then 400000 else if d = 25 then 50000 else 0

/-- The die that throttles a domain. -/
def throttleDie (d : Nat) : Option Nat :=
  if d = 3 ∨ d = 4 then some 0
  else if 5 ≤ d ∧ d ≤ 16 then some ((d - 5) % 4 + 1)
  else if d = 17 then some 5 else none

/-- CLK_FREQ of a domain: 0 when stopped, its throttled frequency otherwise (R308). -/
def State.clkFreq (s : State) (d : Nat) : Nat :=
  if s.rd rClkState / 2 ^ (2 * d - 2) % 4 = 0 then 0
  else
    match throttleDie d with
    | some die => nominalKhz d * (16 - s.level die) / 16
    | none => nominalKhz d

/-- Clear the history and the counters of R315 (JOB_LOAD, RESTORE). -/
def State.clearPower (s : State) : State :=
  let s1 := { s with power := { s.power with hist := [], deferSeen := false } }
  ((((s1.wr rPwrWakeReq 0).wr rPwrWakeDefer 0).wr rPwrDeferMax 0).wr rPwrPredMiss 0).syncClk

end Sys2Proof.Machine
end

