-- ==== Sys2Proof/Machine/Notes.lean ====
section
/-!
DEFINITION. Log entries, and the reports that a report node takes in (R221, R246, R348, R350).
-/

namespace Sys2Proof.Machine

/-- SCH_STATE.STATE (Table 2-10). -/
abbrev stIdle : Nat := 0
abbrev stLoading : Nat := 1
abbrev stReady : Nat := 2
abbrev stRunning : Nat := 3
abbrev stDraining : Nat := 4
abbrev stCheckpoint : Nat := 5
abbrev stHold : Nat := 6
abbrev stEnding : Nat := 7

/-- The job state. -/
def State.jobState (s : State) : Nat := s.fld rSchState 3 0

/-- Set the job state. -/
def State.setJobState (s : State) (v : Nat) : State := s.setFld rSchState 3 0 v

/-- A TENANT session is open (Table 16-11). -/
def State.tenantOpen (s : State) : Bool := decide (s.fld rSecStat 2 0 = 2) && decide (s.fld rSecStat 5 4 = 1)

/-- A firmware processor runs (Table 17-6). -/
def State.fwRunning (s : State) (i : Nat) : Bool := decide (s.fld rFwpStat 3 0 i = 3)

/-! ### Log (R348 to R350) -/

/-- Post a log entry: `src` a FWP instance, or 0xFF for the restart hardware, `lvl` 0 ERROR, 1 WARN, 2 INFO, 3 TRACE, and
whether the point carries fine telemetry. -/
def State.logPost (s : State) (src lvl point a0 a1 : Nat) (fine : Bool := false) : State :=
  if lvl = 3 ∧ ¬ bitOf (s.rd rDbgTraceEn) (bitsOf point 9 4) then s
  else if s.down 5 ∨ 64 ≤ s.log.queue.length then s.bump rDbgLogDrop
  else
    let hide := fine && s.tenantOpen
    let step := if s.job.isSome then s.rd rSchStep else 0
    let e := bytesLE 1 src ++ bytesLE 1 lvl ++ bytesLE 2 point ++ bytesLE 8 step ++ bytesLE 8 (if hide then 0 else a0) ++
      bytesLE 8 (if hide then 0 else a1)
    let s1 := { s with log := { s.log with queue := s.log.queue ++ [e] } }
    if s.log.queue.isEmpty then
      (s1.setHdr tyDbg 0 hPageCtrl (withBit (s1.hdr tyDbg 0 hPageCtrl) 0 true)).useHbm .log
    else s1

/-- A processor that runs posts a log entry. -/
def State.fwLog (s : State) (fwp lvl point a0 a1 : Nat) (fine : Bool := false) : State :=
  if s.down fwp then s else s.logPost fwp lvl point a0 a1 fine

/-! ### Reports (R221, R246) -/

/-- The node that takes this node's reports (FXP_REPORT_NODE). -/
def State.reportNode (s : State) : Nat :=
  if s.flag rFxpReportNode 15 then s.fld rFxpReportNode 13 0 else s.nodeId / 32 * 32

/-- The session ID of the loaded job, or of a RESTORE that is reading; 0 with none. -/
def State.sess (s : State) : Nat :=
  match s.job, s.ckpt.restore with
  | some j, _ => j.sess
  | none, some r => r.sess
  | none, none => 0

/-- A node report (Table 10-10). -/
def State.reportBytes (s : State) (kind err subject : Nat) : List Byte :=
  bytesLE 1 kind ++ bytesLE 1 err ++ bytesLE 2 s.nodeId ++ bytesLE 2 subject ++ bytesLE 2 s.sess ++
    bytesLE 8 (s.rd rSchStep) ++ List.replicate 16 0

/-- Forward a report to the host: EVENT and HIF_DONE set a bit of HBR_PEND, every other report enters the queue of 64
(R246). -/
def State.takeReport (s : State) (b : List Byte) : State :=
  let kind := fieldLE b 0 1
  if kind = 0x10 ∨ kind = 0x11 then
    let m := fieldLE b 2 2 % 32
    let s1 := s.setFlag rHbrPend m true
    if s.flag rHbrPend m then s1 else s1.msix m
  else if 64 ≤ s.hbr.queue.length then s.bump rHbrRptLost
  else
    let s1 := ({ s with hbr := { s.hbr with queue := s.hbr.queue ++ [b] } }).wr rHbrRptCount (s.hbr.queue.length + 1)
    if s.hbr.queue.isEmpty then s1.msix 32 else s1

end Sys2Proof.Machine
end

