-- ==== Sys2Proof/Machine/Wire.lean ====
section
/-!
DEFINITION. The bytes of requests, responses, packets and frames (R226, R229, Tables 10-2 to 10-4 and 11-2 to 11-4).
-/

namespace Sys2Proof

open Machine

/-! ### Requests and responses -/

/-- The header and payload of a request (Table 10-2). -/
def Req.bytes (typ : Nat) (q : Req) : List Byte :=
  bytesLE 1 typ ++ [q.opf, q.flags, q.orig] ++ bytesLE 2 q.src.toNat ++ bytesLE 2 q.dst.toNat ++ bytesLE 2 q.tag.toNat ++
    bytesLE 2 q.sess.toNat ++ bytesLE 4 q.seq.toNat ++ bytesLE 4 q.ackFloor.toNat ++ bytesLE 2 q.age.toNat ++
    bytesLE 2 q.len.toNat ++ bytesLE 8 q.addr.toNat ++ q.payload

/-- The header and data of a response (Table 10-4). -/
def Rsp.bytes (typ : Nat) (p : Rsp) : List Byte :=
  bytesLE 1 typ ++ [p.err, p.flags, 0] ++ bytesLE 2 p.src.toNat ++ bytesLE 2 p.dst.toNat ++ bytesLE 2 p.tag.toNat ++
    bytesLE 2 p.age.toNat ++ bytesLE 4 p.seq.toNat ++ p.data

/-- The members of a mask, in ascending order. -/
def maskList (mask : Nat) : List Nat := (upTo 32).filter (bitOf mask)

/-- The payload bytes that a request header announces: none for a LOAD, the extension before LEN bytes with FLAGS.EXT (R218). -/
def payloadLen (typ flags len : Nat) (rest : List Byte) : Nat :=
  if typ = 0x01 then 0
  else if bitOf flags 2 then 4 + 4 * (maskList (fieldLE rest 0 4)).length + len
  else len

/-- Read a request; what follows its payload in the last block is no part of it. -/
def readReq (b : List Byte) : Req :=
  let rest := b.drop 32
  { opf := BitVec.ofNat 8 (fieldLE b 1 1), flags := BitVec.ofNat 8 (fieldLE b 2 1), orig := BitVec.ofNat 8 (fieldLE b 3 1)
    src := BitVec.ofNat 16 (fieldLE b 4 2), dst := BitVec.ofNat 16 (fieldLE b 6 2), tag := BitVec.ofNat 16 (fieldLE b 8 2)
    sess := BitVec.ofNat 16 (fieldLE b 0xA 2), seq := BitVec.ofNat 32 (fieldLE b 0xC 4)
    ackFloor := BitVec.ofNat 32 (fieldLE b 0x10 4), age := BitVec.ofNat 16 (fieldLE b 0x14 2)
    len := BitVec.ofNat 16 (fieldLE b 0x16 2), addr := BitVec.ofNat 64 (fieldLE b 0x18 8)
    payload := rest.take (payloadLen (fieldLE b 0 1) (fieldLE b 2 1) (fieldLE b 0x16 2) rest) }

/-- Read a response; its data runs to the end of the last block, and the request tells how much of it counts. -/
def readRsp (b : List Byte) : Rsp :=
  { err := BitVec.ofNat 8 (fieldLE b 1 1), flags := BitVec.ofNat 8 (fieldLE b 2 1), src := BitVec.ofNat 16 (fieldLE b 4 2)
    dst := BitVec.ofNat 16 (fieldLE b 6 2), tag := BitVec.ofNat 16 (fieldLE b 8 2), age := BitVec.ofNat 16 (fieldLE b 0xA 2)
    seq := BitVec.ofNat 32 (fieldLE b 0xC 4), data := b.drop 16 }

/-! ### What a packet carries -/

/-- A TYPE of a response (Table 10-3). -/
def isRspType (typ : Nat) : Bool := decide (0x10 ≤ typ) && decide (typ ≤ 0x12)

/-- TYPE. -/
def Cargo.typ : Cargo → Nat
  | .request t _ => t.toNat
  | .response t _ => t.toNat

/-- DST. -/
def Cargo.dst : Cargo → Nat
  | .request _ q => q.dst.toNat
  | .response _ p => p.dst.toNat

/-- AGE. -/
def Cargo.age : Cargo → Nat
  | .request _ q => q.age.toNat
  | .response _ p => p.age.toNat

/-- Set AGE. -/
def Cargo.withAge (a : Nat) : Cargo → Cargo
  | .request t q => .request t { q with age := BitVec.ofNat 16 a }
  | .response t p => .response t { p with age := BitVec.ofNat 16 a }

/-- Header and payload. -/
def Cargo.bytes : Cargo → List Byte
  | .request t q => q.bytes t.toNat
  | .response t p => p.bytes t.toNat

/-- The length of header and payload. -/
def Cargo.size : Cargo → Nat
  | .request _ q => 32 + q.payload.length
  | .response _ p => 16 + p.data.length

/-- A multicast packet: TYPE MCAST, or COLL with the extension (R218, R261). -/
def Cargo.isMcast : Cargo → Bool
  | .request t q => decide (t.toNat = 0x06) || (decide (t.toNat = 0x07) && bitOf q.flags.toNat 2)
  | .response _ _ => false

/-- It is a response. -/
def Cargo.isRsp : Cargo → Bool
  | .request _ _ => false
  | .response _ _ => true

/-- It may go over a port in BOOT: a relay request, or an answer to one (R340). -/
def Cargo.boots : Cargo → Bool
  | .request _ q => decide (q.orig.toNat % 8 = 3)
  | .response _ _ => true

/-! ### Packets (Table 11-4) -/

/-- RFLAGS.NONMIN. -/
def Packet.nonmin (k : Packet) : Bool := bitOf k.rflags.toNat 0

/-- RFLAGS.INGROUP. -/
def Packet.ingroup (k : Packet) : Bool := bitOf k.rflags.toNat 1

/-- RFLAGS.PASSED. -/
def Packet.passed (k : Packet) : Bool := bitOf k.rflags.toNat 2

/-- RFLAGS.LEVEL. -/
def Packet.level (k : Packet) : Nat := bitsOf k.rflags.toNat 5 4

/-- Set bit `b` of RFLAGS: 0 NONMIN, 1 INGROUP, 2 PASSED, 3 REROUTED. -/
def Packet.setFlag (k : Packet) (b : Nat) : Packet := { k with rflags := BitVec.ofNat 8 (withBit k.rflags.toNat b true) }

/-- Raise LEVEL, 2 at most (R230). -/
def Packet.raise (k : Packet) : Packet := { k with rflags := BitVec.ofNat 8 (withBits k.rflags.toNat 5 4 (min 2 (k.level + 1))) }

/-- The virtual channel of a packet (Table 11-5). -/
def Packet.vc (k : Packet) : Nat := (if k.cargo.isRsp then 3 else 0) + min 2 k.level

/-- The blocks of a packet: the prefix, the header and the payload, in whole blocks (R229). -/
def Packet.blocks (k : Packet) : Nat := (8 + k.cargo.size + 255) / 256

/-- Route prefix, header and payload. -/
def Packet.bytes (k : Packet) : List Byte :=
  [k.rflags, k.hops] ++ bytesLE 2 k.inter.toNat ++ bytesLE 2 k.target.toNat ++ [0, 0] ++ k.cargo.bytes

/-- Read a packet. -/
def readPacket (b : List Byte) : Packet :=
  let c := b.drop 8
  let t := fieldLE c 0 1
  { rflags := BitVec.ofNat 8 (fieldLE b 0 1), hops := BitVec.ofNat 8 (fieldLE b 1 1), inter := BitVec.ofNat 16 (fieldLE b 2 2)
    target := BitVec.ofNat 16 (fieldLE b 4 2)
    cargo := if isRspType t then .response (BitVec.ofNat 8 t) (readRsp c) else .request (BitVec.ofNat 8 t) (readReq c) }

end Sys2Proof

namespace Sys2Proof.Machine

/-! ### Blocks and frames (R226, R229, Tables 11-2 and 11-3) -/

/-- Fill a list of bytes with zeros up to a length. -/
def padTo (n : Nat) (b : List Byte) : List Byte := b.take n ++ List.replicate (n - b.length) 0

/-- The blocks of a packet, in order; the last one is filled with zeros (log entry 92). -/
def packetBlocks (k : Packet) : List Block :=
  let b := k.bytes
  let n := k.blocks
  (upTo n).map fun i => { vc := k.vc, sop := decide (i = 0), eop := decide (i + 1 = n), data := padTo 256 ((b.drop (256 * i)).take 256) }

/-- The type byte of a packet block. -/
def Block.typeByte (b : Block) : Nat := 0x40 + 8 * b.vc + 4 * b.sop.toNat + 2 * b.eop.toNat

/-- The link control block: FSEQ, ACK_FSEQ, FLAGS and CREDITS. -/
def controlBlock (fseq ack flags : Nat) (credits : List Nat) : List Byte :=
  bytesLE 8 fseq ++ bytesLE 8 ack ++ bytesLE 1 flags ++ [0] ++ (upTo 7).flatMap (fun i => bytesLE 2 (credits.getD i 0)) ++
    List.replicate 224 0

/-- The type bytes of the twenty blocks with the packet blocks given, the rest idle. -/
def frameTypes (bs : List Block) : List Byte :=
  [0x80] ++ (upTo 17).map (fun i => BitVec.ofNat 8 ((bs[i]?).elim 0 Block.typeByte)) ++ [0x81, 0xC0]

/-- The content of the seventeen packet blocks. -/
def frameData (bs : List Block) : List Byte := (upTo 17).flatMap fun i => (bs[i]?).elim (List.replicate 256 0) (·.data)

/-- Put a frame together: each block is its type byte and its content. -/
def joinFrame (types : List Byte) (control data service trailer : List Byte) : List Byte :=
  let content := control ++ padTo 4352 data ++ padTo 256 service ++ padTo 256 trailer
  (upTo 20).flatMap fun i => (types.getD i 0) :: (content.drop (256 * i)).take 256

/-- The nonce of a frame: FSEQ, the sender's node ID and its port (R231). -/
def frameNonce (fseq node port : Nat) : List Byte := bytesLE 8 fseq ++ bytesLE 2 node ++ bytesLE 2 port

/-- What the twenty blocks of a received frame hold. -/
structure FrameView where
  types : List Byte
  control : List Byte
  data : List Byte
  service : List Byte
  tag : List Byte
  deriving DecidableEq, Repr

/-- Take a frame apart. -/
def splitFrame (b : List Byte) : FrameView :=
  let blk := fun (i : Nat) => (b.drop (257 * i)).take 257
  { types := (upTo 20).map fun i => (blk i).getD 0 0
    control := (blk 0).drop 1, data := (upTo 17).flatMap fun i => (blk (i + 1)).drop 1
    service := (blk 18).drop 1, tag := ((blk 19).drop 1).take 16 }

/-- The data authenticated beside the packet blocks: the type bytes and the content of blocks 0 and 18 (R231). -/
def frameAad (types control service : List Byte) : List Byte := types ++ control ++ service

/-- The packet blocks of a frame's types and text: VC, SOP, EOP and content; idle blocks hold none. -/
def dataBlocks (types text : List Byte) : List Block :=
  (upTo 17).filterMap fun i =>
    let t := (types.getD (i + 1) 0).toNat
    if t / 64 = 1 then
      some { vc := t / 8 % 8, sop := bitOf t 2, eop := bitOf t 1, data := (text.drop (256 * i)).take 256 }
    else none

end Sys2Proof.Machine
end

