-- ==== Sys2Proof/Machine/Switch.lean ====
section
/-!
DEFINITION. The switch: port states, wiring, routes, and the blocks and frames that the ports send (R226 to R231, R234, R237 to
R242).
-/

namespace Sys2Proof.Machine

/-! ### Port states (Table 11-6) -/

abbrev poDark : Nat := 0
abbrev poLight : Nat := 1
abbrev poDetect : Nat := 2
abbrev poLock : Nat := 3
abbrev poAlign : Nat := 4
abbrev poIdentify : Nat := 5
abbrev poKey : Nat := 6
abbrev poUp : Nat := 7
abbrev poRetune : Nat := 8
abbrev poFailed : Nat := 9
abbrev poBoot : Nat := 10

/-- The state of a port. -/
def State.portState (s : State) (p : Nat) : Nat := s.fld rFportStat 3 0 p

/-- A port. -/
def State.port (s : State) (p : Nat) : Port := SMap.get {} s.ports p

/-- Change a port. -/
def State.onPort (s : State) (p : Nat) (f : Port → Port) : State := { s with ports := SMap.set {} s.ports p (f (s.port p)) }

/-! ### Wiring (R234, R237, R238) -/

/-- A gateway's attachment node and port; none without a valid entry (R238). -/
def State.gateway (s : State) (g : Nat) : Option (Nat × Nat) :=
  let w := (SMap.get 0 s.sw.gates g).toNat
  if bitOf w 63 then some (bitsOf w 13 0, bitsOf w 21 16) else none

/-- G − 1. -/
def State.groupsLess1 (s : State) : Nat := s.fld rFswId 24 16

/-- The partner of global link `i` of group `a` in reference wiring: group and link; none for a spare link. -/
def refLink (g1 a i : Nat) : Option (Nat × Nat) :=
  if g1 = 0 then none
  else
    let k := 544 / g1
    if k * g1 ≤ i then none
    else
      let r := i % g1
      some ((a + r + 1) % (g1 + 1), (g1 - 1 - r) + g1 * (i / g1))

/-- The gateway that a valid entry places on a port of this node (R238). -/
def State.gatewayOn (s : State) (p : Nat) : Option Nat := (upTo 64).find? fun g => s.gateway g = some (s.nodeId, p)

/-- The partner that the wiring rule names for a port: kind, node and port (R234, R237). -/
def State.expected (s : State) (p : Nat) : Option (Nat × Nat × Nat) :=
  if s.flag rFswRouteCtrl 1 then
    let w := s.rd rFportExpect p
    if bitsOf w 31 30 = 0 then none else some (bitsOf w 31 30, bitsOf w 13 0, bitsOf w 29 24)
  else
    let me := s.nodeId
    if p ≤ 30 then some (1, me / 32 * 32 + (me % 32 + p + 1) % 32, 30 - p)
    else
      match refLink s.groupsLess1 (me / 32) (17 * (me % 32) + (p - 31)) with
      | some (b, j) => some (1, 32 * b + j / 17, 31 + j % 17)
      | none => none

/-! ### Frames sent (R226, R227, R230, R231) -/

/-- A port carries frames, and the switch and the ports run (R13, R236). -/
def State.linkRuns (s : State) (p : Nat) : Bool :=
  (decide (s.portState p = poUp) || decide (s.portState p = poBoot)) && s.domainsRun [17, 18]

/-- The blocks that a frame can take: dedicated credit is spent first and shared credit after, and a VC whose next block finds
none waits (R230). Answers the blocks taken, those that stay, the credit left and the blocks newly held for credit. -/
def takeBlocks : List Block → List Nat → List Nat → Nat → List Block × List Block × List Nat × Nat
  | [], credit, _, _ => ([], [], credit, 0)
  | b :: bs, credit, shut, room =>
    if room = 0 then ([], b :: bs, credit, 0)
    else if shut.contains b.vc then
      let r := takeBlocks bs credit shut room
      (r.1, b :: r.2.1, r.2.2.1, r.2.2.2)
    else
      let pool := if credit.getD b.vc 0 = 0 then 6 else b.vc
      if credit.getD pool 0 = 0 then
        let r := takeBlocks bs credit (b.vc :: shut) room
        (r.1, { b with stalled := true } :: r.2.1, r.2.2.1, r.2.2.2 + (!b.stalled).toNat)
      else
        let r := takeBlocks bs (credit.set pool (credit.getD pool 0 - 1)) shut (room - 1)
        (b :: r.1, r.2.1, r.2.2.1, r.2.2.2)

/-- FLAGS of the link control block (Table 11-3). -/
abbrev flagNak : Nat := 1
abbrev flagRetune : Nat := 4

/-- Send one frame with these packet blocks: encrypted and authenticated under the port's key in UP, plain in BOOT (R226, R231,
R340); it is kept for replays, and CREDITS returns what has been freed. -/
def State.sendFrame (s : State) (p : Nat) (bs : List Block) (flags : Nat) : State :=
  let x := s.port p
  let types := frameTypes bs
  let control := controlBlock x.txNext x.rxNext (flags + 2 * x.txSlot) x.freed
  let service : List Byte := List.replicate 256 0
  let text := frameData bs
  let bytes :=
    if s.portState p = poBoot then joinFrame types control text service []
    else
      let sealed_ := gcmSeal (SMap.get [] x.keys x.txSlot) (frameNonce x.txNext s.nodeId p) (frameAad types control service) text
      joinFrame types control (sealed_.take 4352) service (sealed_.drop 4352)
  let kept := x.replay ++ [(x.txNext, bytes)]
  let s1 := s.onPort p fun y => { y with
    txNext := y.txNext + 1, freed := noCredit, replay := kept.drop (kept.length - 192) }
  (s1.bump64 rFportTxBlocks bs.length p).emit (.frame p bytes)

/-- Send what waits at a port as far as credit goes. `fuel` bounds the frames. -/
def State.portPump (s : State) (p : Nat) : Nat → State
  | 0 => s
  | fuel + 1 =>
    let x := s.port p
    if !s.linkRuns p || x.txq.isEmpty then s
    else
      let r := takeBlocks x.txq x.credit [] 17
      let s1 := (s.onPort p fun y => { y with txq := r.2.1, credit := r.2.2.1 }).bump rFportCreditStall r.2.2.2 p
      if r.1.isEmpty then s1 else (s1.sendFrame p r.1 0).portPump p fuel

/-- Send what waits at a port. -/
def State.portGo (s : State) (p : Nat) : State := s.portPump p ((s.port p).txq.length + 1)

/-- Send what waits at a port; where blocks have been freed and nothing carries their credit, a frame without packets does
(log entry 92). -/
def State.creditFrame (s : State) (p : Nat) : State :=
  let t := s.portGo p
  if t.linkRuns p && decide ((t.port p).freed ≠ noCredit) then t.sendFrame p [] 0 else t

/-- Queue a packet on a port: one hop more (R229, R240). -/
def State.sendPacket (s : State) (k : Packet) (p : Nat) : State :=
  let k1 := { k with hops := k.hops + 1 }
  ((s.onPort p fun x => { x with txq := x.txq ++ packetBlocks k1 }).emit (.packet p k1)).portGo p

/-! ### Forwarding (R240, R242) -/

/-- A port of a member of the own group is up in FSW_GROUP_UP (R239). -/
def State.portUp (s : State) (member port : Nat) : Bool := bitOf (s.rd rFswGroupUp 0 (8 * (member % 32))) port

/-- The port of member `m` that leads to member `k` of the same group. -/
def localPort (m k : Nat) : Nat := (k + 31 - m) % 32

/-- An own port is up and has its session key (R231, R242). -/
def State.portKeyed (s : State) (p : Nat) : Bool := s.portUp (s.nodeId % 32) p && decide (s.fld rFportStat 17 16 p ≠ 0)

/-- An own port can carry a packet. -/
def State.carries (s : State) (c : Cargo) (p : Nat) : Bool :=
  s.portKeyed p || (decide (s.portState p = poBoot) && c.boots)

/-- The exits of the own group towards a group, as member and port, this node's own first (R238, R240). -/
def State.exits (s : State) (g : Nat) : List (Nat × Nat) :=
  let w := (SMap.get 0 s.sw.exits g).toNat
  let es := (upTo 4).filterMap fun i =>
    let e := bitsOf w (16 * i + 15) (16 * i)
    if bitOf e 15 then some (bitsOf e 12 8, bitsOf e 5 0) else none
  let me := s.nodeId % 32
  (es.filter fun e => e.1 = me) ++ es.filter fun e => e.1 ≠ me

/-- The own port that leads to an exit. -/
def State.exitHop (s : State) (e : Nat × Nat) : Nat :=
  if e.1 = s.nodeId % 32 then e.2 else localPort (s.nodeId % 32) e.1

/-- The packet blocks queued at an own port. -/
def State.queued (s : State) (p : Nat) : Nat := (s.port p).txq.length

/-- The first of a list with the least weight. -/
def leastOf {α : Type} (f : α → Nat) : List α → Option α
  | [] => none
  | x :: xs =>
    match leastOf f xs with
    | none => some x
    | some y => some (if f y < f x then y else x)

/-- The up exit with the least queued: an own exit before another member's (R240). -/
def State.bestExit (s : State) (es : List (Nat × Nat)) : Option (Nat × Nat) :=
  let me := s.nodeId % 32
  let f := fun e => s.queued (s.exitHop e)
  (leastOf f (es.filter fun e => e.1 = me)).or (leastOf f (es.filter fun e => e.1 ≠ me))

/-- The group that an own global port reaches. -/
def State.farGroup (s : State) (p : Nat) : Option Nat :=
  match s.expected p with
  | some (1, n, _) => some (n / 32)
  | _ => none

/-- Rule 2 of R242: through an intermediate group that an own up global port reaches. -/
def State.viaGroup (s : State) (k : Packet) : Option (Nat × Packet × Bool) :=
  if k.level ≠ 0 ∨ k.nonmin then none
  else
    ((upTo 17).map (· + 31)).findSome? fun p =>
      if s.portKeyed p then
        (s.farGroup p).map fun g => (p, { (k.setFlag 3).setFlag 0 with inter := BitVec.ofNat 16 g }, true)
      else none

/-- Rule 3 of R242: an in-group detour through a member whose links to this switch and to member `d` are both up. -/
def State.viaMember (s : State) (k : Packet) (d : Nat) : Option (Nat × Packet × Bool) :=
  let me := s.nodeId % 32
  if 1 < k.level then none
  else
    ((upTo 32).find? fun x =>
      decide (x ≠ me) && decide (x ≠ d) && s.portKeyed (localPort me x) && s.portUp x (localPort x d)).map fun x =>
        let k1 := ((k.setFlag 3).setFlag 0).setFlag 1
        (localPort me x, { k1 with rflags := BitVec.ofNat 8 (withBit k1.rflags.toNat 2 false), inter := BitVec.ofNat 16 x }, true)

/-- Where this switch sends a packet, the packet as it goes, and whether it has been re-routed; none where nothing can carry it
(R240, R242). -/
def State.nextHop (s : State) (k : Packet) : Option (Nat × Packet × Bool) :=
  let me := s.nodeId % 32
  let tg := if k.nonmin ∧ ¬ k.ingroup ∧ ¬ k.passed then k.inter.toNat % 512 else k.target.toNat % 2 ^ 14 / 32
  if tg = s.nodeId / 32 then
    let m := if k.nonmin ∧ k.ingroup ∧ ¬ k.passed then k.inter.toNat % 32 else k.target.toNat % 32
    if s.carries k.cargo (localPort me m) then some (localPort me m, k, false) else s.viaMember k m
  else
    let up := (s.exits tg).filter fun e => s.portUp e.1 e.2
    match s.bestExit up with
    | some e =>
      if s.portKeyed (s.exitHop e) then some (s.exitHop e, k, false)
      else
        match s.bestExit (up.filter fun x => s.portKeyed (s.exitHop x)) with
        | some x => some (s.exitHop x, k.setFlag 3, true)
        | none => if e.1 = me then s.viaGroup k else s.viaMember k e.1
    | none => s.viaGroup k

/-- Send a packet from this switch: re-routed packets are counted, and one that nothing can carry is discarded (R242). -/
def State.forward (s : State) (k : Packet) : State :=
  match s.nextHop k with
  | some (p, k1, re) => (if re then s.bump rFswReroute else s).sendPacket k1 p
  | none => s.bump rFswUnreach

/-! ### Injection (R238, R240) -/

/-- The next of a sorted list of candidates after the one taken last, in rotation. -/
def nextAfter (last : Nat) (xs : List Nat) : Option Nat := (xs.find? fun x => decide (last < x)).or xs.head?

/-- The intermediate groups whose first hop is up. -/
def State.groupsVia (s : State) (tg : Nat) : List Nat :=
  (upTo (s.groupsLess1 + 1)).filter fun g => decide (g ≠ tg) && decide (g ≠ s.nodeId / 32) &&
    (s.exits g).any fun e => s.portUp e.1 e.2 && s.portKeyed (s.exitHop e)

/-- The intermediate members whose first hop is up. -/
def State.membersVia (s : State) (m : Nat) : List Nat :=
  let me := s.nodeId % 32
  (upTo 32).filter fun x => decide (x ≠ m) && decide (x ≠ me) && s.portKeyed (localPort me x)

/-- The blocks queued at the first hop of a packet. -/
def State.hopQueue (s : State) (k : Packet) : Nat := (s.nextHop k).elim 0 fun r => s.queued r.1

/-- A packet goes non-minimally when its candidate's queue times its hops, with ADAPT_BIAS, is less than the minimal queue times
its hops (R240; hops of Table 10-5, log entry 92). -/
def State.prefersVia (s : State) (via min_ : Packet) (h1 h0 : Nat) : Bool :=
  decide (s.hopQueue via * h1 + s.fld rFswRouteCtrl 31 16 < s.hopQueue min_ * h0)

/-- The route class of a packet as its source sends it: minimal, or with ADAPT_EN set through the one candidate considered. -/
def State.routeClass (s : State) (target : Nat) (c : Cargo) : Packet × State :=
  let k : Packet := { rflags := 0, hops := 0, inter := 0, target := BitVec.ofNat 16 target, cargo := c }
  if !s.flag rFswRouteCtrl 0 then (k, s)
  else if target / 32 = s.nodeId / 32 then
    match nextAfter s.sw.lastMember (s.membersVia (target % 32)) with
    | some x =>
      let via := { (k.setFlag 0).setFlag 1 with inter := BitVec.ofNat 16 x }
      (if s.prefersVia via k 2 1 then via else k, { s with sw := { s.sw with lastMember := x } })
    | none => (k, s)
  else
    match nextAfter s.sw.lastGroup (s.groupsVia (target / 32)) with
    | some g =>
      let via := { k.setFlag 0 with inter := BitVec.ofNat 16 g }
      (if s.prefersVia via k 5 3 then via else k, { s with sw := { s.sw with lastGroup := g } })
    | none => (k, s)

/-- The node that a target in the form of R209 is reached at: itself, or a gateway's attachment node (R238). -/
def State.attach (s : State) (target : Nat) : Option Nat :=
  if target < 2 ^ 15 then some (target % 2 ^ 14) else (s.gateway (target % 2 ^ 15)).map (·.1)

/-- An own port that a gateway hangs on. -/
def State.gatePort (s : State) (target : Nat) : Option Nat :=
  if target < 2 ^ 15 then none
  else
    match s.gateway (target % 2 ^ 15) with
    | some (n, p) => if n = s.nodeId then some p else none
    | none => none

/-- A path to a target is up at injection (R209, R242). -/
def State.pathTo (s : State) (target : Nat) (c : Cargo) : Bool :=
  match s.gatePort target, s.attach target with
  | some p, _ => s.portKeyed p
  | none, some n =>
    (s.nextHop { rflags := 0, hops := 0, inter := 0, target := BitVec.ofNat 16 n, cargo := c }).isSome
  | none, none => false

/-- Put a packet of this node on the fabric (R240): to a gateway of this node on its port, to any other target by the switch. -/
def State.inject (s : State) (target : Nat) (c : Cargo) : State :=
  match s.gatePort target, s.attach target with
  | some p, some n =>
    let k : Packet := { rflags := 0, hops := 0, inter := 0, target := BitVec.ofNat 16 n, cargo := c }
    if s.portKeyed p then s.sendPacket k p else s.bump rFswUnreach
  | _, some n =>
    let (k, s1) := s.routeClass n c
    s1.forward k
  | _, none => s.bump rFswUnreach

end Sys2Proof.Machine
end

