-- ==== Sys2Proof/Machine/Fabric.lean ====
section
/-!
DEFINITION. The source side of the transaction engine: tags, streams, the window, overlaps, sending and acknowledging (R190 to
R203, R208, R209, R218).
-/

namespace Sys2Proof.Machine

/-- The key of a stream: the target in the form of R209, and job or system stream (R196). -/
def streamKey (target : Nat) (sys : Bool) : Nat := 2 * target + sys.toNat

/-- ORIG of an owner (Table 10-1). -/
def Owner.orig : Owner → Nat
  | .thread _ => 0
  | .ring _ _ _ | .homeCopy _ | .notice _ | .ckpt _ _ | .rank | .restore _ => 1
  | .holdAt | .report => 2
  | .relayRead _ | .relayWrite _ => 3

/-- The request belongs to the system stream: ORIG 2 or 3 (R196). -/
def Owner.sys (o : Owner) : Bool := decide (2 ≤ o.orig)

/-- A target has been declared dead (R209). -/
def State.deadOf (s : State) (target : Nat) : Option Dead := s.fxp.dead.find? fun d => d.target = target

/-- The fallback of a dead target has been taken: new requests to it complete without a response (R211). -/
def State.goneNode (s : State) (target : Nat) : Bool := (s.deadOf target).elim false (·.fellBack)

/-- The tags of a pool in use. -/
def State.tagsUsed (s : State) (lo hi : Nat) : List Nat :=
  s.fxp.reqs.filterMap fun r =>
    match r.tag with
    | some t => if lo ≤ t ∧ t < hi then some t else none
    | none => none

/-- The first free tag of a pool: `n` tags from `lo`. -/
def State.freeTag (s : State) (lo n : Nat) : Option Nat :=
  ((upTo n).find? fun i => ¬ (s.tagsUsed lo (lo + n)).contains (lo + i)).map fun i => lo + i

/-- A free thread tag (R124). -/
def State.threadTag (s : State) : Option Nat := s.freeTag 0 4096

/-- A free system tag (Table 10-1). -/
def State.systemTag (s : State) : Option Nat := s.freeTag 4096 1024

/-- The requests of a thread that hold a tag (R124). -/
def State.threadReqs (s : State) (t : Nat) : List OutReq := s.fxp.reqs.filter fun r => r.owner = .thread t

/-- The 64-byte lines a request touches at its target; a COLL, an object piece and a report touch none (R198, R199). -/
def linesOf (typ : ReqType) (addr len : Nat) : Option (Nat × Nat) :=
  match typ with
  | .load | .store | .atomic | .atomicP | .blockAdd => some (addr / 64, (addr + len - 1) / 64)
  | .mcast | .coll | .objPut | .objGet | .floorUpd | .nodeReport => none

/-- The bytes of memory that a request covers at its target. -/
def OutReq.span (r : OutReq) : Nat :=
  match r.typ with
  | .blockAdd => r.req.len.toNat - (if bitOf r.req.flags.toNat 0 then 8 else 0)
  | .atomic | .atomicP => if bitOf r.req.opf.toNat 4 then 8 else 4
  | .load | .store | .mcast | .coll | .objPut | .objGet | .floorUpd | .nodeReport => r.req.len.toNat

/-- An unacknowledged write that holds a later request back when both touch a line (R199). -/
def OutReq.isWrite (r : OutReq) : Bool :=
  match r.typ with
  | .store | .atomicP | .blockAdd => true
  | .load | .atomic | .mcast | .coll | .objPut | .objGet | .floorUpd | .nodeReport => false

/-- Two requests touch a common line of a common target (R198). -/
def OutReq.overlaps (w r : OutReq) : Bool :=
  match linesOf w.typ w.req.addr.toNat w.span, linesOf r.typ r.req.addr.toNat r.span with
  | some (a, b), some (c, d) =>
    decide (a ≤ d) && decide (c ≤ b) && (w.copies.any fun x => r.copies.any fun y => x.1 = y.1)
  | _, _ => false

/-- The request waits for the window of a copy's stream (R196). -/
def State.windowWaits (s : State) (r : OutReq) : Bool :=
  r.copies.any fun c =>
    let acked := SMap.get 0 s.fxp.acked (streamKey c.1 r.owner.sys)
    decide (8192 ≤ (c.2 + 2 ^ 32 - acked) % 2 ^ 32)

/-- What a request puts on the fabric, before its header is completed. -/
def OutReq.cargo (r : OutReq) : Cargo := .request (BitVec.ofNat 8 r.typ.code) r.req

/-- A copy of a request may be sent now: its target is not dead for it, and a path is up (R209). -/
def State.sendable (s : State) (r : OutReq) (target : Nat) : Bool :=
  (r.owner.sys || (s.deadOf target).isNone) && s.pathTo target r.cargo

/-- The header of one copy as it is sent: TAG, SEQ, ACK_FLOOR and RETRY, and FLAGS.SYNC on a system request to a target that has
acknowledged none since this node's reset (R200, R202, R203). -/
def State.header (s : State) (r : OutReq) (retry flags : Nat) (c : Nat × Nat) : Req :=
  let sync := r.owner.sys && !s.fxp.synced.contains c.1
  { r.req with
    flags := BitVec.ofNat 8 (r.req.flags.toNat + flags + 16 * sync.toNat)
    orig := BitVec.ofNat 8 (r.owner.orig + 8 * retry)
    dst := BitVec.ofNat 16 (c.1 % 2 ^ 15)
    tag := BitVec.ofNat 16 (r.tag.getD 0)
    seq := BitVec.ofNat 32 c.2
    ackFloor := BitVec.ofNat 32 (SMap.get 0 s.fxp.acked (streamKey c.1 r.owner.sys)) }

/-- A request to another group with the multicast extension: the member mask, then the sequences in ascending member order
(R218). It carries no floor; SYNC is set where a member still needs it (log entry 61). -/
def State.mcastHeader (s : State) (r : OutReq) (cs : List (Nat × Nat)) : Req :=
  let g := (cs.headD (0, 0)).1 / 32 * 32
  let sync := r.owner.sys && cs.any fun c => !s.fxp.synced.contains c.1
  let mask := cs.foldl (fun m c => m ||| 2 ^ (c.1 % 32)) 0
  { r.req with
    flags := BitVec.ofNat 8 (r.req.flags.toNat + 4 + 16 * sync.toNat)
    orig := BitVec.ofNat 8 r.owner.orig
    dst := BitVec.ofNat 16 g
    tag := BitVec.ofNat 16 (r.tag.getD 0)
    seq := 0, ackFloor := 0
    payload := bytesLE 4 mask ++ cs.flatMap (fun c => bytesLE 4 c.2) ++ r.req.payload }

/-- A request of this node leaves it: counted, and for a job request the time is kept for the quiet time of R212. -/
def State.sendReq (s : State) (sys : Bool) (target typ : Nat) (q : Req) : State :=
  let late := s.job.isNone && s.ckpt.restore.isNone
  let s1 := if sys then s else { s with fxp := { s.fxp with
    lastOut := some s.now, quiet := if late then some s.now else s.fxp.quiet } }
  (s1.bump64 rFxpReqOut).inject target (.request (BitVec.ofNat 8 typ) q)

/-- Send one copy of a request; it carries ACKED as its floor (R202). -/
def State.sendCopy (s : State) (r : OutReq) (retry : Nat) (c : Nat × Nat) : State :=
  let k := streamKey c.1 r.owner.sys
  let s1 := { s with fxp := { s.fxp with carried := SMap.set 0 s.fxp.carried k (SMap.get 0 s.fxp.acked k) } }
  s1.sendReq r.owner.sys c.1 r.typ.code (s.header r retry 0 c)

/-- Put a request on the fabric: the copies that the source sends itself, of a multicast to the own group each marked MCAST and
NOFLOOR, or one packet for the members of another group (R218). -/
def State.transmit (s : State) (r : OutReq) (retry : Nat) : State :=
  if r.mcast ∧ retry = 0 then
    match r.copies.filter fun c => s.sendable r c.1 with
    | [] => s
    | c :: cs =>
      if c.1 / 32 = s.nodeId / 32 then
        (c :: cs).foldl (fun t x => t.sendReq r.owner.sys x.1 r.typ.code (t.header r 0 0x0A x)) s
      else
        s.sendReq r.owner.sys (c.1 / 32 * 32) (if r.typ = .coll then 0x07 else 0x06) (s.mcastHeader r (c :: cs))
  else r.copies.foldl (fun t c => t.sendCopy r retry c) s

/-- Take a tag and the next sequence of each copy's stream (R195, R196). -/
def State.takeTag (s : State) (r : OutReq) : Option (State × OutReq) :=
  match (if r.owner.orig = 0 then s.threadTag else s.systemTag) with
  | none => none
  | some tag =>
    let step := fun (acc : SMap Nat × List (Nat × Nat)) (c : Nat × Nat) =>
      let k := streamKey c.1 r.owner.sys
      let n := SMap.get 0 acc.1 k
      (SMap.set 0 acc.1 k ((n + 1) % 2 ^ 32), acc.2 ++ [(c.1, n)])
    let x := r.copies.foldl step (s.fxp.next, [])
    some ({ s with fxp := { s.fxp with next := x.1 } }, { r with tag := some tag, copies := x.2 })

/-- Advance one request: take a tag, then send it unless the window, an overlap or a dead target holds it back. -/
def State.advance (s : State) (before : List OutReq) (r : OutReq) : State × OutReq :=
  if r.tag.isNone ∨ r.sent.isSome ∨ (r.copies.all fun c => !s.sendable r c.1) then (s, r)
  else
    let win := s.windowWaits r
    let meetsOld := before.any fun w => w.isWrite && w.overlaps r
    if win ∨ meetsOld then
      (if r.waited then s
       else
         let t1 := if win then s.bump rFxpWinWait else s
         if meetsOld then t1.bump rFxpOverlapWait else t1,
       { r with waited := true })
    else (s.transmit r 0, { r with sent := some s.now })

/-- Advance the requests in issue order; `done` holds those already looked at. -/
def State.pumpFrom (s : State) (done : List OutReq) : List OutReq → State
  | [] => s
  | r :: rs =>
    let (s1, r1) := s.advance done r
    let s2 := { s1 with fxp := { s1.fxp with reqs := done ++ r1 :: rs } }
    s2.pumpFrom (done ++ [r1]) rs

/-- Give tags to the requests that wait for one, in issue order; `done` holds those already looked at (R195). -/
def State.tagFrom (s : State) (done : List OutReq) : List OutReq → State
  | [] => s
  | r :: rs =>
    match (if r.tag.isNone then s.takeTag r else none) with
    | some (t, r1) => ({ t with fxp := { t.fxp with reqs := done ++ r1 :: rs } }).tagFrom (done ++ [r1]) rs
    | none => s.tagFrom (done ++ [r]) rs

/-- The header of a request before its tag and sequence are known. -/
def State.mkReq (s : State) (o : Owner) (target opf flags addr len : Nat) (payload : List Byte) : Req :=
  { opf := BitVec.ofNat 8 opf, flags := BitVec.ofNat 8 flags, orig := BitVec.ofNat 8 o.orig
    src := BitVec.ofNat 16 s.nodeId, dst := BitVec.ofNat 16 (target % 2 ^ 15), tag := 0
    sess := if o.sys then 0 else BitVec.ofNat 16 s.sess
    seq := 0, ackFloor := 0, age := 0, len := BitVec.ofNat 16 len, addr := BitVec.ofNat 64 addr, payload := payload }

/-- A request of an agent to targets, as it waits for a tag. -/
def State.newReq (s : State) (typ : ReqType) (o : Owner) (mcast : Bool) (targets : List Nat) (opf flags addr len : Nat)
    (payload : List Byte) : OutReq :=
  ⟨typ, s.mkReq o (targets.headD 0) opf flags addr len payload, o, mcast, targets.map fun x => (x, 0), none, none, false, []⟩

/-- Enter a request behind those that wait. -/
def State.enqueue (s : State) (r : OutReq) : State := { s with fxp := { s.fxp with reqs := s.fxp.reqs ++ [r] } }

/-- The members of a node list by group, in order of group. -/
def byGroup (nodes : List Nat) : List (List Nat) :=
  ((nodes.map (· / 32)).eraseDups).map fun g =>
    let ms := nodes.filter fun n => n / 32 = g
    (upTo 32).filterMap fun i => if ms.contains (32 * g + i) then some (32 * g + i) else none

/-- Advance ACKED over the marks that follow it; `fuel` bounds the marks (R208). -/
def ackAdvance (marks : List (Nat × Nat)) (k : Nat) : Nat → Nat → Nat
  | 0, a => a
  | fuel + 1, a => if marks.contains (k, a) then ackAdvance marks k fuel ((a + 1) % 2 ^ 32) else a

/-- Acknowledge a sequence of a stream: mark it once, and advance ACKED (R208). -/
def State.ackSeq (s : State) (k seq : Nat) : State :=
  let acked := SMap.get 0 s.fxp.acked k
  if seqLt seq acked ∨ s.fxp.marks.contains (k, seq) then s
  else
    let marks := (k, seq) :: s.fxp.marks
    let a := ackAdvance marks k (marks.length + 1) acked
    { s with fxp := { s.fxp with
        acked := SMap.set 0 s.fxp.acked k a
        ackedAt := if a = acked then s.fxp.ackedAt else SMap.set 0 s.fxp.ackedAt k s.now
        marks := marks.filter fun m => m.1 ≠ k ∨ ¬ seqLt m.2 a } }

/-- The outstanding request that a response matches: responding node, TAG and SEQ (R193). A gateway answers under its
number. -/
def State.matching (s : State) (p : Rsp) : Option (OutReq × (Nat × Nat)) :=
  s.fxp.reqs.findSome? fun r =>
    if r.tag = some p.tag.toNat ∧ r.sent.isSome then
      (r.copies.find? fun c => c.1 % 2 ^ 14 = p.src.toNat % 2 ^ 14 ∧ c.2 = p.seq.toNat).map fun c => (r, c)
    else none

/-- Take one copy off a request, release the tag with the last, and count its sequence as acknowledged (R195, R208); `answered`
tells that the target has answered, which ends SYNC for it (R203). -/
def State.dropCopy (s : State) (r : OutReq) (c : Nat × Nat) (answered : Bool) : State :=
  let r' := { r with copies := r.copies.erase c }
  let reqs := if r'.copies = [] then s.fxp.reqs.erase r else s.fxp.reqs.map fun x => if x = r then r' else x
  let sync := answered && r.owner.sys && !s.fxp.synced.contains c.1
  let s1 := { s with fxp := { s.fxp with
    reqs := reqs
    synced := if sync then c.1 :: s.fxp.synced else s.fxp.synced } }
  s1.ackSeq (streamKey c.1 r.owner.sys) c.2

/-! ### Relays (R245) -/

/-- A relay fails: counted, named, and signalled by vector 33 (R245, R246). -/
def State.relayFail (s : State) (offset code : Nat) : State :=
  ((s.bump rHbrRelayErr).wr rHbrRelayLast (code * 2 ^ 24 + offset / 0x8000000 % 32)).msix 33

/-- A relay read returns a value to the host. -/
def State.relayValue (s : State) (offset v : Nat) : State :=
  { s with hbr := { s.hbr with reads := s.hbr.reads ++ [(offset, v)] } }

/-- A system-stream request ends with a code: a relay read completes with all-ones, a report is lost, a proposal is given up
(R197, R209, R245). -/
def State.systemFailed (s : State) (r : OutReq) (code : Nat) : State :=
  match r.owner with
  | .relayRead off => (s.relayFail off code).relayValue off (2 ^ (8 * r.req.len.toNat) - 1)
  | .relayWrite off => s.relayFail off code
  | .report => s.bump rFxpReportLost
  | .thread _ | .ring _ _ _ | .homeCopy _ | .notice _ | .ckpt _ _ | .rank | .restore _ | .holdAt => s

/-! ### Dead targets (R209) -/

/-- Enter a report: the bridge and the report node take in their own directly (R246); while FAB is down the report waits
(Table 17-3). -/
def State.postReport (s : State) (b : List Byte) : State :=
  if s.isBridge ∨ s.reportNode = s.nodeId then s.takeReport b
  else if s.down 2 then { s with hbr := { s.hbr with waiting := s.hbr.waiting ++ [b] } }
  else s.enqueue (s.newReq .nodeReport .report false [s.reportNode] 0 0 0 b.length b)

/-- The outstanding request of a tag that has a copy to a target. -/
def State.outstanding (s : State) (tag target : Nat) : Option (OutReq × (Nat × Nat)) :=
  s.fxp.reqs.findSome? fun r =>
    if r.tag = some tag then (r.copies.find? fun c => c.1 = target).map fun c => (r, c) else none

/-- The copies that requests of one kind of stream have to a target. -/
def State.copiesTo (s : State) (sys : Bool) (target : Nat) : List (OutReq × (Nat × Nat)) :=
  s.fxp.reqs.flatMap fun r =>
    if r.owner.sys = sys then (r.copies.filter fun c => c.1 = target).map fun c => (r, c) else []

/-- The first free FXP_DEAD entry. -/
def State.deadSlot (s : State) : Option Nat := (upTo 16).find? fun i => !bitOf (s.rd rFxpDead 0 (4 * i)) 31

/-- A system-stream request fails with E_DEAD_TARGET; its sequence counts as acknowledged. -/
def State.failSystem (s : State) (r : OutReq) (c : Nat × Nat) : State := (s.dropCopy r c false).systemFailed r eDeadTarget

/-- Declare a target dead: recorded, counted and reported, with the system requests outstanding to it failed (R209). -/
def State.declareDead (s : State) (target : Nat) : State :=
  let first := decide (s.fxp.dead = [])
  let s1 := { s with fxp := { s.fxp with dead := s.fxp.dead ++ [({ target := target, since := s.now } : Dead)] } }
  let s2 := match s1.deadSlot with | some i => s1.wr rFxpDead (2 ^ 31 + target) 0 (4 * i) | none => s1
  let s3 := s2.bump rFxpDeadCount
  let s4 := if first then s3.raise tyFxp 0 eDeadTarget target (s3.rd rSchStep % 2 ^ 32) else s3
  let s5 := (s4.copiesTo true target).foldl (fun t x =>
    match x.1.tag with
    | some tag =>
      match t.outstanding tag target with
      | some (r, c) => t.failSystem r c
      | none => t
    | none => t) s4
  (s5.fwLog 2 0 0x042 target (s5.rd rSchStep)).postReport (s5.reportBytes 1 eDeadTarget target)

/-- The retry window of a copy ends, or it has no route: its target is declared dead, or where it already is, a system request
fails alone (R209). -/
def State.targetLost (s : State) (r : OutReq) (c : Nat × Nat) : State :=
  if (s.deadOf c.1).isNone then s.declareDead c.1
  else if r.owner.sys then s.failSystem r c
  else s

/-- The first copy of a request being issued that has no route (R209). -/
def State.lostCopy (s : State) : Option (OutReq × (Nat × Nat)) :=
  s.fxp.reqs.findSome? fun r =>
    if r.tag.isSome ∧ r.sent.isNone then
      (r.copies.find? fun c => (r.owner.sys || (s.deadOf c.1).isNone) && !s.pathTo c.1 r.cargo).map fun c => (r, c)
    else none

/-- Take tags, and declare the targets dead to which a request being issued has no route; a target's report is a request of its
own. `fuel` bounds the copies lost. -/
def State.issueAll (s : State) : Nat → State
  | 0 => s
  | fuel + 1 =>
    let t := s.tagFrom [] s.fxp.reqs
    match t.lostCopy with
    | some (r, c) => (t.targetLost r c).issueAll fuel
    | none => t

/-- Send every waiting request that nothing holds back any more (R195, R196, R199). -/
def State.pump (s : State) : State :=
  let t := s.issueAll (3 * (s.fxp.reqs.flatMap (·.copies)).length + 6)
  t.pumpFrom [] t.fxp.reqs

/-! ### Issue -/

/-- Issue a request of an agent to one target; to one whose fallback has been taken nothing is sent (R211). -/
def State.issue (s : State) (typ : ReqType) (o : Owner) (target opf flags addr len : Nat) (payload : List Byte) : State :=
  if !o.sys && s.goneNode target then s
  else (s.enqueue (s.newReq typ o false [target] opf flags addr len payload)).pump

/-- Issue a multicast piece to the members of one group (R218). -/
def State.issueMcast (s : State) (typ : ReqType) (o : Owner) (members : List Nat) (addr len : Nat) (payload : List Byte) :
    State :=
  if members = [] then s else (s.enqueue (s.newReq typ o true members 0 0 addr len payload)).pump

/-! ### Job change -/

/-- Abandon every outstanding request and release its tag (R210); the outstanding sequences stay unacknowledged until the next
job starts its streams afresh. -/
def State.abandonJob (s : State) : State :=
  { s with fxp := { s.fxp with reqs := s.fxp.reqs.filter fun r => r.owner.sys } }

/-- Start the job streams at sequence 0 on both sides (R196, R202), with no target dead (R209). -/
def State.resetJobStreams (s : State) : State :=
  let sysKey := fun (k : Nat) => decide (k % 2 = 1)
  { s with fxp := { s.fxp with
      next := s.fxp.next.filter fun e => sysKey e.1
      acked := s.fxp.acked.filter fun e => sysKey e.1
      carried := s.fxp.carried.filter fun e => sysKey e.1
      ackedAt := s.fxp.ackedAt.filter fun e => sysKey e.1
      marks := s.fxp.marks.filter fun m => sysKey m.1
      floors := s.fxp.floors.filter fun e => sysKey e.1
      ledger := s.fxp.ledger.filter fun e => e.sys
      reqs := s.fxp.reqs.filter fun r => r.owner.sys
      hold := s.fxp.hold.filter fun h => decide (2 ≤ h.req.orig.toNat % 8)
      dead := [], woken := [], active := [], descs := [], quiet := none } }

end Sys2Proof.Machine
end

