-- ==== Sys2Proof/Machine/SolvBase.lean ====
section
/-!
DEFINITION. Solver engines as their page shows them: streams, the barrier of a command, the ready task of an engine, and
SOLV_STAT (R107, R108, Table 6-17).
-/

namespace Sys2Proof.Machine

/-- A solver engine. -/
def State.eng (s : State) (e : Nat) : SolvEng := SMap.get {} s.solvEngs e

/-- The stream that an engine runs. -/
def State.solvStream (s : State) (e : Nat) : Option SolvStream :=
  match s.job, (s.eng e).seg with
  | some j, some g => (j.segs[g]?).bind fun sg => sg.solv.find? fun x => x.engine = e
  | _, _ => none

/-- The next command of an engine. -/
def State.solvNext (s : State) (e : Nat) : Option SolvCmd := (s.solvStream e).bind fun st => st.cmds[(s.eng e).pos]?

/-- A solver of the job. -/
def State.solver (s : State) (id : Nat) : Option Solver :=
  match s.job with
  | some j => j.solvers.find? fun x => x.record.id = id
  | none => none

/-- The lead engine of a record (R113). -/
def SolvRec.lead (r : SolvRec) : Nat := r.engines.foldl min 3

/-- Every engine of a record stands at a command, which may then start (R107). -/
def State.atBarrier (s : State) (r : SolvRec) (c : SolvCmd) : Bool := r.engines.all fun e => s.solvNext e = some c

/-- The tasks that must complete before a task. -/
def Schedule.predsOf (c : Schedule) (i : Nat) : List Nat :=
  (upTo c.tasks.length).filter fun k => (c.tasks[k]?.bind fun t => t.succ) = some i

/-- The ready task of lowest index on an engine, with its solver (R108). -/
def State.readyTask (s : State) (e : Nat) : Option (Solver × FactorRun × Nat × SolvTask × Supernode) := do
  let run ← s.factors.find? fun x => (s.solver x.solver).any fun v => v.record.engines.contains e
  let v ← s.solver run.solver
  let i ← (upTo v.sched.tasks.length).find? fun i =>
    !run.done.contains i && (v.sched.predsOf i).all (run.done.contains ·) &&
      ((v.sched.tasks[i]?.bind fun t => v.sched.nodes[t.sn]?).any fun n => n.engine = e)
  let t ← v.sched.tasks[i]?
  let n ← v.sched.nodes[t.sn]?
  pure (v, run, i, t, n)

/-- SOLV_STAT (Table 6-17): an engine waits while its next command has not started on all engines of the record, and while a
FACTOR gives it no ready task; it is busy with any other command it stands at (log entry 88). -/
def State.solvStat (s : State) (e : Nat) : Nat :=
  match (s.eng e).seg with
  | none => 0xFF0000
  | some g =>
    let feed := (upTo 64).any fun i => (SMap.get {} s.tiles (64 * e + i) : Tile).feed
    let run := match s.solvNext e with
      | none => 0
      | some c =>
        if (s.solver c.solver).any fun v => s.atBarrier v.record c then
          let idle := decide (c.opcode = 1) && (s.factors.any fun x => x.solver = c.solver) && (s.readyTask e).isNone
          c.solver * 2 ^ 12 + c.opcode * 2 ^ 8 + (if idle then 2 else 1)
        else 2
    g % 256 * 2 ^ 16 + run + feed.toNat * 4

end Sys2Proof.Machine
end

