-- ==== Sys2Proof/Machine/RegRead.lean ====
section
/-!
DEFINITION. Reading the register window without side effects: stored registers, and those whose value is another part of the
state (R332, R353 to R359, R364).
-/

namespace Sys2Proof.Machine

/-! ### Collectives, as the PIAZ page shows them (R254) -/

/-- Descriptor kinds of Table 12-1. -/
abbrev ckAllreduce : Nat := 0x10
abbrev ckReduce : Nat := 0x11
abbrev ckBcast : Nat := 0x12
abbrev ckBarrier : Nat := 0x13

/-- The credits of a collective: BCAST and BARRIER take none. -/
def Coll.credits (c : Coll) : Nat := if c.kind = ckBcast ∨ c.kind = ckBarrier then 0 else (c.len + 2047) / 2048

/-- A collective in a slot. -/
def Coll.inSlot (c : Coll) : Bool :=
  match c.place with
  | .slot => true
  | .hredWait _ | .hred _ _ | .failed => false

/-- Slot entries in use, and free credits. -/
def Piaz.slotsUsed (p : Piaz) : Nat := (p.colls.filter Coll.inSlot).length
def Piaz.freeCredits (p : Piaz) : Nat := 32768 - ((p.colls.filter Coll.inSlot).map Coll.credits).foldl (· + ·) 0

/-! ### Vector halves, as the VEC page shows them (R90) -/

/-- A vector engine. -/
def State.vec (s : State) (v : Nat) : Vec := SMap.get {} s.vecs v

/-- The stream that an engine runs (R84). -/
def State.vecStreamOf (s : State) (v : Nat) (seg : Option Nat) : Option VecStream :=
  match s.job, seg with
  | some j, some g => (j.segs[g]?).bind fun sg => sg.vec.find? fun x => x.engine = v
  | _, _ => none

/-- The stream that a vector engine runs. -/
def State.vecStream (s : State) (v : Nat) : Option VecStream := s.vecStreamOf v (s.vec v).seg

/-- The half (2 * buffer + half) that an operand byte of class 2 or 3 names (Table 5-4). -/
def halfOf (op : Nat) : Option Nat :=
  if op / 32 = 2 then some (2 * (op % 4)) else if op / 32 = 3 then some (2 * (op % 4) + 1) else none

/-- The tile that the n-th TAKE on a half names, loop iterations counted out (R90); `fuel` bounds the instructions. -/
def nthTake (h : Nat) : Nat → List VecInstr → Nat → Option Nat
  | 0, _, _ => none
  | _ + 1, [], _ => none
  | fuel + 1, i :: rest, n =>
    let takeOf := fun (x : VecInstr) => if x.opcode = 3 ∧ halfOf x.src1 = some h then some (x.imm % 256) else none
    if i.opcode = 5 then
      let body := (rest.take (bitsOf i.imm 39 32)).filterMap takeOf
      let total := body.length * (i.imm % 2 ^ 32)
      if n < total then body[n % body.length]? else nthTake h fuel (rest.drop (bitsOf i.imm 39 32)) (n - total)
    else
      match takeOf i with
      | some t => if n = 0 then some t else nthTake h fuel rest (n - 1)
      | none => nthTake h fuel rest n

/-- The next entry of the fill order of a half (R90). -/
def State.nextFill (s : State) (v h : Nat) : Option Nat :=
  match s.vecStream v with
  | some st => nthTake h (st.instrs.length + 1) st.instrs (SMap.get 0 (s.vec v).rels h)
  | none => none

/-- VEC_HALF_STAT (Table 5-8). -/
def Vec.halfStat (x : Vec) : Nat := (upTo 8).foldl (fun acc h => acc + SMap.get 0 x.halves h * 16 ^ h) 0

/-- VEC_FILL_NEXT (Table 5-8). -/
def State.fillNext (s : State) (v : Nat) : Nat :=
  (upTo 8).foldl (fun acc h => acc + (match s.nextFill v h with | some t => t % 16 | none => 0xFF) * 256 ^ h) 0

/-! ### Enclave, ageing and step counters -/

/-- The life-cycle state that the fuses fix: 0 BLANK, 1 PROVISIONED, 2 DEPLOYED, 3 SERVICE, 4 RETIRED (R316, R320). -/
def Sec.lifeCycle (x : Sec) : Nat :=
  if x.retired then 4 else if !x.provisioned then 0 else if x.toggles = 0 then 1 else if x.toggles % 2 = 1 then 2 else 3

/-- AON_POH: powered hours (Table 18-12). -/
def State.poh (s : State) : Nat := s.age.pohBase + (s.now - s.age.pohAt) / 3600000000000

/-- The rail of an AGE instance (R183; log entry 33). -/
def ageRail (i : Nat) : Nat := if i < 2 then 1 else if i < 10 then 2 + (i - 2) / 2 else 7

/-- The registers whose meaning reads "in the current step": block type and offset. -/
def stepRegs : List (Nat × Nat) :=
  [(tyTile, 0x88), (tyVec, 0x98), (tySolv, 0xB0), (tyAsm, 0x88), (tyAsm, 0x98), (tyLlm, 0x88), (tyLlm, 0x90), (tyCore, 0xA0),
   (tyCore, 0xB0), (tyPunc, 0x90), (tyPunc, 0x98), (tyMsa, 0x88), (tyFport, 0xC0), (tyFport, 0xC8), (tyPiaz, 0xB0),
   (tyFxp, 0xC0), (tyFxp, 0xC8), (tySch, 0x84)]

/-! ### Pages (Tables 18-3 and 18-4) -/

/-- The page has an expert level (Table 18-4). -/
def hasExpert (ty : Nat) : Bool := decide (ty ≠ tyNode) && decide (ty ≠ tyHif)

/-- The die of a unit: 0 P-die, 1 to 4 A0 to A3, 5 F-die (Table 1-1, Table 18-3). -/
def dieOf (ty i : Nat) : Nat :=
  if ty = tyTile then 1 + i / 64
  else if ty = tyVec ∨ ty = tyHbmc ∨ ty = tyMsa then 1 + i / 4
  else if ty = tySolv ∨ ty = tyAsm ∨ ty = tyLlm then 1 + i
  else if ty = tyHbmch then 1 + i / 128
  else if ty = tyCore ∨ ty = tyPunc then 0
  else if ty = tyAge then (if i < 2 then 0 else if i < 10 then 1 + (i - 2) / 2 else 5)
  else 5

/-- Index of the unit on its die (LOCAL of Table 18-3). -/
def localOf (ty i : Nat) : Nat :=
  if ty = tyTile then i % 64
  else if ty = tyVec ∨ ty = tyHbmc ∨ ty = tyMsa then i % 4
  else if ty = tySolv ∨ ty = tyAsm ∨ ty = tyLlm then 0
  else if ty = tyHbmch then i % 128
  else if ty = tyAge then (if i < 10 then i % 2 else i - 10)
  else i

/-- PAGE_ID (Table 18-3); stacks on A1 and A3 form the east side (R9). -/
def pageId (ty i : Nat) : Nat :=
  let side := if ty = tyHbmc ∨ ty = tyHbmch ∨ ty = tyMsa then (dieOf ty i + 1) % 2 else 0
  ty * 2 ^ 24 + i * 2 ^ 12 + dieOf ty i * 2 ^ 8 + side * 2 ^ 7 + localOf ty i

/-- PAGE_CAP (Table 18-2). -/
def pageCap (ty : Nat) : Nat := (hasExpert ty).toNat + 2 * (ownerOf ty).isSome.toNat + instCount ty * 2 ^ 16

/-- The clock domain of a unit (Table 1-4; for the pages of the register window itself, MGMT: log entry 40). -/
def domainOf (ty i : Nat) : Nat :=
  if ty = tyAon then 1
  else if ty = tySec ∨ ty = tyLcy then 23
  else if ty = tyCfgf then 25
  else if ty = tyDbg then 24
  else if ty = tyHbr then 22
  else if ty = tyTile then 5 + i / 64
  else if ty = tyVec then 9 + i / 4
  else if ty = tySolv ∨ ty = tyAsm then 9 + i
  else if ty = tyLlm then 13 + i
  else if ty = tyCore then 3
  else if ty = tyPunc then 4
  else if ty = tyHbmc ∨ ty = tyMsa then (if dieOf ty i % 2 = 1 then 19 else 20)
  else if ty = tyHbmch then 21
  else if ty = tyFport then 18
  else if ty = tyFsw ∨ ty = tyPiaz ∨ ty = tyFxp then 17
  else 2

/-- The clock domain of a unit is running (PAGE_STAT.DOMAIN_RUN). -/
def State.domainUp (s : State) (ty i : Nat) : Bool :=
  let d := domainOf ty i
  if d = 1 ∨ d = 2 ∨ d = 25 then !s.boot.held else s.domainsRun [d]

/-! ### Computed registers -/

/-- Milliseconds of the hold in progress, saturating (Table 17-2). -/
def State.heldMs (s : State) (fwp : Nat) : Nat := min 0xFFFF ((s.now - (SMap.get {} s.fws fwp).heldAt) / 1000000)

/-- FWP_WDOG_LEFT: the milliseconds left since the last kick that the model shows; where that period is over, the processor has
kicked since, at a moment that no rule fixes, and the value is free within the period (R341; log entry 41). -/
def State.wdogLeft (s : State) (i : Nat) : Nat :=
  let f := SMap.get ({} : Fwp) s.fws i
  if s.fld rFwpStat 3 0 i ≠ 3 then 0
  else if s.now < f.kickAt + f.period * 1000000 then (f.kickAt + f.period * 1000000 - s.now + 999999) / 1000000
  else Config.free (1000 + regKey tyFwp i 0x9C) s.fresh % (f.period + 1)

/-- FWP_STAT.RECENT: the restarts of causes 1, 2 and 4 within the last 10 s (Table 17-6). -/
def State.recentCount (s : State) (i : Nat) : Nat :=
  ((SMap.get ({} : Fwp) s.fws i).recent.filter fun t => decide (s.now < t + 10000000000)).length

/-- NODE_STAT (Table 18-6). -/
def State.nodeStat (s : State) : Nat :=
  let run := (upTo 6).foldl (fun v i => v + (decide (s.fld rFwpStat 3 0 i = 3)).toNat * 2 ^ i) 0
  let v := run + (s.flag rHbmcMap 31).toNat * 64 + (s.flag rNodeStat 7).toNat * 128
  v + (decide (v = 255)).toNat * 256

/-- LCY_PRESENCE (Table 16-8). -/
def State.presenceReg (s : State) : Nat :=
  s.boot.policy + 16 * (!s.pins.presenceN).toNat + 32 * s.sec.sealClosed.toNat + 256 * s.sec.presence.toNat

/-- The log entry with a sequence, where the ring holds it (R348, R349). -/
def State.logEntry (s : State) (n : Nat) : Option (List Byte) :=
  if s.rd rDbgLogTail ≤ n ∧ n < s.rd rDbgLogHead then some (s.peekN (s.protBase + 0x3000000 + 32 * (n % 262144)) 32) else none

/-- A register of the header or of the basic level that is another part of the state; none for a stored one. -/
def State.computed (s : State) (ty i off : Nat) : Option Nat :=
  let stored := s.hdr ty i off
  if off = hPageId then some (pageId ty i)
  else if off = hPageCap then some (pageCap ty)
  else if off = hPageStat then
    let ctrl := s.hdr ty i hPageCtrl
    some (ctrl % 2 + 2 * (bitOf (s.hdr ty i hHoldStat) 31).toNat + 4 * (decide (s.hdr ty i hErrCode ≠ 0)).toNat +
      8 * (s.domainUp ty i).toNat + 16 * (bitOf ctrl 2).toNat)
  else if off = hHoldStat then
    match ownerOf ty with
    | some f => some (if bitOf stored 31 then withBits stored 15 0 (s.heldMs f) else stored)
    | none => none
  else if ty = tyFwp then
    if off = 0x80 then some (withBits stored 23 16 (s.recentCount i)) else if off = 0x9C then some (s.wdogLeft i) else none
  else if ty = tyHbmch ∧ off = 0xA0 then some (withBit stored 3 (s.startPends i))
  else if ty = tyNode then
    if off = 0x88 then some s.nodeStat else if off = 0x8C then some s.intSum else none
  else if ty = tyAon then (if off = 0x84 then some s.poh else none)
  else if ty = tyClk then
    if 0x100 ≤ off ∧ off < 0x164 then some (s.clkFreq ((off - 0x100) / 4 + 1)) else none
  else if ty = tyPwr then (if off = 0x80 then some (withBit stored 21 (s.down 0)) else none)
  else if ty = tyLcy then
    if off = 0x80 then some (s.sec.lifeCycle + 16 * (s.flag rLcyStat 4).toNat + (255 - s.sec.toggles) * 2 ^ 16)
    else if off = 0x88 then some s.presenceReg
    else if off = 0x90 then some s.sec.last
    else none
  else if ty = tySch then
    if off = 0x200 then some (withBit stored 3 (decide ((s.job.bind fun j => j.nodes.head?) = some s.nodeId)))
    else if off = 0xB8 then
      some (match s.sched.hbStart with | some t => min 0xFFFFFFFF ((s.now - t) / 1000000) | none => 0)
    else if 0xD0 ≤ off ∧ off < 0xE0 then
      some (match s.sched.events with
        | e :: _ => fieldLE (bytesLE 1 e.kind ++ bytesLE 1 e.reason ++ bytesLE 1 e.err ++ [0] ++ bytesLE 4 e.seq ++
            bytesLE 8 e.step) (off - 0xD0) 4
        | [] => 0)
    else none
  else if ty = tyDbg then
    if 0x98 ≤ off ∧ off < 0xB8 then some (fieldLE ((s.logEntry (s.rd rDbgLogSel)).getD []) (off - 0x98) 8) else none
  else if ty = tyHbr then
    if 0xA0 ≤ off ∧ off < 0xC0 then some (fieldLE (s.hbr.queue.headD []) (off - 0xA0) 8) else none
  else if ty = tyVec then
    if off = 0x88 then some (s.vec i).halfStat else if off = 0x90 then some (s.fillNext i) else none
  else if ty = tySolv then (if off = 0x80 then some (s.solvStat i) else none)
  else if ty = tyPunc then (if off = 0x88 then some s.dir.length else none)
  else if ty = tyCore then
    let states := (upTo 8).map fun h => (SMap.get ({} : Thread) s.threads (8 * i + h)).run
    if off = 0x80 then
      let bits := fun (p : RunState → Bool) => (states.zip (upTo 8)).foldl (fun v x => v + (p x.1).toNat * 2 ^ x.2) 0
      some (withBits (withBits stored 15 8 (bits (· ≠ .idle))) 7 0 (bits (· = .faulted)))
    else if off = 0x84 then some ((states.zip (upTo 8)).foldl (fun v x => v + x.1.code * 16 ^ x.2) 0)
    else none
  else if ty = tyHbmc then
    let awake := s.domainsRun [sideDomain i, 21]
    let up := !s.down 1
    if off = 0x84 then
      some (stored % 2 + 2 * (awake && up && s.flag rHbmcMap 31).toNat + 4 * (awake && !up && s.flag rHbmcMap 31).toNat)
    else if 0x100 ≤ off ∧ off < 0x200 then some (s.rd rSecRegion 0 (off - 0x100))
    else none
  else if ty = tyFsw then
    if off = 0x80 then some (withBit stored 2 (s.down 2 && bitOf stored 0))
    else if off = 0xA0 then
      let sel := s.rd rFswTblSel
      some (if sel / 2 ^ 28 = 0 then (SMap.get 0 s.sw.exits (sel % 2 ^ 16)).toNat
        else if sel / 2 ^ 28 = 1 then (SMap.get 0 s.sw.gates (sel % 2 ^ 16)).toNat else 0)
    else none
  else if ty = tyPiaz then
    if off = 0x80 then
      some ((s.piaz.colls.any fun c => decide (c.place ≠ .failed)).toNat + 2 * (s.piaz.colls.any fun c => c.inSlot && c.pieces.any fun p => decide (p.acc ≠ [])).toNat +
        4 * (decide (16384 ≤ s.piaz.kerb.length)).toNat + 8 * s.piaz.batch.isSome.toNat + 16 * (s.oregValid 15).toNat)
    else if off = 0x84 then some s.piaz.freeCredits
    else if off = 0x88 then some s.piaz.slotsUsed
    else if off = 0x8C then some s.piaz.kerb.length
    else none
  else if ty = tyFxp then
    if off = 0x80 then
      some ((!s.fxp.reqs.isEmpty).toNat + 2 * (!s.fxp.dead.isEmpty).toNat + 4 * (!s.fxp.hold.isEmpty).toNat +
        8 * (!s.fxp.descs.isEmpty || !s.fxp.active.isEmpty).toNat + 16 * s.fxp.quiet.isSome.toNat)
    else if off = 0x84 then
      some ((s.tagsUsed 0 4096).length + (s.tagsUsed 4096 5120).length * 2 ^ 16)
    else if off = 0x8C then some s.ledgerUsed
    else none
  else none

/-- The value of a register at the start of its row, stored or computed. -/
def State.regView (s : State) (ty inst off : Nat) : Word :=
  match s.computed ty inst off with
  | some v => BitVec.ofNat 64 v
  | none => s.regGet (regKey ty inst off)

/-- The largest power of two not above a number; 0 stays 0 (R332). -/
def floorPow2 (n : Nat) : Nat := if n = 0 then 0 else 2 ^ n.log2

/-- The average of a sensor over the last full window, in whole degrees, as the registers hold it in 0.1 degrees. -/
def State.coarseTemp (s : State) (k : Nat) : Int := 10 * SMap.get 0 s.tele.tempAvg k

/-- The largest of a list of numbers. -/
def maxInt : List Int → Int
  | [] => 0
  | x :: xs => xs.foldl max x

/-- The coarse view (R332), which BAR0, the relay, SMBus, MCTP and PLDM read while a TENANT session is open. -/
def State.coarseView (s : State) (ty inst off : Nat) : Word :=
  let bits := fun (v : Int) => (v % 65536).toNat
  if stepRegs.contains (ty, off) then BitVec.ofNat 64 (floorPow2 (SMap.get 0 s.tele.sums (4096 * ty + off)))
  else if ty = tyPwr ∧ off = 0x88 then BitVec.ofNat 64 s.tele.powerAvg
  else if ty = tyPwr ∧ 0x100 ≤ off ∧ off < 0x170 then BitVec.ofNat 64 (withBits (s.regView ty inst off).toNat 31 16 0)
  else if ty = tyThm ∧ off = 0x84 then BitVec.ofNat 64 (bits (maxInt ((upTo 48).map s.coarseTemp)))
  else if ty = tyThm ∧ off = 0x90 then BitVec.ofNat 64 (bits (maxInt ((upTo 16).map fun k => s.coarseTemp (48 + k))))
  else if ty = tyThm ∧ 0x100 ≤ off ∧ off < 0x180 then
    let k := (off - 0x100) / 4 * 2
    BitVec.ofNat 64 (bits (s.coarseTemp k) + bits (s.coarseTemp (k + 1)) * 65536)
  else s.regView ty inst off

/-- The four bytes at a 4-byte aligned offset of a page, under a view; an offset that no register occupies reads 0 (R354). -/
def readWordIn (view : Nat → Nat → Nat → Word) (ty inst off : Nat) : Nat :=
  if off < 0x80 then
    (if off = hIntForce then 0 else (view ty inst off).toNat % 2 ^ 32)
  else
    match coverRow ty off with
    | none => 0
    | some r =>
      if r.acc = .wo then 0
      else
        let base := r.off + (off - r.off) / r.bytes * r.bytes
        (view ty inst base).toNat / 2 ^ (8 * (off - base)) % 2 ^ 32

/-- The 4 or 8 bytes at an offset of a page, under a view (R353). -/
def readPageIn (view : Nat → Nat → Nat → Word) (ty inst off bytes : Nat) : Nat :=
  if bytes = 8 then readWordIn view ty inst off + 2 ^ 32 * readWordIn view ty inst (off + 4) else readWordIn view ty inst off

/-- A read of a page with the fine values. -/
def State.readPage (s : State) (ty inst off bytes : Nat) : Nat := readPageIn s.regView ty inst off bytes

/-- What a read of a page does besides returning a value: a DBG_LOG_DATA read outside the ring reports E_RANGE (R349), and the
free values are used up. -/
def State.readDone (s : State) (ty off bytes : Nat) : State :=
  let s1 := { s with fresh := s.fresh + 1 }
  let n := s.rd rDbgLogSel
  if ty = tyDbg ∧ off < 0xB8 ∧ 0x98 < off + bytes ∧ (s.logEntry n).isNone then s1.raise tyDbg 0 eRange (n % 2 ^ 32) (n / 2 ^ 32)
  else s1

/-- TYPE, INSTANCE and OFFSET of a window offset (Table 18-1). -/
def winType (w : Nat) : Nat := bitsOf w 25 21
def winInst (w : Nat) : Nat := bitsOf w 20 12
def winOff (w : Nat) : Nat := bitsOf w 11 0
def winBcast (w : Nat) : Bool := bitOf w 26

/-- The window offset names a page that exists (R354). -/
def winExists (w : Nat) : Bool :=
  if winBcast w then decide (instCount (winType w) ≠ 0) && decide (winInst w < 16)
  else decide (winInst w < instCount (winType w))

end Sys2Proof.Machine
end

