-- ==== Sys2Proof/Machine/CoreBase.lean ====
section
/-!
DEFINITION. Threads of the cores: registers, faults, and the memory operations with their waits (R120 to R133, R158, R197,
R208, R211).
-/

namespace Sys2Proof.Machine

/-! ### Registers -/

/-- A thread (R120). -/
def State.thread (s : State) (t : Nat) : Thread := SMap.get {} s.threads t

/-- Replace a thread. -/
def State.setThread (s : State) (t : Nat) (th : Thread) : State := { s with threads := SMap.set {} s.threads t th }

/-- Change a thread. -/
def State.onThread (s : State) (t : Nat) (f : Thread → Thread) : State := s.setThread t (f (s.thread t))

/-- Register x. -/
def Thread.getX (th : Thread) (r : BitVec 5) : Word := SMap.get 0 th.x r.toNat

/-- Write register x; none is constant (R120). -/
def Thread.setX (th : Thread) (r : BitVec 5) (v : Word) : Thread := { th with x := SMap.set 0 th.x r.toNat v }

/-- Register w. -/
def Thread.getW (th : Thread) (r : BitVec 5) : Wide := SMap.get 0 th.w r.toNat

/-- Write register w. -/
def Thread.setW (th : Thread) (r : BitVec 5) (v : Wide) : Thread := { th with w := SMap.set 0 th.w r.toNat v }

/-- Register f: the low 64 bits of w (R135). -/
def Thread.getF (th : Thread) (r : BitVec 5) : Nat := (th.getW r).toNat % 2 ^ 64

/-- A scalar write to f clears bits [511:64] of w; an FP32 value is zero-extended (R135). -/
def Thread.setF (th : Thread) (r : BitVec 5) (v : Nat) : Thread := th.setW r (BitVec.ofNat 512 (v % 2 ^ 64))

/-- Mask register k1 to k7. -/
def Thread.getK (th : Thread) (r : Nat) : Word := SMap.get 0 th.k r

/-- Write a mask register. -/
def Thread.setK (th : Thread) (r : Nat) (v : Word) : Thread := { th with k := SMap.set 0 th.k r v }

/-- The program counter past a 4-byte instruction. -/
def Thread.step (th : Thread) : Thread := { th with pc := th.pc + 4 }

/-- The base of the loaded image, 0 with none. -/
def State.imgBase (s : State) : Nat :=
  match s.job with
  | some j => j.base
  | none => 0

/-- The length of the loaded image, 0 with none. -/
def State.imgLen (s : State) : Nat :=
  match s.job with
  | some j => j.len
  | none => 0

/-! ### Faults (R128) -/

/-- Take a fault: the cause, the address for FEPC and the data address for FADDR (R128, Table 7-16). -/
def State.takeFault (s : State) (t code : Nat) (fepc faddr : Word) : State :=
  let core := t / 8
  let th := s.thread t
  let handled := decide (th.handler ≠ 0)
  let info := s.fld rCoreStat 23 16 core * 2 ^ 24 + handled.toNat * 2 ^ 11 + t % 8 * 2 ^ 8 + code
  let s1 :=
    if s.rd rCoreFaults core = 0 then
      (((s.wr rCoreFaultPc fepc.toNat core).wr rCoreFaultAddr faddr.toNat core).wr rCoreFaultInfo info core).raise tyCore core
        code 0 0
    else s
  let s2 := s1.bump rCoreFaults 1 core
  s2.setThread t
    { th with
      fcause := BitVec.ofNat 64 code, fepc := fepc, faddr := faddr, wait := none
      run := if handled then .running else .faulted
      inHandler := handled || th.inHandler
      pc := if handled then BitVec.ofNat 64 s.imgBase + th.handler else th.pc }

/-- A fault of the instruction at the thread's pc. -/
def State.faultHere (s : State) (t code : Nat) (faddr : Word) : State := s.takeFault t code (s.thread t).pc faddr

/-- The instruction at the thread's pc can be fetched: it lies in the image (R126, R122). -/
def State.fetchOk (s : State) (t : Nat) : Bool :=
  let pc := (s.thread t).pc.toNat
  decide (s.imgBase ≤ pc) && decide (pc + 4 ≤ s.imgBase + s.imgLen) && decide (pc % 4 = 0)

/-- The thread can execute its next instruction (R123). -/
def State.threadReady (s : State) (t : Nat) : Bool :=
  match (s.thread t).run with
  | .running => true
  | .idle | .suspended | .halted | .faulted => false

/-- Read local memory for a core, whose caches take the lines; a line that they hold is not requested of the LLM (R12, R125,
R153). -/
def State.coreRead (s : State) (core a n : Nat) : Nat × State :=
  (natLE (s.peekN a n), (pieces 64 a n).foldl (fun t p =>
    if (SMap.get [] t.dir (p.1 / 64)).contains core then t.noteLine p.1 else (t.noteRead p.1 p.2).cacheFill core (p.1 / 64)) s)

/-- An instruction of a thread issues: a cycle of CORE_BUSY_CYC unless another thread of the core issued in it too, and at least
one cycle of the thread's CYCLE; both beyond that are free, for the model has no clock (R123, Tables 7-7 and 7-14). -/
def State.issueCycle (s : State) (t : Nat) : State :=
  let (v, s1) := s.free 53
  let s2 := s1.bump64 rCoreBusyCyc (v % 2) (t / 8)
  s2.onThread t fun th => { th with cycles := th.cycles + 1 + v / 2 }

/-- Execute one instruction of a thread, encoded by the word `w` with the fields of `ign` left open. Nothing happens where the
thread is not running (log entry 12) or its core or the image's memory is stopped (R13). The thread fetches the word at its pc
(R122, R134): outside the image it faults with E_RANGE (R126), a reserved encoding faults with E_BADCMD (R8), and a word that is
another instruction leaves all as it is, for that instruction is the thread's next. -/
def State.coreExec (s : State) (t : Fin 512) (w ign : Nat) (k : State → State) : State :=
  if s.threadReady t.val && s.domainsRun [3, 4] && s.hbmRuns then
    if s.fetchOk t.val then
      let (f, s1) := s.coreRead (t.val / 8) (s.thread t.val).pc.toNat 4
      if reservedWord f then (s1.issueCycle t.val).faultHere t.val eBadcmd 0
      else if sameWord f w ign then k (s1.issueCycle t.val)
      else s
    else s.faultHere t.val eRange 0
  else s

/-- The effect of an instruction that only changes its thread and moves past. -/
def State.threadDo (s : State) (t : Nat) (f : Thread → Thread) : State := s.setThread t (f (s.thread t)).step

/-! ### Addresses (R125 to R127) -/

/-- Where an address of a core leads. -/
inductive CoreAddr where
  | local (a : Nat)
  | window (w : Nat)
  | remote (node a : Nat)
  /-- a target whose fallback has been taken (R211) -/
  | gone
  | bad (code : Nat)
  deriving DecidableEq, Repr

/-- Classify the address of an access of `n` bytes (R125, R126, R147, R337; the local part of a remote address is judged by the
target, R190). -/
def State.coreAddr (s : State) (addr : Word) (n : Nat) : CoreAddr :=
  let a := addr.toNat % 2 ^ 44
  let node := addr.toNat / 2 ^ 44 % 2 ^ 14
  if addr.toNat / 2 ^ 58 ≠ 0 ∨ addr.toNat % n ≠ 0 then .bad eRange
  else if node ≠ s.nodeId then
    if inRegWin a n then .bad eLocked
    else if a + n ≤ 0x10000000000 ∨ inLlm a n then (if s.goneNode node then .gone else .remote node a)
    else .bad eRange
  else if inRegWin a n then .window (a % 0x8000000)
  else if s.memOk a n then .local a
  else .bad eRange

/-- A store of a core into the bytes of the image is refused (R122). -/
def State.hitsImage (s : State) (a n : Nat) : Bool := decide (a < s.imgBase + s.imgLen) && decide (s.imgBase < a + n)

/-- A load of a core from the register window: the value, or the code of the fault (R126, R127, R353, R354). -/
def State.coreWindowLoad (s : State) (w n : Nat) : Nat ⊕ Nat :=
  if ¬ winExists w then .inr eRange
  else if winBcast w then .inr eBcastRead
  else if 0x400 ≤ winOff w then .inr eLocked
  else if n ≠ 4 ∧ n ≠ 8 then .inr eRange
  else .inl (s.readPage (winType w) (winInst w) (winOff w) n)

/-- The report of a refused register access of a core, originator 0 (R353, R354, R361). -/
def State.coreWindowReport (s : State) (w n : Nat) : State :=
  if ¬ winExists w then s.refuse tyNode 0 eRange w 0
  else if winBcast w then s.refuse tyNode 0 eBcastRead w 0
  else if n ≠ 4 ∧ n ≠ 8 then s.refuse (winType w) (winInst w) eRange (winOff w) 0
  else s

/-! ### Completion of operations -/

/-- Wake a ring whose TAIL word an atomic touches (R214). -/
def State.wakeRing (s : State) (a : Nat) : State :=
  match (upTo 16).find? fun r =>
    let b := s.rd rFxpRing 0 (32 * r)
    bitOf b 63 && decide (a / 8 * 8 = bitsOf b 43 0) with
  | some r => if s.fxp.woken.contains r then s else { s with fxp := { s.fxp with woken := s.fxp.woken ++ [r] } }
  | none => s

/-- The value a load writes: sign- or zero-extended (Table 7-6). -/
def loadValue (bytes : Nat) (signed : Bool) (v : Nat) : Word :=
  if signed then sextNat (8 * bytes) v else BitVec.ofNat 64 v

/-- Write element `i` of `bytes` bytes in a wide register. -/
def wideSet (v : Wide) (bytes i x : Nat) : Wide :=
  BitVec.ofNat 512 (withBits v.toNat (8 * bytes * i + 8 * bytes - 1) (8 * bytes * i) x)

/-- The 8-byte words of a line that a mask selects, taken from new data over old (R142). -/
def maskLine (mask old new : Nat) : Nat :=
  (upTo 8).foldl (fun acc i => if bitOf mask i then withBits acc (64 * i + 63) (64 * i) (bitsOf new (64 * i + 63) (64 * i)) else acc) old

/-- Write the result of an operation into its destination: the bytes read, as a number. An operation without a result
writes nothing. -/
def CoreOp.deliver (op : CoreOp) (v : Nat) (th : Thread) : Thread :=
  match op with
  | .load bytes signed rd _ => th.setX rd (loadValue bytes signed (v % 2 ^ (8 * bytes)))
  | .fload bytes fd _ => th.setF fd (v % 2 ^ (8 * bytes))
  | .amo a _ bytes rd _ _ _ =>
    match a with
    | .addp | .strel => th
    | .swap | .add | .and | .or | .xor | .min | .max | .minu | .maxu | .cas | .fadd | .ldacq =>
      th.setX rd (BitVec.ofNat 64 (v % 2 ^ (8 * bytes)))
  | .wld wd mask _ => th.setW wd (BitVec.ofNat 512 (maskLine mask (th.getW wd).toNat v))
  | .gather bytes wd ((i, _) :: _) => th.setW wd (wideSet (th.getW wd) bytes i (v % 2 ^ (8 * bytes)))
  | .store _ _ _ | .fence _ | .halt | .wst _ _ _ | .gather _ _ [] | .scatter _ _ => th

/-- The address an operation names for FADDR. -/
def CoreOp.addr : CoreOp → Word
  | .load _ _ _ a | .fload _ _ a | .store _ a _ | .amo _ _ _ _ a _ _ | .wld _ _ a | .wst _ a _ => a
  | .gather _ _ ((_, a) :: _) => a
  | .scatter _ ((a, _) :: _) => a
  | .fence _ | .halt | .gather _ _ [] | .scatter _ [] => 0

/-- The bytes of an access of an operation. -/
def CoreOp.size : CoreOp → Nat
  | .load b _ _ _ | .fload b _ _ | .store b _ _ | .amo _ _ b _ _ _ _ | .gather b _ _ | .scatter b _ => b
  | .wld _ _ _ | .wst _ _ _ => 64
  | .fence _ | .halt => 0

/-- Suspend a thread on a wait (Table 7-2). -/
def State.suspend (s : State) (t : Nat) (w : ThreadWait) : State :=
  s.onThread t fun th => { th with run := .suspended, wait := some w }

/-- An instruction of a thread completes: the thread runs on at the next one. -/
def State.complete (s : State) (t : Nat) : State :=
  s.onThread t fun th => { th with run := .running, wait := none, pc := th.pc + 4 }

/-- HALT completes: the thread's part of the segment ends and it keeps none of its registers (R120, R122). -/
def State.haltDone (s : State) (t : Nat) : State :=
  s.onThread t fun th => { th with run := .halted, wait := none }

/-- The fence points of a thread: each destination with the highest sequence it has outstanding there (R208). -/
def State.fencePoints (s : State) (t : Nat) : List (Nat × Nat) :=
  (s.threadReqs t).foldl (fun acc r => r.copies.foldl (fun acc c =>
    match acc.find? fun p => p.1 = c.1 with
    | none => acc ++ [c]
    | some p => if seqGt c.2 p.2 then acc.map fun q => if q = p then c else q else acc) acc) []

/-- Every destination has acknowledged up to its point (R208). -/
def State.pointsDone (s : State) (points : List (Nat × Nat)) : Bool :=
  points.all fun p => seqGt (SMap.get 0 s.fxp.acked (streamKey p.1 false)) p.2

/-- The rank of this node in the node set (R158). -/
def State.rank (s : State) : Nat :=
  match s.job with
  | some j => j.nodes.findIdx fun n => n = s.nodeId
  | none => 0

/-- The key of a core's ordered FADD (R158). -/
def State.coreKey (s : State) (t : Nat) : Nat :=
  s.rank % 2 ^ 14 * 2 ^ 26 + t % 512 * 2 ^ 17 + (s.thread t).ordCount % 2 ^ 17

/-- One remote request of a thread (R124, R192). -/
def State.threadIssue (s : State) (t : Nat) (typ : ReqType) (node opf addr len : Nat) (payload : List Byte) (flags : Nat := 0) :
    State :=
  (s.issue typ (.thread t) node opf flags addr len payload).bump64 rCoreRemoteReq 1 (t / 8)

/-- A request of the thread can take a tag: fewer than 16 outstanding and one free (R124). -/
def State.threadCanIssue (s : State) (t : Nat) : Bool :=
  decide ((s.threadReqs t).length < 16) && s.threadTag.isSome

/-- Count a suspension for want of a tag (R124) and suspend. -/
def State.tagWait (s : State) (t : Nat) (op : CoreOp) : State :=
  (s.bump rCoreTagWait 1 (t / 8)).suspend t (.tag op)

/-- A posted access has been issued: marked acquire, it holds the thread back until it is acknowledged, otherwise the thread runs
on (R123, R131). -/
def State.posted (s : State) (t : Nat) (op : CoreOp) (ord : BitVec 2) : State :=
  match (s.threadReqs t).getLast? with
  | some r => if bitOf ord.toNat 0 then s.suspend t (.acquire op r.tag) else s.complete t
  | none => s.complete t

/-- The local memory that an access of an operation reaches runs, so that it is not held (R13). -/
def State.accessRuns (s : State) (addr : Word) (n : Nat) : Bool :=
  match s.coreAddr addr n with
  | .local a => s.addrRuns a
  | .window _ | .remote _ _ | .gone | .bad _ => true

/-- No access of the operation is held at a stopped domain (R13). -/
def State.opRuns (s : State) : CoreOp → Bool
  | .load n _ _ a | .fload n _ a | .store n a _ | .amo _ _ n _ a _ _ => s.accessRuns a n
  | .wld _ _ a | .wst _ a _ => s.accessRuns a 64
  | .gather n _ es => es.all fun e => s.accessRuns e.2 n
  | .scatter n es => es.all fun e => s.accessRuns e.1 n
  | .fence _ | .halt => true

/-- The byte runs of an eight-word mask (R142): the words that an access covers. -/
def maskWords (mask : Nat) : List Nat := (upTo 8).filter fun i => bitOf mask i

/-! ### Performing an operation -/

/-- The wire operand of an atomic: CAS puts its compare value in front (Table 10-3). -/
def amoPayload (op : AmoOp) (bytes v cmp : Nat) : List Byte :=
  match op with
  | .cas => bytesLE bytes cmp ++ bytesLE bytes v
  | .swap | .add | .and | .or | .xor | .min | .max | .minu | .maxu | .fadd | .addp | .ldacq | .strel => bytesLE bytes v

/-- A local atomic of a core: the CLOSE word starts a fold, an ordered FADD is logged, a TAIL word wakes its ring, any other is
performed (R133, R154, R157 to R160, R214). -/
def State.coreAmo (s : State) (t : Nat) (op : CoreOp) (a : AmoOp) (bytes addr v cmp : Nat) : State :=
  match s.closeOf addr with
  | some e => (s.closeStart e (.thread t op)).suspend t (.fold op)
  | none =>
    match a, s.oregOf addr with
    | .fadd, some e =>
      let st := s.stackOf addr
      if 2 ^ 17 ≤ (s.thread t).ordCount then s.faultHere t eRange op.addr
      else if s.logShare e st ≤ s.logUsed e st then (s.logRefuse e st).faultHere t eRange op.addr
      else
        let (old, s1) := s.coreRead (t / 8) addr bytes
        let s2 := (s1.logPut e addr (s.coreKey t) (v % 2 ^ (8 * bytes)) bytes (if bytes = 8 then 0 else 1)).bump64 rMsaAtomics 1 st
        (s2.onThread t fun th => op.deliver old { th with ordCount := th.ordCount + 1 }).complete t
    | _, _ =>
      let (old, s1) := s.amoLocal a addr bytes v cmp
      ((s1.wakeRing addr).onThread t (op.deliver old)).complete t

/-- A posted request of a thread was refused or abandoned: the first such is kept for its next fence (R197, R211). -/
def State.threadPosted (s : State) (t code : Nat) (addr : Word) : State :=
  s.onThread t fun th => { th with posted := match th.posted with | some p => some p | none => some (code, addr) }

/-- An operation with a result to a target in the fallback form: all-ones, and the fault E_DEAD_TARGET (R129, R211). -/
def State.goneLoad (s : State) (t : Nat) (op : CoreOp) : State :=
  (s.onThread t (op.deliver (2 ^ 512 - 1))).takeFault t eDeadTarget ((s.thread t).pc + 4) op.addr

/-- Perform one step of an operation whose waits are over: a local access at once, a remote one as a request. Gathers and
scatters run element by element, `fuel` bounding the elements (R143). Whether a remote FADD is an ordered one, which counts and may
fault as the 131,073rd, is free: only the target's region table says (R158, log entry 28). -/
def State.perform (s : State) (t : Nat) (op : CoreOp) : Nat → State
  | 0 => s
  | fuel + 1 =>
    match op with
    | .fence _ => s.complete t
    | .halt => s.haltDone t
    | .gather _ _ [] => s.complete t
    | .scatter _ [] => s.complete t
    | .load bytes _ _ addr | .fload bytes _ addr =>
      match s.coreAddr addr bytes with
      | .bad c => s.faultHere t c addr
      | .gone => s.goneLoad t op
      | .window w =>
        match s.coreWindowLoad w bytes with
        | .inl v => ((s.readDone (winType w) (winOff w) bytes).onThread t (op.deliver v)).complete t
        | .inr c => (s.coreWindowReport w bytes).faultHere t c addr
      | .local a =>
        let (v, s1) := s.coreRead (t / 8) a bytes
        (s1.onThread t (op.deliver v)).complete t
      | .remote n a =>
        if s.threadCanIssue t then (s.suspend t (.reply op)).threadIssue t .load n 0 a bytes [] else s.tagWait t op
    | .wld _ mask addr =>
      if mask % 256 = 0 then s.complete t
      else
      match s.coreAddr addr 64 with
      | .bad c => s.faultHere t c addr
      | .gone => s.goneLoad t op
      | .window w =>
        match s.coreWindowLoad w 64 with
        | .inl v => (s.onThread t (op.deliver v)).complete t
        | .inr c => (s.coreWindowReport w 64).faultHere t c addr
      | .local a =>
        let (v, s1) := s.coreRead (t / 8) a 64
        (s1.onThread t (op.deliver v)).complete t
      | .remote n a =>
        if s.threadCanIssue t then (s.suspend t (.reply op)).threadIssue t .load n 0 a 64 [] else s.tagWait t op
    | .store bytes addr data =>
      match s.coreAddr addr bytes with
      | .bad c => s.faultHere t c addr
      | .gone => (s.threadPosted t eFenceTimeout addr).complete t
      | .window _ => s.faultHere t eLocked addr
      | .local a =>
        if s.hitsImage a bytes then s.faultHere t eLocked addr
        else (s.coreStore (t / 8) a (bytesLE bytes data)).complete t
      | .remote n a =>
        if s.threadCanIssue t then (s.threadIssue t .store n 0 a bytes (bytesLE bytes data)).complete t else s.tagWait t op
    | .wst mask addr data =>
      if mask % 256 = 0 then s.complete t
      else
      match s.coreAddr addr 64 with
      | .bad c => s.faultHere t c addr
      | .gone => (s.threadPosted t eFenceTimeout addr).complete t
      | .window _ => s.faultHere t eLocked addr
      | .local a =>
        if (maskWords mask).any fun i => s.hitsImage (a + 8 * i) 8 then s.faultHere t eLocked addr
        else if mask % 256 = 255 then (s.coreStore (t / 8) a (bytesLE 64 data)).complete t
        else
          match s.lineState a with
          | .plain _ =>
            ((maskWords mask).foldl (fun u i => u.coreStore (t / 8) (a + 8 * i) (bytesLE 8 (bitsOf data (64 * i + 63) (64 * i)))) s).complete t
          | .denied | .poisoned | .fenced => (s.noteLine a).complete t
      | .remote n a =>
        if s.threadCanIssue t then (s.threadIssue t .store n (if mask % 256 = 255 then 0 else mask % 256) a 64 (bytesLE 64 data)).complete t else s.tagWait t op
    | .amo aop ord bytes _ addr v cmp =>
      match s.coreAddr addr bytes with
      | .bad c => s.faultHere t c addr
      | .gone =>
        match aop with
        | .strel | .addp => (s.threadPosted t eFenceTimeout addr).complete t
        | .ldacq | .swap | .add | .and | .or | .xor | .min | .max | .minu | .maxu | .cas | .fadd => s.goneLoad t op
      | .window w =>
        match aop with
        | .ldacq =>
          match s.coreWindowLoad w bytes with
          | .inl x => ((s.readDone (winType w) (winOff w) bytes).onThread t (op.deliver x)).complete t
          | .inr c => (s.coreWindowReport w bytes).faultHere t c addr
        | .strel | .swap | .add | .and | .or | .xor | .min | .max | .minu | .maxu | .cas | .fadd | .addp =>
          s.faultHere t eLocked addr
      | .local a =>
        match aop with
        | .ldacq =>
          let (x, s1) := s.coreRead (t / 8) a bytes
          (s1.onThread t (op.deliver x)).complete t
        | .strel =>
          if s.hitsImage a bytes then s.faultHere t eLocked addr else (s.coreStore (t / 8) a (bytesLE bytes v)).complete t
        | .swap | .add | .and | .or | .xor | .min | .max | .minu | .maxu | .cas | .fadd | .addp =>
          if s.hitsImage a bytes then s.faultHere t eLocked addr else s.coreAmo t op aop bytes a v cmp
      | .remote n a =>
        if s.threadCanIssue t then
          match aop with
          | .ldacq => (s.suspend t (.reply op)).threadIssue t .load n 0 a bytes []
          | .strel => (s.threadIssue t .store n 0 a bytes (bytesLE bytes v)).posted t op ord
          | .addp =>
            (s.threadIssue t .atomicP n (11 + 16 * (decide (bytes = 8)).toNat) a bytes (bytesLE bytes v)).posted t op ord
          | .fadd =>
            let (r, s0) := s.free 54
            let ordered := decide (r % 2 = 1)
            if ordered && decide (2 ^ 17 ≤ (s0.thread t).ordCount) then s0.faultHere t eRange addr
            else
              let pl := bytesLE 8 (s0.coreKey t) ++ amoPayload aop bytes v cmp
              ((s0.suspend t (.reply op)).onThread t fun th => { th with ordCount := th.ordCount + ordered.toNat }).threadIssue t .atomic n
                (aop.code + 16 * (decide (bytes = 8)).toNat) a pl.length pl 1
          | .swap | .add | .and | .or | .xor | .min | .max | .minu | .maxu | .cas =>
            let pl := amoPayload aop bytes v cmp
            (s.suspend t (.reply op)).threadIssue t .atomic n (aop.code + 16 * (decide (bytes = 8)).toNat) a pl.length pl
        else s.tagWait t op
    | .gather bytes wd ((i, addr) :: rest) =>
      match s.coreAddr addr bytes with
      | .bad c => s.faultHere t c addr
      | .gone => s.goneLoad t op
      | .window w =>
        match s.coreWindowLoad w bytes with
        | .inl v =>
          ((s.readDone (winType w) (winOff w) bytes).onThread t (op.deliver v)).perform t (.gather bytes wd rest) fuel
        | .inr c => (s.coreWindowReport w bytes).faultHere t c addr
      | .local a =>
        let (v, s1) := s.coreRead (t / 8) a bytes
        (s1.onThread t (CoreOp.deliver (.gather bytes wd ((i, addr) :: rest)) v)).perform t (.gather bytes wd rest) fuel
      | .remote n a =>
        if s.threadCanIssue t then (s.suspend t (.reply op)).threadIssue t .load n 0 a bytes [] else s.tagWait t op
    | .scatter bytes ((addr, v) :: rest) =>
      match s.coreAddr addr bytes with
      | .bad c => s.faultHere t c addr
      | .gone => (s.threadPosted t eFenceTimeout addr).perform t (.scatter bytes rest) fuel
      | .window _ => s.faultHere t eLocked addr
      | .local a =>
        if s.hitsImage a bytes then s.faultHere t eLocked addr
        else (s.coreStore (t / 8) a (bytesLE bytes v)).perform t (.scatter bytes rest) fuel
      | .remote n a =>
        if s.threadCanIssue t then
          (s.threadIssue t .store n 0 a bytes (bytesLE bytes v)).perform t (.scatter bytes rest) fuel
        else s.tagWait t op

/-- The steps an operation can take: one for each of at most 16 elements, and one to complete. -/
abbrev opFuel : Nat := 20

/-- The operation first waits as FENCE.G does: FENCE.G itself, HALT, and release accesses (R122, R131). -/
def CoreOp.waitsFence : CoreOp → Bool
  | .fence g => g
  | .halt => true
  | .amo a ord _ _ _ _ _ => decide (a = .strel) || bitOf ord.toNat 1
  | .load _ _ _ _ | .fload _ _ _ | .store _ _ _ | .wld _ _ _ | .wst _ _ _ | .gather _ _ _ | .scatter _ _ => false

/-- Begin an operation at the thread's pc: a posted request that was refused or abandoned faults first, then the fence wait
(R129, R131, R197, R208, R211). -/
def State.runOp (s : State) (t : Nat) (op : CoreOp) : State :=
  if op.waitsFence then
    match (s.thread t).posted with
    | some (code, addr) =>
      let s1 := s.onThread t fun th => { th with posted := none }
      let pc := (s.thread t).pc
      s1.takeFault t code (if code = eFenceTimeout then pc + 4 else pc) addr
    | none =>
      let points := s.fencePoints t
      if s.pointsDone points then s.perform t op opFuel else s.suspend t (.fence op points)
  else s.perform t op opFuel

/-- Let a suspended thread go on where its wait is over: a tag, or its fence points (R123, R124, R208). -/
def State.resumeThread (s : State) (t : Nat) : State :=
  let th := s.thread t
  match th.wait with
  | some (.tag op) => if s.threadCanIssue t then s.perform t op opFuel else s
  | some (.fence op points) =>
    if s.pointsDone points then
      match th.posted with
      | some (code, addr) =>
        (s.onThread t fun x => { x with posted := none }).takeFault t code (if code = eFenceTimeout then th.pc + 4 else th.pc) addr
      | none => s.perform t op opFuel
    else s
  | some (.acquire _ tag) => if (s.threadReqs t).any fun r => r.tag = tag then s else s.complete t
  | some (.reply _) | some (.fold _) | none => s

/-- Let every suspended thread go on where it can, in thread order. -/
def State.resumeAll (s : State) : State := (s.threads.map (·.1)).foldl State.resumeThread s

/-- A response with data completes the operation that a thread waits for: the destination is written, and a gather goes on
(R123, R143, R193). -/
def State.threadReply (s : State) (t : Nat) (data : List Byte) : State :=
  match (s.thread t).wait with
  | some (.reply op) =>
    let s1 := s.onThread t fun th => { (op.deliver (natLE data) th) with run := .running, wait := none }
    match op with
    | .gather bytes wd (_ :: rest) => s1.perform t (.gather bytes wd rest) opFuel
    | _ => s1.complete t
  | _ => s

/-- An operation with a result fails: every destination byte the request covers reads 0xFF and the fault is taken. Under R129
FEPC names the next instruction, under R197 the instruction itself. -/
def State.threadFail (s : State) (t code : Nat) (addr : Word) (next : Bool) : State :=
  match (s.thread t).wait with
  | some (.reply op) =>
    let s1 := s.onThread t (op.deliver (2 ^ 512 - 1))
    let pc := (s.thread t).pc
    s1.takeFault t code (if next then pc + 4 else pc) addr
  | _ => s

/-- Start the listed thread of a core list (R122). -/
def State.startThread (s : State) (e : ThreadEntry) : State :=
  let th : Thread := { run := .running, pc := BitVec.ofNat 64 (s.imgBase + e.entry), handler := BitVec.ofNat 64 e.handler }
  s.setThread e.thread ((th.setX 1 (BitVec.ofNat 64 e.arg)).setX 2 (BitVec.ofNat 64 e.thread))

end Sys2Proof.Machine
end

