-- ==== Sys2Proof/Machine/Field.lean ====
section
/-!
DEFINITION. Fields: where an element lies, what it denotes, the operand converters and the result stage (R25 to R27, R41,
R45 to R54, R63, R64).
-/

namespace Sys2Proof.Machine

/-- The descriptor of a field of the loaded job. -/
def State.field (s : State) (no : Nat) : Option Field := s.job.bind fun j => j.fields[no]?

/-- EXTENT of a dimension. -/
def Field.extent (f : Field) (d : Nat) : Nat := f.ext.getD d 1

/-- The byte stride of dimension 1, 2 or 3. -/
def Field.stride (f : Field) (d : Nat) : Nat := f.str.getD (d - 1) 0

/-- An element index (i0, i1, i2, i3). -/
abbrev Idx := List Nat

/-- The bit address of an element (R27, R41). -/
def Field.bitAddr (f : Field) (i : Idx) : Nat :=
  8 * (f.base + i.getD 1 0 * f.stride 1 + i.getD 2 0 * f.stride 2 + i.getD 3 0 * f.stride 3) + i.getD 0 0 * f.fmt.bits

/-- The linear element index of an element. -/
def Field.linear (f : Field) (i : Idx) : Nat :=
  ((i.getD 3 0 * f.extent 2 + i.getD 2 0) * f.extent 1 + i.getD 1 0) * f.extent 0 + i.getD 0 0

/-- The element of a linear element index. -/
def Field.ofLinear (f : Field) (n : Nat) : Idx :=
  [n % f.extent 0, n / f.extent 0 % f.extent 1, n / f.extent 0 / f.extent 1 % f.extent 2,
    n / f.extent 0 / f.extent 1 / f.extent 2]

/-- The number of elements. -/
def Field.size (f : Field) : Nat := f.extent 0 * f.extent 1 * f.extent 2 * f.extent 3

/-- The element lies in the field. -/
def Field.has (f : Field) (i : Idx) : Bool := (upTo 4).all fun d => decide (i.getD d 0 < f.extent d)

/-- The address of the scale byte of an element (R50, R52). -/
def Field.scaleAddr (f : Field) (i : Idx) : Nat :=
  if f.mx then
    f.scaleBase + ((i.getD 3 0 * f.extent 2 + i.getD 2 0) * f.extent 1 + i.getD 1 0) * (f.extent 0 / 32) + i.getD 0 0 / 32
  else f.scaleBase + i.getD 2 0 * f.extent 1 + i.getD 1 0

/-- `w` bits of local memory at a bit address. -/
def State.bitsAt (s : State) (ba w : Nat) : Nat :=
  natLE (s.peekN (ba / 8) ((ba % 8 + w + 7) / 8)) / 2 ^ (ba % 8) % 2 ^ w

/-- Write `w` bits of local memory at a bit address. -/
def State.putBits (s : State) (ba w v : Nat) : State :=
  let n := (ba % 8 + w + 7) / 8
  s.store (ba / 8) (bytesLE n (withBits (natLE (s.peekN (ba / 8) n)) (ba % 8 + w - 1) (ba % 8) v))

/-- The encoding of an element. -/
def State.elemRaw (s : State) (f : Field) (i : Idx) : Nat := s.bitsAt (f.bitAddr i) f.fmt.bits

/-- The scale byte of an element. -/
def State.elemScale (s : State) (f : Field) (i : Idx) : Nat := (s.peek (f.scaleAddr i)).toNat

/-- The eight slices of a W64S element, most significant first (R52). -/
def State.elemSlices (s : State) (f : Field) (i : Idx) : List Int :=
  (upTo 8).map fun p => signedOf 8 (s.elemRaw f [i.getD 0 0, i.getD 1 0, i.getD 2 0, p])

/-- The integer that slices make: the sum of d_p * 2^(7 (7 - p)) (R53). -/
def sliceSum (d : List Int) : Int := d.foldl (fun acc x => acc * 128 + x) 0

/-- The value of a W64S element (R53): +0 for a zero sum, NaN in a row of scale 0xFF. -/
def w64sVal (e : Nat) (d : List Int) : FVal :=
  if e = 0xFF then .nan
  else if e = 0 ∨ sliceSum d = 0 then .fin false 0 0
  else (FVal.ofInt (sliceSum d)).scale ((e : Int) - 182)

/-- The value of an MX element (R49, R50). -/
def mxVal (f : Fmt) (scale raw : Nat) : FVal :=
  if scale = 0xFF then .nan
  else (decodeFmt f raw).scale ((scale : Int) - 127 - (if f.isInt then 6 else 0))

/-- The value that an element denotes. -/
def State.elemVal (s : State) (f : Field) (i : Idx) : FVal :=
  if f.fmt = .w64s then w64sVal (s.elemScale f i) (s.elemSlices f i)
  else if f.mx then mxVal f.fmt (s.elemScale f i) (s.elemRaw f i)
  else decodeFmt f.fmt (s.elemRaw f i)

/-- An FP64 pattern of an element of a linear index. -/
def State.getF64 (s : State) (f : Field) (n : Nat) : Nat := s.elemRaw f (f.ofLinear n)

/-- Write an element of a linear index. -/
def State.putElem (s : State) (f : Field) (n v : Nat) : State := s.putBits (f.bitAddr (f.ofLinear n)) f.fmt.bits v

/-- The lines that hold an element, the planes of a W64S element and its scale byte among them. -/
def Field.lines (f : Field) (i : Idx) : List Nat :=
  let span := fun (j : Idx) => [f.bitAddr j / 512, (f.bitAddr j + f.fmt.bits - 1) / 512]
  (if f.fmt = .w64s then (upTo 8).flatMap fun p => span [i.getD 0 0, i.getD 1 0, i.getD 2 0, p] else span i) ++
  (if f.mx ∨ f.fmt = .w64s then [f.scaleAddr i / 64] else [])

/-- Count an engine's read of elements, line by line (R153, R163, R166, R172, R179). -/
def State.noteIdx (s : State) (f : Field) (is : List Idx) : State :=
  (is.flatMap f.lines).eraseDups.foldl (fun t l => t.noteRead (64 * l) 64) s

/-- The A-dies whose LLM holds bytes of a field of the LLM window. -/
def Field.dies (f : Field) : List Nat :=
  let die := fun (a : Nat) => a % 0x20000000 / 0x8000000
  let last := f.bitAddr (f.ext.map (· - 1)) / 8
  (upTo 4).filter fun k => (decide (die f.base ≤ k) && decide (k ≤ die last)) ||
    ((f.mx || decide (f.fmt = .w64s)) && decide (k = die f.scaleBase))

/-- The memory that holds a field runs; an access to it is held otherwise (R13, R154; log entry 82). -/
def State.memRuns (s : State) (f : Field) : Bool := if f.llm then s.domainsRun (f.dies.map (13 + ·)) else s.hbmRuns

/-! ### Conversion (R45 to R48, R63) -/

/-- Conversion events (Table 3-8). -/
structure Counts where
  sat : Nat := 0
  nan : Nat := 0
  rloss : Nat := 0
  deriving DecidableEq, Repr

/-- The sum of two counts. -/
def Counts.add (a b : Counts) : Counts := ⟨a.sat + b.sat, a.nan + b.nan, a.rloss + b.rloss⟩

/-- The events of one conversion. -/
def Counts.ofFlags (f : Flags) : Counts := ⟨f.sat.toNat, f.cnan.toNat, 0⟩

/-- The class of a destination for a value that no format bounds: the overflow column of Table 3-5 (R45). -/
def destClass (dst : Fmt) : ConvClass :=
  if dst.isInt then .toInt
  else match dst with
    | .fp64 | .fp32 | .bf16 | .fp16 => .ieee
    | _ => .sat

/-- The operand converter: the encoding in `dst` of `x * 2^prescale`, rounded once (R63). -/
def cvtOperand (src dst : Fmt) (prescale : Int) (raw : Nat) : Nat × Flags :=
  if prescale = 0 then convert src dst raw
  else encodeClass (destClass dst) dst ((decodeFmt src raw).scale prescale)

/-! ### Walnut slices (R54, R71) -/

/-- Cut a magnitude into eight 7-bit groups from bit 55 down, each with the sign (R71). -/
def slicesOf (m : Int) : List Int :=
  (upTo 8).map fun p =>
    let d : Int := bitsOf m.natAbs (55 - 7 * p) (49 - 7 * p)
    if m < 0 then -d else d

/-- RNE(x * 2^(55 - e)) of a finite value. -/
def alignTo (e : Int) (v : FVal) : Int :=
  match v with
  | .fin neg m x => (roundInt m (x + 55 - e) neg).1
  | .nan | .inf _ => 0

/-- Place a value on the grid of a row exponent: the aligned integer, whether it saturated and whether it has range loss
(R71). -/
def alignClamp (e : Int) (v : FVal) : Int × Bool × Bool :=
  let m := alignTo e v
  let lost := v.isFinite && !v.isZero && decide (v.log2 < e - 55)
  if 2 ^ 56 ≤ m.natAbs then ((if m < 0 then -(2 ^ 56 - 1) else 2 ^ 56 - 1), true, lost) else (m, false, lost)

/-- The greatest floor(log2 |v|) of the finite non-zero values of a row. -/
def maxLog2 (vs : List FVal) : Option Int :=
  vs.foldl (fun acc v =>
    if v.isFinite && !v.isZero then some (match acc with | some a => max a v.log2 | none => v.log2) else acc) none

/-! ### Result stage (R50 to R54, R64, R93) -/

/-- emax of an MX element format (R51). -/
def mxEmax : Fmt → Int
  | .e4m3 => 8 | .e5m2 => 15 | .e3m2 => 4 | .e2m3 => 2 | .e2m1 => 2
  | .fp64 | .fp32 | .bf16 | .fp16 | .int64 | .int32 | .int16 | .int8 | .int4 | .ue8m0 | .w64s => 0

/-- Encode one block of 32 values: scale, element encodings and events (R51). -/
def mxBlock (f : Fmt) (vs : List FVal) : Nat × List Nat × Counts :=
  if vs.any FVal.isNan then (0xFF, vs.map fun _ => 0, { nan := 1 })
  else
    let e : Int := match maxLog2 vs with
      | some l => max (-127) (min 127 (l - mxEmax f))
      | none => -127
    let one := fun (v : FVal) =>
      if f.isInt then encodeIntRange 8 (-127) 127 ((v.scale (-e)).scale 6) else encodeSat f (v.scale (-e))
    let rs := vs.map one
    ((e + 127).toNat, rs.map (·.1), rs.foldl (fun a r => a.add ⟨r.2.sat.toNat, 0, 0⟩) {})

/-- Encode one W64S row: scale byte, the aligned integer of each element, and events (R54). -/
def w64sRow (vs : List FVal) : Nat × List Int × Counts :=
  let bad := vs.filter fun v => !v.isFinite
  if bad ≠ [] then (0xFF, vs.map fun _ => 0, { nan := bad.length })
  else
    match maxLog2 vs with
    | none => (0, vs.map fun _ => 0, {})
    | some l =>
      let e := max (-126) (min 127 l)
      let rs := vs.map (alignClamp e)
      ((e + 127).toNat, rs.map (·.1),
        rs.foldl (fun a r => a.add ⟨(r.2.1).toNat, 0, (r.2.2).toNat⟩) {})

/-- Write one row of encodings along dimension 0. -/
def State.putRow (s : State) (f : Field) (i : Idx) : List Nat → State
  | [] => s
  | r :: rs => (s.putBits (f.bitAddr i) f.fmt.bits r).putRow f (i.set 0 (i.getD 0 0 + 1)) rs

/-- Move an index along a dimension. -/
def idxAdd (i : Idx) (d n : Nat) : Idx := i.set d (i.getD d 0 + n)

/-- Write one row of values into a field along dimension 0 from an index, in the field's format (R51, R54, R64). -/
def State.writeRow (s : State) (f : Field) (src : Fmt) (i : Idx) (row : List Nat) : State × Counts :=
  if f.fmt = .w64s then
    let (e, ms, c) := w64sRow (row.map (decodeFmt src))
    let s1 := (upTo 8).foldl (fun t p =>
      t.putRow f [i.getD 0 0, i.getD 1 0, i.getD 2 0, p] (ms.map fun m => patternOf 8 ((slicesOf m).getD p 0))) s
    (s1.store (f.scaleAddr i) [BitVec.ofNat 8 e], c)
  else if f.mx then
    (upTo (row.length / 32)).foldl (fun acc b =>
      let (x, es, c) := mxBlock f.fmt (((row.drop (32 * b)).take 32).map (decodeFmt src))
      let j := idxAdd i 0 (32 * b)
      ((acc.1.putRow f j es).store (f.scaleAddr j) [BitVec.ofNat 8 x], acc.2.add c)) (s, {})
  else
    let rs := row.map (convert src f.fmt)
    (s.putRow f i (rs.map (·.1)), rs.foldl (fun a r => a.add (Counts.ofFlags r.2)) {})

/-- Columns of a list of rows. -/
def columns (n : Nat) (rows : List (List Nat)) : List (List Nat) := (upTo n).map fun j => rows.map fun r => r.getD j 0

/-- The result stage: write rows of patterns of a source format into a field from START. ORIENT 0 runs a row along dimension
0, ORIENT 1 along dimension 1 (Tables 4-7 and 5-5). -/
def State.resultStage (s : State) (f : Field) (src : Fmt) (start : Idx) (orient : Bool) (rows : List (List Nat)) :
    State × Counts :=
  let lines := if orient then columns (rows.headD []).length rows else rows
  ((upTo lines.length).foldl (fun acc r =>
    let x := acc.1.writeRow f src (idxAdd start 1 r) (lines.getD r [])
    (x.1, acc.2.add x.2)) (s, {}))

/-- Add conversion events to the counters of a TILE page; CONV_RLOSS stays 0 there (Table 3-8). -/
def State.countTile (s : State) (t : Nat) (c : Counts) : State :=
  (s.bump rTileConvSat c.sat t).bump rTileConvNan c.nan t

/-- Add conversion events to the counters of a VEC page; the first range loss of a job raises E_WALNUT_RANGE (R54). -/
def State.countVec (s : State) (v : Nat) (field : Nat) (c : Counts) : State :=
  let s1 := (s.bump rVecConvSat c.sat v).bump rVecConvNan c.nan v
  let s2 := if s1.rd rVecConvRloss v = 0 ∧ c.rloss ≠ 0 then s1.raise tyVec v eWalnutRange field 0 else s1
  s2.bump rVecConvRloss c.rloss v

end Sys2Proof.Machine
end

