-- ==== Sys2Proof/Machine/Image.lean ====
section
/-!
DEFINITION. The step graph image: header, segment table, field descriptors, node set, and the checks on them (R19, R21, R22,
R25 to R27, R49, R52, R248).
-/

namespace Sys2Proof.Machine

/-- A failing check: its image offset. -/
abbrev Bad := List Nat

/-- A check of R19 at an image offset. -/
def need (b : Bool) (off : Nat) : Bad := if b then [] else [off]

/-- The refusal of a load: code, ERR_INFO0 and ERR_INFO1. -/
structure LoadErr where
  code : Nat
  info0 : Nat
  info1 : Nat
  deriving DecidableEq, Repr

/-- The lowest failing offset, as a refusal under R19. -/
def refuseBad : Bad → Option LoadErr
  | [] => none
  | b :: bs => some ⟨eBadcmd, bs.foldl min b, 0⟩

/-- A table of `size` bytes at an offset lies in the image. -/
def fits (img : List Byte) (off size : Nat) : Bool := decide (off + size ≤ img.length)

/-! ### Header (Table 2-1) -/

def segCount (img : List Byte) : Nat := fieldLE img 0x06 2
def fieldCount (img : List Byte) : Nat := fieldLE img 0x08 2
def collCountOf (img : List Byte) : Nat := fieldLE img 0x0C 4
def partCountOf (img : List Byte) : Nat := fieldLE img 0x18 4
def nodeCountOf (img : List Byte) : Nat := fieldLE img 0x1C 2
def segOff (img : List Byte) : Nat := fieldLE img 0x20 8
def fieldOff (img : List Byte) : Nat := fieldLE img 0x28 8
def nodeOff (img : List Byte) : Nat := fieldLE img 0x30 8

/-- CRC-32C of the whole image with the CRC field 0. -/
def imageCrc (img : List Byte) : Nat := (crc32c (img.take 0x38 ++ [0, 0, 0, 0] ++ img.drop 0x3C)).toNat

/-- The header fields that fail, in ascending offset (R19, R248). -/
def headerBad (img : List Byte) : Bad :=
  need (fieldLE img 0x00 4 = 0x53544750) 0x00 ++
  need (fieldLE img 0x04 2 = 1) 0x04 ++
  need (decide (1 ≤ segCount img) && decide (segCount img ≤ 256)) 0x06 ++
  need (decide (1 ≤ fieldCount img) && decide (fieldCount img ≤ 4096)) 0x08 ++
  need (fieldLE img 0x0A 2 = 0) 0x0A ++
  need (collCountOf img ≤ 65536) 0x0C ++
  need (decide (1 ≤ partCountOf img) && decide (nodeCountOf img ≤ partCountOf img)) 0x18 ++
  need (decide (1 ≤ nodeCountOf img) && decide (nodeCountOf img ≤ 16384)) 0x1C ++
  need (fieldLE img 0x1E 2 = 0) 0x1E ++
  need (segOff img % 32 = 0 && fits img (segOff img) (32 * segCount img)) 0x20 ++
  need (fieldOff img % 64 = 0 && fits img (fieldOff img) (64 * fieldCount img)) 0x28 ++
  need (fits img (nodeOff img) (2 * nodeCountOf img)) 0x30 ++
  need (fieldLE img 0x38 4 = imageCrc img) 0x38 ++
  need (fieldLE img 0x3C 4 = 0) 0x3C

/-! ### Fields (Table 2-3) -/

/-- The field descriptor at a position. -/
def parseField (img : List Byte) (i : Nat) : Field :=
  let o := fieldOff img + 64 * i
  { no := i
    fmt := (Fmt.ofCode (fieldLE img (o + 2) 1 % 32)).getD .fp64
    mx := bitOf (fieldLE img (o + 3) 1) 0
    llm := bitOf (fieldLE img (o + 3) 1) 1
    rank := fieldLE img (o + 4) 1
    base := fieldLE img (o + 8) 8
    ext := (upTo 4).map fun k => fieldLE img (o + 0x10 + 4 * k) 4
    str := (upTo 3).map fun k => fieldLE img (o + 0x20 + 8 * k) 8
    scaleBase := fieldLE img (o + 0x38) 8 }

/-- The element formats of MX fields (R49). -/
def mxElement (f : Fmt) : Bool :=
  match f with
  | .e4m3 | .e5m2 | .e3m2 | .e2m3 | .e2m1 | .int8 => true
  | .fp64 | .fp32 | .bf16 | .fp16 | .int64 | .int32 | .int16 | .int4 | .ue8m0 | .w64s => false

/-- The bytes of a row along dimension 0. -/
def Field.rowBytes (f : Field) : Nat := (f.extent 0 * f.fmt.bits + 7) / 8

/-- Each stride is at least what lies below it, and a dimension at or above RANK has extent 1 and stride 0 (R27). -/
def Field.stridesOk (f : Field) : Bool :=
  (upTo 3).all fun k =>
    let d := k + 1
    if d < f.rank then
      decide ((if d = 1 then f.rowBytes else f.stride (d - 1) * f.extent (d - 1)) ≤ f.stride d)
    else decide (f.extent d = 1) && decide (f.stride d = 0)

/-- EXTENT0 is a multiple of what packing and MX blocks ask for (R27). -/
def Field.packOk (f : Field) : Bool :=
  let k := if f.mx then 32 else if f.fmt.bits = 4 then 2 else if f.fmt.bits = 6 then 4 else 1
  decide (f.extent 0 % k = 0)

/-- The descriptor at a position meets Table 2-3, R26, R27, R49 and R52; a failure names the descriptor (R25). DESIGN
CHOICE (log entry 83): an extent of 0, for which Table 2-3 gives no minimum, is refused with E_BADCMD. -/
def fieldBad (img : List Byte) (i : Nat) : Bad :=
  let o := fieldOff img + 64 * i
  let f := parseField img i
  let scaled := f.mx || decide (f.fmt = .w64s)
  need (decide (fieldLE img o 2 = i) && decide (fieldLE img (o + 2) 1 / 16 = 0) && decide (fieldLE img (o + 3) 1 / 4 = 0) &&
    decide (1 ≤ f.rank) && decide (f.rank ≤ 4) && decide (fieldLE img (o + 5) 3 = 0) &&
    decide (f.base % 64 = 0) && decide (f.base < 2 ^ 44) && f.ext.all (fun e => decide (1 ≤ e)) && f.stridesOk && f.packOk &&
    (!f.mx || mxElement f.fmt) && (f.fmt != .w64s || (decide (f.rank = 4) && decide (f.extent 3 = 8))) &&
    (if scaled then decide (f.scaleBase % 64 = 0) else decide (f.scaleBase = 0))) o

/-- The element part: first byte and one past the last byte (R27). -/
def Field.elemPart (f : Field) : Nat × Nat :=
  (f.base, f.base + (f.extent 1 - 1) * f.stride 1 + (f.extent 2 - 1) * f.stride 2 + (f.extent 3 - 1) * f.stride 3 + f.rowBytes)

/-- The bytes of the scale part, 0 where there is none (R27). -/
def Field.scaleLen (f : Field) : Nat :=
  if f.mx then f.extent 0 / 32 * f.extent 1 * f.extent 2 * f.extent 3
  else if f.fmt = .w64s then f.extent 1 * f.extent 2 else 0

/-- The parts of a footprint. -/
def Field.parts (f : Field) : List (Nat × Nat) :=
  f.elemPart :: (if f.scaleLen = 0 then [] else [(f.scaleBase, f.scaleBase + f.scaleLen)])

/-- Two byte ranges share a byte. -/
def meets (a b : Nat × Nat) : Bool := decide (a.1 < b.2) && decide (b.1 < a.2)

/-- Some range of one list shares a byte with some range of the other. -/
def anyMeet (a b : List (Nat × Nat)) : Bool := a.any fun x => b.any (meets x)

/-- Every part lies in its memory (R27, R337). -/
def State.placedOk (s : State) (f : Field) : Bool :=
  f.parts.all fun p => if f.llm then inLlm p.1 (p.2 - p.1) else s.inOpenHbm p.1 (p.2 - p.1)

/-- The first misplaced field, else the first overlapping pair (R27). -/
def State.placementErr (s : State) (fs : List Field) : Option LoadErr :=
  match fs.find? fun f => !s.placedOk f with
  | some f => some ⟨eRange, f.no + 0xFFFF0000, 0⟩
  | none =>
    fs.findSome? fun f =>
      let own := match f.parts with
        | [a, b] => meets a b
        | _ => false
      if own then some ⟨eRange, f.no + f.no * 2 ^ 16, 0⟩
      else (fs.find? fun g => decide (f.no < g.no) && anyMeet f.parts g.parts).map fun g =>
        ⟨eRange, f.no + g.no * 2 ^ 16, 0⟩

/-! ### Segments (Table 2-2) -/

/-- A segment without its engine lists. -/
def parseSegment (img : List Byte) (i : Nat) : Segment :=
  let o := segOff img + 32 * i
  let acc := fieldLE img (o + 0x18) 8
  { phase := fieldLE img o 1
    wake := fieldLE img (o + 2) 2
    preds := ((upTo 4).map fun k => fieldLE img (o + 4 + k) 1).filter (· ≠ 0xFF)
    engines := fieldLE img (o + 0x10) 2
    access := (upTo (fieldLE img (o + 0x12) 2)).map fun k =>
      let e := fieldLE img (acc + 2 * k) 2
      (e % 4096, bitOf e 15) }

/-- The fields of a segment record that fail (R19, R21). -/
def segmentBad (img : List Byte) (i : Nat) : Bad :=
  let o := segOff img + 32 * i
  let g := parseSegment img i
  let cnt := fieldLE img (o + 0x12) 2
  let acc := fieldLE img (o + 0x18) 8
  need (g.phase ≤ 4) o ++ need (fieldLE img (o + 1) 1 = 0) (o + 1) ++ need (g.wake < 2 ^ 12) (o + 2) ++
  need ((g.preds.all fun p => decide (p < i)) && decide (g.preds.eraseDups.length = g.preds.length)) (o + 4) ++
  need (g.engines % 32 = 0 || fits img (fieldLE img (o + 8) 8) 32) (o + 8) ++
  need (g.engines < 2 ^ 6) (o + 0x10) ++ need (cnt ≤ 4096) (o + 0x12) ++ need (fieldLE img (o + 0x14) 4 = 0) (o + 0x14) ++
  (if cnt = 0 then []
   else if !fits img acc (2 * cnt) then [o + 0x18]
   else (upTo cnt).flatMap fun k =>
     let e := fieldLE img (acc + 2 * k) 2
     need (decide (bitsOf e 14 12 = 0) && decide (e % 4096 < fieldCount img)) (acc + 2 * k))

/-- The segments that reach each segment by predecessor links (R22). -/
def ancestors (gs : List Segment) : List (List Nat) :=
  gs.foldl (fun anc g => anc ++ [(g.preds.flatMap fun p => p :: anc.getD p []).eraseDups]) []

/-- The first two unordered segments that both name a field, one of them for writing (R22). DESIGN CHOICE (log entry 83): the
lower segment index stands in [15:8] and the higher in [7:0], and of several conflicts the one with the lowest lower index, then
the lowest higher index, then the first entry of the lower segment's access list is reported. -/
def raceErr (gs : List Segment) : Option LoadErr :=
  let anc := ancestors gs
  (upTo gs.length).findSome? fun a =>
    (upTo gs.length).findSome? fun b =>
      if b ≤ a ∨ (anc.getD b []).contains a then none
      else
        let ga := (gs[a]?.map (·.access)).getD []
        let gb := (gs[b]?.map (·.access)).getD []
        (ga.findSome? fun x => (gb.find? fun y => decide (y.1 = x.1) && (x.2 || y.2)).map (·.1)).map fun f =>
          ⟨eBadcmd, a * 256 + b, f⟩

/-! ### Node set (R19) -/

/-- The node IDs in rank order. -/
def parseNodes (img : List Byte) : List Nat := (upTo (nodeCountOf img)).map fun k => fieldLE img (nodeOff img + 2 * k) 2

/-- Entries with reserved bits, and second occurrences. -/
def nodesBad (img : List Byte) : Bad :=
  let ns := parseNodes img
  (upTo ns.length).flatMap fun k =>
    let v := ns.getD k 0
    need (decide (v < 2 ^ 14) && !((ns.take k).contains v)) (nodeOff img + 2 * k)

end Sys2Proof.Machine
end

