-- ==== Sys2Proof/Machine/ImageLists.lean ====
section
/-!
DEFINITION. The engine lists of an image as records: the chain of list headers, and the streams of assembly units, solver
engines, tiles, vector engines and cores, with the checks of each record on its own (R60 to R62, R84, R85, R96, R100, R107,
R121).
-/

namespace Sys2Proof.Machine

/-! ### The chain (R60, Table 4-2) -/

/-- The offsets of the lists of a segment: KIND and image offset, in ENGINES bit order; each header names the next. -/
def chain (img : List Byte) : List Nat → Nat → List (Nat × Nat)
  | [], _ => []
  | k :: ks, off => (k, off) :: chain img ks (fieldLE img (off + 8) 8)

/-- The lists of a segment. -/
def segLists (img : List Byte) (i : Nat) : List (Nat × Nat) :=
  let o := segOff img + 32 * i
  chain img ((upTo 5).filter fun k => bitOf (fieldLE img (o + 0x10) 2) k) (fieldLE img (o + 8) 8)

/-- The offset of the list of a kind. -/
def listOff (img : List Byte) (i k : Nat) : Option Nat := ((segLists img i).find? fun x => x.1 = k).map (·.2)

/-- The bytes of a stream entry of a list. -/
def entrySize (k : Nat) : Nat := if k = 0 ∨ k = 4 then 32 else 16

/-- The bytes of a record of the descriptor table. -/
def descSize (k : Nat) : Nat := if k = 1 then 64 else 32

/-- A list header: KIND, counts, offsets and the place in the chain. -/
def listBad (img : List Byte) (k off : Nat) (last : Bool) : Bad :=
  if !fits img off 32 then [off]
  else
    let st := fieldLE img (off + 2) 2
    let dc := fieldLE img (off + 4) 2
    let dof := fieldLE img (off + 0x10) 8
    let nx := fieldLE img (off + 8) 8
    let top := if k = 0 ∨ k = 1 then 4 else if k = 2 then 256 else if k = 3 then 16 else 512
    need (decide (fieldLE img off 1 = k) && decide (fieldLE img (off + 1) 1 = 0) && decide (1 ≤ st) && decide (st ≤ top) &&
      decide (dc ≤ 4096) && (decide (k ≠ 0 ∧ k ≠ 4) || decide (dc = 0)) && decide (fieldLE img (off + 6) 2 = 0) &&
      (if last then decide (nx = 0) else decide (nx ≠ 0) && fits img nx 32) &&
      (decide (dc = 0) || (decide (dof % 32 = 0) && fits img dof (descSize k * dc))) &&
      decide (fieldLE img (off + 0x18) 8 = 0) && fits img (off + 32) (entrySize k * st)) off

/-- Every list header of a segment, up to the first that fails. -/
def chainBad (img : List Byte) : List (Nat × Nat) → Bad
  | [] => []
  | (k, off) :: rest =>
    match listBad img k off rest.isEmpty with
    | [] => chainBad img rest
    | bad => bad

/-- The stream entries of a list: image offsets. -/
def entries (img : List Byte) (k off : Nat) : List Nat := (upTo (fieldLE img (off + 2) 2)).map fun j => off + 32 + entrySize k * j

/-- A signed byte. -/
def signedByte (n : Nat) : Int := if n < 128 then n else (n : Int) - 256

/-! ### Tiles (Tables 4-3 to 4-7) -/

/-- An operand descriptor. -/
def parseOp (img : List Byte) (o : Nat) : OpDesc :=
  { field := fieldLE img o 2 % 4096
    cvt := fieldLE img (o + 2) 1 % 32
    orient := bitOf (fieldLE img (o + 3) 1) 0
    align := bitsOf (fieldLE img (o + 3) 1) 2 1
    prescale := signedByte (fieldLE img (o + 4) 1)
    expField := fieldLE img (o + 6) 2 % 4096
    startK := fieldLE img (o + 8) 4
    startR := fieldLE img (o + 0xC) 4
    start2 := fieldLE img (o + 0x10) 4
    start3 := fieldLE img (o + 0x14) 4
    expStart := fieldLE img (o + 0x18) 4 }

/-- A result descriptor. -/
def parseRes (img : List Byte) (o : Nat) : ResDesc :=
  { field := fieldLE img o 2 % 4096
    route := fieldLE img (o + 2) 1 % 4
    raw := bitOf (fieldLE img (o + 2) 1) 2
    orient := bitOf (fieldLE img (o + 2) 1) 3
    tbuf := fieldLE img (o + 3) 1 % 4
    half := bitOf (fieldLE img (o + 3) 1) 2
    start := (upTo 4).map fun k => fieldLE img (o + 8 + 4 * k) 4 }

/-- A tile command with its descriptors; `d` is the offset of the descriptor table. -/
def parseTileCmd (img : List Byte) (d o : Nat) : TileCmd :=
  let fl := fieldLE img (o + 1) 1
  { opcode := fieldLE img o 1
    accIn := bitOf fl 0, fast := bitOf fl 1, long := bitOf fl 2
    aFmt := fieldLE img (o + 2) 1 % 32, aMx := bitOf (fieldLE img (o + 2) 1) 5
    bFmt := fieldLE img (o + 3) 1 % 32, bMx := bitOf (fieldLE img (o + 3) 1) 5
    m := fieldLE img (o + 4) 2, n := fieldLE img (o + 6) 2, k := fieldLE img (o + 8) 4
    bank := fieldLE img (o + 0xC) 1 % 4
    aSrc := fieldLE img (o + 0xD) 1 % 8, aStream := bitOf (fieldLE img (o + 0xD) 1) 7
    bSrc := fieldLE img (o + 0xE) 1 % 8, bStream := bitOf (fieldLE img (o + 0xE) 1) 7
    a := parseOp img (d + 32 * fieldLE img (o + 0x10) 2)
    b := parseOp img (d + 32 * fieldLE img (o + 0x12) 2)
    r := parseRes img (d + 32 * fieldLE img (o + 0x14) 2)
    rOp := parseOp img (d + 32 * fieldLE img (o + 0x14) 2)
    slotOff := fieldLE img (o + 0x18) 4 }

/-- A tile stream. -/
def parseTileStream (img : List Byte) (d o : Nat) : TileStream :=
  let feed := bitOf (fieldLE img o 2) 8
  { tile := fieldLE img o 2 % 256, feed := feed
    cmds := if feed then [] else (upTo (fieldLE img (o + 4) 4)).map fun j => parseTileCmd img d (fieldLE img (o + 8) 8 + 32 * j) }

/-- A tile stream entry (Table 4-3). -/
def tileEntryBad (img : List Byte) (wake : Nat) (seen : List Nat) (o : Nat) : Bad :=
  let w := fieldLE img o 2
  let cnt := fieldLE img (o + 4) 4
  let off := fieldLE img (o + 8) 8
  need (decide (w < 2 ^ 9) && decide (fieldLE img (o + 2) 2 = 0) && bitOf wake (w % 256 / 64) && !seen.contains (w % 256) &&
    (if bitOf w 8 then decide (cnt = 0) && decide (off = 0)
     else decide (off % 32 = 0) && fits img off (32 * cnt))) o

/-- The format code of a command names a format of Table 2-4, with MX only where R49 has it. -/
def fmtOk (code : Nat) (mx : Bool) : Bool :=
  match Fmt.ofCode code with
  | some f => !mx || mxElement f
  | none => false

/-- The operand pairs of Table 4-8 for MMA. -/
def pairOk (a b : Nat) (amx bmx : Bool) : Bool :=
  let fp8 := fun c => decide (c = 4 ∨ c = 5)
  let fp64s := fun c => decide (6 ≤ c ∧ c ≤ 8)
  if amx ≠ bmx then false
  else if amx then
    ((fp8 a || fp64s a) && (fp8 b || fp64s b)) || (decide (a = 12) && decide (b = 12))
  else
    ((fp8 a || fp64s a) && (fp8 b || fp64s b)) ||
    (decide (a = 12 ∨ a = 13) && decide (b = 12 ∨ b = 13)) ||
    (decide (a = 2) && decide (b = 2)) || (decide (a = 3) && decide (b = 3))

/-- The formats that a tile's operand converter delivers (Table 3-7). -/
def converterOut (code : Nat) : Bool := decide (code = 2 ∨ code = 3 ∨ (4 ≤ code ∧ code ≤ 8) ∨ code = 12 ∨ code = 13)

/-- The bits that Tables 4-6 and 4-7 both fix, of a record that no command names (R62, log entry 86). -/
def descForm (img : List Byte) (o : Nat) : Bool := decide (fieldLE img o 2 < 4096) && decide (fieldLE img (o + 0x1C) 4 = 0)

/-- The bits of an operand descriptor (Table 4-6). -/
def opForm (img : List Byte) (o : Nat) : Bool :=
  let d := parseOp img o
  descForm img o && decide (fieldLE img (o + 2) 1 < 32) && decide (fieldLE img (o + 3) 1 < 8) && decide (d.align ≤ 2) &&
  decide (-64 ≤ d.prescale) && decide (d.prescale ≤ 63) && decide (fieldLE img (o + 5) 1 = 0) &&
  decide (fieldLE img (o + 6) 2 < 4096)

/-- An operand descriptor on its own: it delivers from its field what Table 3-7 allows (R47, R63, R70), for `rows` rows. -/
def opOk (img : List Byte) (fs : List Field) (o rows : Nat) : Bool :=
  let d := parseOp img o
  let walnut := decide (d.cvt = 0 ∨ d.cvt = 15)
  match fs[d.field]? with
  | none => false
  | some f =>
    opForm img o && (decide (d.prescale = 0) || (!f.fmt.isInt && !f.mx && !walnut)) &&
    (if walnut then
      decide (f.fmt = .fp64 ∨ f.fmt = .w64s) && !f.mx && decide (f.fmt.code = d.cvt) &&
      (decide (d.align ≠ 1) || decide (f.fmt = .w64s)) && (f.fmt != .w64s || !d.orient) &&
      (decide (d.align ≠ 2) ||
        match fs[d.expField]? with
        | some e => decide (e.fmt = .int16) && decide (d.expStart + rows ≤ e.size)
        | none => false)
     else
      decide (d.align = 0) &&
      (if f.mx then decide (f.fmt.code = d.cvt) && !d.orient else f.fmt.isScalar && converterOut d.cvt))

/-- An operand descriptor delivers the format of a command. -/
def opDelivers (fs : List Field) (d : OpDesc) (fmt : Nat) (mx : Bool) : Bool :=
  decide (d.cvt = fmt) && ((fs[d.field]?).elim false fun f => f.mx == mx)

/-- The conditions on a field that a result stage writes (Table 3-7, R64, R93): `cols` elements along dimension 0. -/
def destOk (f : Field) (orient : Bool) (start0 cols : Nat) : Bool :=
  if f.mx then !orient && decide (start0 % 32 = 0) && decide (cols % 32 = 0)
  else if f.fmt = .w64s then !orient && decide (start0 = 0) && decide (cols = f.extent 0)
  else f.fmt.isScalar

/-! ### Vector engines (Tables 5-2 to 5-5) -/

/-- A vector access descriptor. -/
def parseVecDesc (img : List Byte) (o : Nat) : VecDesc :=
  let adv := fieldLE img (o + 0x18) 4
  { field := fieldLE img o 2 % 4096
    orient := bitOf (fieldLE img (o + 2) 1) 0
    advDim := fieldLE img (o + 3) 1 % 4
    rows := fieldLE img (o + 4) 2
    cols := fieldLE img (o + 6) 2
    start := (upTo 4).map fun k => fieldLE img (o + 8 + 4 * k) 4
    adv := if adv < 2 ^ 31 then adv else (adv : Int) - 2 ^ 32 }

/-- A vector instruction with its descriptor. -/
def parseVecInstr (img : List Byte) (d o : Nat) : VecInstr :=
  { opcode := fieldLE img o 1, ty := fieldLE img (o + 1) 1 % 4, dst := fieldLE img (o + 2) 1
    src1 := fieldLE img (o + 3) 1, src2 := fieldLE img (o + 4) 1, src3 := fieldLE img (o + 5) 1
    imm := fieldLE img (o + 8) 8, desc := parseVecDesc img (d + 32 * fieldLE img (o + 6) 2) }

/-- A vector stream. -/
def parseVecStream (img : List Byte) (d o : Nat) : VecStream :=
  { engine := fieldLE img o 2 % 16, modeB := bitOf (fieldLE img o 2) 4
    instrs := (upTo (fieldLE img (o + 4) 4)).map fun j => parseVecInstr img d (fieldLE img (o + 8) 8 + 16 * j) }

/-- A vector stream entry (Table 5-2). -/
def vecEntryBad (img : List Byte) (wake : Nat) (seen : List Nat) (o : Nat) : Bad :=
  let w := fieldLE img o 2
  let cnt := fieldLE img (o + 4) 4
  let off := fieldLE img (o + 8) 8
  need (decide (w < 2 ^ 5) && decide (fieldLE img (o + 2) 2 = 0) && bitOf wake (4 + w % 16 / 4) && !seen.contains (w % 16) &&
    decide (1 ≤ cnt) && decide (cnt ≤ 65536) && decide (off % 16 = 0) && fits img off (16 * cnt)) o

/-- The sources that an opcode uses, and whether it writes DST; none for a reserved opcode (Table 5-6). -/
def vecShape (opcode : Nat) : Option (Nat × Bool) :=
  if opcode = 0x01 then some (0, true)
  else if opcode = 0x02 then some (1, false)
  else if opcode = 0x03 ∨ opcode = 0x04 then some (1, false)
  else if opcode = 0x05 then some (0, false)
  else if opcode = 0x06 ∨ opcode = 0x16 ∨ opcode = 0x17 ∨ opcode = 0x18 ∨ opcode = 0x29 ∨ opcode = 0x2A ∨ opcode = 0x2B ∨
    (0x30 ≤ opcode ∧ opcode ≤ 0x32) then some (1, true)
  else if (0x10 ≤ opcode ∧ opcode ≤ 0x12) ∨ opcode = 0x14 ∨ opcode = 0x15 ∨ opcode = 0x1A ∨ opcode = 0x1B ∨
    (0x1D ≤ opcode ∧ opcode ≤ 0x21) ∨ opcode = 0x28 then some (2, true)
  else if opcode = 0x13 ∨ opcode = 0x19 ∨ opcode = 0x1C then some (3, true)
  else none

/-- TYPE is allowed for the opcode and the mode (Table 5-6, R82). -/
def vecTypeOk (modeB : Bool) (opcode ty : Nat) : Bool :=
  decide (ty ≤ 2) && (!modeB || decide (ty ≠ 2)) &&
  (if opcode = 0x13 ∨ opcode = 0x28 ∨ opcode = 0x29 then decide (ty ≠ 1)
   else if opcode = 0x20 ∨ opcode = 0x21 then decide (ty = 1)
   else if opcode = 0x2A ∨ opcode = 0x2B then decide (ty = 0)
   else true)

/-- An operand byte is one of Table 5-4 in its mode (R82). -/
def operandOk (modeB : Bool) (op : Nat) : Bool :=
  let cls := op / 32
  let ix := op % 32
  if cls = 0 then !modeB || decide (ix < 16)
  else if cls ≤ 3 then modeB && decide (ix < 4)
  else if cls ≤ 5 then modeB && decide (ix < 16)
  else decide (ix = 0)

/-- The rows that a storage operand covers: 128, 64, the one of a register or broadcast vector, or none of its own. -/
def regionSize (op : Nat) : Option Nat :=
  if op / 32 = 0 then some 1 else if op / 32 = 1 then some 128 else if op / 32 = 2 ∨ op / 32 = 3 then some 64 else none

/-- The source bytes that an instruction uses. -/
def VecInstr.sources (i : VecInstr) : List Nat :=
  match vecShape i.opcode with
  | some (n, _) => [i.src1, i.src2, i.src3].take n
  | none => []

/-- The destination byte of an instruction that writes one. -/
def VecInstr.dest (i : VecInstr) : Option Nat :=
  match vecShape i.opcode with
  | some (_, true) => some i.dst
  | _ => none

/-- The bits of an access descriptor (Table 5-5). -/
def vecDescForm (img : List Byte) (fs : List Field) (o : Nat) : Bool :=
  let d := parseVecDesc img o
  decide (fieldLE img o 2 < 4096) && decide (fieldLE img (o + 2) 1 < 2) && decide (fieldLE img (o + 3) 1 < 4) &&
  decide (1 ≤ d.rows) && decide (d.rows ≤ 128) && decide (1 ≤ d.cols) && decide (d.cols ≤ 256) &&
  decide (fieldLE img (o + 0x1C) 4 = 0) && decide (d.field < fs.length)

/-- The ROWS and COLS of an access descriptor fit a storage operand (Table 5-5). -/
def vecDescFits (d : VecDesc) (op ty : Nat) (modeB : Bool) : Bool :=
  decide (d.rows ≤ (regionSize op).getD 0) && decide (d.cols ≤ (if op / 32 = 0 ∧ !modeB ∧ ty ≠ 2 then 256 else 128))

/-- A vector instruction on its own (R82, R85, R92, R93). -/
def vecInstrOk (img : List Byte) (fs : List Field) (dcount dof o : Nat) (modeB : Bool) : Bool :=
  let i := parseVecInstr img dof o
  let dix := fieldLE img (o + 6) 2
  match vecShape i.opcode with
  | none => false
  | some _ =>
    decide (fieldLE img (o + 1) 1 < 4) && vecTypeOk modeB i.opcode i.ty &&
    [i.dst, i.src1, i.src2, i.src3].all (operandOk modeB) &&
    (i.sources.all fun x => decide (x / 32 ≠ 7)) &&
    (match i.dest with | some x => decide (x / 32 ≤ 3) | none => true) &&
    (if i.opcode = 1 ∨ i.opcode = 2 then
      let op := if i.opcode = 1 then i.dst else i.src1
      decide (dix < dcount) && decide (op / 32 ≤ 3) &&
      (match fs[i.desc.field]? with
       | none => false
       | some f =>
         if i.opcode = 1 then !f.mx && decide (f.fmt.code = (if i.ty = 0 then 1 else if i.ty = 1 then 10 else 0))
         else destOk f i.desc.orient (i.desc.start.getD 0 0) i.desc.cols && (f.fmt != .w64s || decide (i.ty ≠ 1)))
     else decide (dix = 0)) &&
    (if i.opcode = 3 ∨ i.opcode = 4 then decide (i.src1 / 32 = 2 ∨ i.src1 / 32 = 3)
     else if i.opcode = 5 then decide (1 ≤ bitsOf i.imm 39 32) && decide (1 ≤ i.imm % 2 ^ 32)
     else if 0x30 ≤ i.opcode then decide (i.dst / 32 = 0) && decide (i.src1 / 32 ≤ 3)
     else
       let sizes := (i.dest.toList ++ i.sources).filterMap regionSize
       match sizes with
       | [] => true
       | z :: zs => zs.all (· = z))

/-- The offset of the access descriptor that an instruction names, where ROWS or COLS does not fit the instruction's operand. -/
def vecDescBad (img : List Byte) (dcount dof o : Nat) (modeB : Bool) : Bad :=
  let i := parseVecInstr img dof o
  let dix := fieldLE img (o + 6) 2
  if (i.opcode = 1 ∨ i.opcode = 2) ∧ dix < dcount then
    need (vecDescFits i.desc (if i.opcode = 1 then i.dst else i.src1) i.ty modeB) (dof + 32 * dix)
  else []

/-! ### Assembly units (Tables 6-3 and 6-4) -/

/-- An assembly instruction. -/
def parseAsmInstr (img : List Byte) (o : Nat) : AsmInstr :=
  let fl := fieldLE img (o + 1) 1
  { opcode := fieldLE img o 1, acc := bitOf fl 0, immCoef := bitOf fl 1, directS := bitOf fl 2, directD := bitOf fl 3
    dst := fieldLE img (o + 2) 2 % 4096, src1 := fieldLE img (o + 4) 2 % 4096, src2 := fieldLE img (o + 6) 2 % 4096
    coef := fieldLE img (o + 8) 2 % 4096, didx := fieldLE img (o + 0xA) 2 % 4096, sidx := fieldLE img (o + 0xC) 2 % 4096
    sidx2 := fieldLE img (o + 0xE) 2 % 4096, count := fieldLE img (o + 0x10) 4, start := fieldLE img (o + 0x14) 4
    imm := fieldLE img (o + 0x18) 8 }

/-- An assembly stream. -/
def parseAsmStream (img : List Byte) (o : Nat) : AsmStream :=
  { unit := fieldLE img o 2 % 4, winLo := fieldLE img (o + 0x10) 8, winHi := fieldLE img (o + 0x18) 8
    instrs := (upTo (fieldLE img (o + 4) 4)).map fun j => parseAsmInstr img (fieldLE img (o + 8) 8 + 32 * j) }

/-- An assembly stream entry (Table 6-3). -/
def asmEntryBad (img : List Byte) (wake : Nat) (seen : List Nat) (o : Nat) : Bad :=
  let w := fieldLE img o 2
  let cnt := fieldLE img (o + 4) 4
  let off := fieldLE img (o + 8) 8
  need (decide (w < 4) && bitOf wake (4 + w % 4) && !seen.contains (w % 4)) o ++ need (fieldLE img (o + 2) 2 = 0) (o + 2) ++
  need (decide (1 ≤ cnt) && decide (cnt ≤ 65536)) (o + 4) ++ need (decide (off % 32 = 0) && fits img off (32 * cnt)) (o + 8)

/-- Whether each field slot of an instruction is used, with its image offset in the record and its format. -/
def asmSlots (i : AsmInstr) : List (Nat × Bool × Nat × Fmt) :=
  let gs := decide (i.opcode = 2 ∨ i.opcode = 3)
  [(2, true, i.dst, .fp64), (4, gs, i.src1, .fp64), (6, decide (i.opcode = 3), i.src2, .fp64),
    (8, gs && !i.immCoef, i.coef, .fp64), (0xA, gs && !i.directD, i.didx, .int32), (0xC, gs && !i.directS, i.sidx, .int32),
    (0xE, decide (i.opcode = 3) && !i.directS, i.sidx2, .int32)]

/-- An assembly instruction on its own (Table 6-4, R100). -/
def asmInstrBad (img : List Byte) (fs : List Field) (o : Nat) : Bad :=
  let i := parseAsmInstr img o
  let fl := fieldLE img (o + 1) 1
  need (decide (1 ≤ i.opcode) && decide (i.opcode ≤ 3)) o ++
  need (decide (fl < 16) && (decide (i.opcode ≠ 1) || decide (fl = 0))) (o + 1) ++
  (asmSlots i).flatMap (fun x =>
    let raw := fieldLE img (o + x.1) 2
    need (decide (raw < 4096) && (if x.2.1 then
      (match fs[raw]? with | some f => decide (f.fmt = x.2.2.2) && !f.mx | none => false) else decide (raw = 0))) (o + x.1)) ++
  need (1 ≤ i.count) (o + 0x10) ++
  need ((decide (i.opcode ≠ 1) && i.immCoef) || decide (i.imm = 0)) (o + 0x18)

/-- The fields that an assembly instruction takes its indices, sources and coefficient from. Accumulating into DST is no read of a
field that another stream writes (R100, log entry 88). -/
def AsmInstr.sources (i : AsmInstr) : List Nat := ((asmSlots i).filter fun x => x.2.1 && decide (x.1 ≠ 2)).map (·.2.2.1)

/-- The fields that an assembly instruction reads, DST under ACC among them. -/
def AsmInstr.reads (i : AsmInstr) : List Nat := i.sources ++ (if i.acc then [i.dst] else [])

/-! ### Solver engines (Tables 6-1 and 6-8) -/

/-- A solver record with the defaults put in (Table 6-1). -/
def parseSolvRec (img : List Byte) (o : Nat) : SolvRec :=
  let tau := signedByte (fieldLE img (o + 4) 1)
  let tol := signedByte (fieldLE img (o + 7) 1)
  let gr := fieldLE img (o + 5) 1
  let cb := fieldLE img (o + 0xC) 4
  { id := fieldLE img o 1 % 16
    engines := (upTo 4).filter fun e => bitOf (fieldLE img (o + 1) 1) e
    wnFast := bitOf (fieldLE img (o + 2) 1) 0
    nrhs := fieldLE img (o + 3) 1
    tauExp := if tau = 0 then -26 else tau
    growthExp := if gr = 0 then 20 else gr
    refLimit := fieldLE img (o + 6) 1
    tolExp := if tol = 0 then -50 else tol
    n := fieldLE img (o + 8) 4
    minCb := if cb = 0 then 512 else cb
    fields := (upTo 12).map fun k => fieldLE img (o + 0x10 + 2 * k) 2 % 4096 }

/-- The format of a role (Table 6-2). -/
def roleFmt (k : Nat) : Fmt :=
  if k = 0 ∨ k = 8 ∨ k = 10 ∨ k = 11 then .int64 else if k = 1 ∨ k = 2 then .int32 else .fp64

/-- A solver record meets Table 6-1, and its fields are distinct and of their formats (R96, R97). -/
def solvRecOk (img : List Byte) (fs : List Field) (o : Nat) : Bool :=
  let r := parseSolvRec img o
  let tau := signedByte (fieldLE img (o + 4) 1)
  let tol := signedByte (fieldLE img (o + 7) 1)
  let gr := fieldLE img (o + 5) 1
  let cb := fieldLE img (o + 0xC) 4
  decide (fieldLE img o 1 < 16) && decide (1 ≤ fieldLE img (o + 1) 1) && decide (fieldLE img (o + 1) 1 < 16) &&
  decide (fieldLE img (o + 2) 1 < 2) && decide (1 ≤ r.nrhs) && decide (r.nrhs ≤ 16) &&
  (decide (tau = 0) || (decide (-52 ≤ tau) && decide (tau ≤ -10))) && decide (gr ≤ 52) && decide (r.refLimit ≤ 16) &&
  (decide (tol = 0) || (decide (-52 ≤ tol) && decide (tol ≤ -30))) && decide (1 ≤ r.n) && decide (r.n ≤ 2 ^ 30) &&
  (decide (cb = 0) || (decide (128 ≤ cb) && decide (cb ≤ 32768))) &&
  ((upTo 12).all fun k => decide (fieldLE img (o + 0x10 + 2 * k) 2 < 4096) &&
    (match fs[r.fields.getD k 0]? with | some f => decide (f.fmt = roleFmt k) && !f.mx | none => false)) &&
  decide (r.fields.eraseDups.length = 12) && ((upTo 6).all fun k => decide (fieldLE img (o + 0x28 + 4 * k) 4 = 0)) &&
  ([4, 5, 6, 7].all fun k => match fs[r.fields.getD k 0]? with
    | some f => (decide (f.size < r.n * r.nrhs)) || (decide (f.extent 0 = r.n) && decide (f.extent 1 = r.nrhs))
    | none => false) &&
  (match fs[r.fields.getD 10 0]? with | some f => decide (f.size % 4 = 0) | none => false) &&
  ([(0, r.n + 1), (2, r.n), (11, 16)].all fun x => (fs[r.fields.getD x.1 0]?).elim false fun f => decide (f.size ≤ x.2))

/-- The offsets of the records of a solver list. -/
def recOffs (img : List Byte) (off : Nat) : List Nat :=
  (upTo (fieldLE img (off + 4) 2)).map fun j => fieldLE img (off + 0x10) 8 + 64 * j

/-- A solver command. -/
def parseSolvCmd (img : List Byte) (o : Nat) : SolvCmd :=
  let fl := fieldLE img (o + 2) 1
  ⟨fieldLE img o 1, fieldLE img (o + 1) 1 % 16, bitOf fl 0, bitOf fl 1, bitOf fl 2⟩

/-- A stream of a solver list. -/
def parseSolvStream (img : List Byte) (o : Nat) : SolvStream :=
  ⟨fieldLE img o 2 % 4, (upTo (fieldLE img (o + 4) 4)).map fun j => parseSolvCmd img (fieldLE img (o + 8) 8 + 16 * j)⟩

/-- A solver stream entry and its commands. -/
def solvEntryBad (img : List Byte) (wake : Nat) (seen ids : List Nat) (o : Nat) : Bad :=
  let w := fieldLE img o 2
  let cnt := fieldLE img (o + 4) 4
  let off := fieldLE img (o + 8) 8
  let here := need (decide (w < 4) && bitOf wake (4 + w % 4) && !seen.contains (w % 4)) o ++
    need (fieldLE img (o + 2) 2 = 0) (o + 2) ++ need (decide (off % 16 = 0) && fits img off (16 * cnt)) (o + 8)
  here ++ (if here = [] then
    (upTo cnt).flatMap fun j =>
      let c := off + 16 * j
      let r := parseSolvCmd img c
      need (decide (1 ≤ r.opcode) && decide (r.opcode ≤ 4)) c ++
      need (decide (fieldLE img (c + 1) 1 < 16) && ids.contains r.solver) (c + 1) ++
      need (decide (fieldLE img (c + 2) 1 < 8) && (!r.reuse || decide (r.opcode = 1)) && (!r.guess || decide (r.opcode = 2)) &&
        (!r.update || decide (r.opcode = 4))) (c + 2) ++
      need (decide (fieldLE img (c + 3) 5 = 0) && decide (fieldLE img (c + 8) 8 = 0)) (c + 3)
   else [])

/-- The roles that a solver command reads, and those it writes (Table 6-9). -/
def solvAccess (c : SolvCmd) : List Nat × List Nat :=
  if c.opcode = 1 then ([3, 8], [9, 10, 11])
  else if c.opcode = 2 then ([4, 9, 8], [5, 11])
  else if c.opcode = 3 then ([3, 4, 5], [6, 11])
  else ([6, 9, 8], (if c.update then [7, 11, 5] else [7, 11]))

/-! ### Cores (Table 7-1) -/

/-- A thread entry. -/
def parseThread (img : List Byte) (o : Nat) : ThreadEntry :=
  ⟨fieldLE img o 2 % 512, fieldLE img (o + 8) 8, fieldLE img (o + 0x10) 8, fieldLE img (o + 0x18) 8⟩

/-- The fields of a thread entry that fail (R121). -/
def threadBad (img : List Byte) (seen : List Nat) (o : Nat) : Bad :=
  let e := parseThread img o
  need (decide (fieldLE img o 2 < 512) && !seen.contains e.thread) o ++
  need (decide (fieldLE img (o + 2) 6 = 0)) (o + 2) ++
  need (decide (e.entry % 4 = 0) && fits img e.entry 4) (o + 8) ++
  need (decide (e.handler % 4 = 0) && (decide (e.handler = 0) || fits img e.handler 4)) (o + 0x18)

end Sys2Proof.Machine
end

