-- ==== Sys2Proof/Machine/CoreInt.lean ====
section
/-!
DEFINITION. The integer, control, system and CSR instructions of the cores (R134, R136, Tables 7-6 and 7-7).
-/

namespace Sys2Proof.Machine

/-- A register-register instruction of the ALU: rd = f rs1 rs2 (Table 7-6, OP 0x01). -/
def aluRegReg (t : Fin 512) (fn : Nat) (rd rs1 rs2 : BitVec 5) (f : Word → Word → Word) (s : State) : State :=
  s.coreExec t (encReg 0x01 rd rs1 rs2 fn) noField fun s => s.threadDo t.val fun th => th.setX rd (f (th.getX rs1) (th.getX rs2))

/-- A register-immediate instruction: rd = f rs1 sext(imm16) (Table 7-6). -/
def aluRegImm (t : Fin 512) (op : Nat) (rd rs1 : BitVec 5) (imm : BitVec 16) (f : Word → Word → Word) (s : State) : State :=
  s.coreExec t (encImm op rd rs1 imm) noField fun s => s.threadDo t.val fun th => th.setX rd (f (th.getX rs1) (imm.signExtend 64))

/-- Fault E_BADCMD of a reserved encoding or operand combination (R8, R134). -/
def badEncoding (t : Fin 512) (w ign : Nat) (s : State) : State := s.coreExec t w ign fun s => s.faultHere t.val eBadcmd 0

/-- ADD (Table 7-6, OP 0x01). -/
def execAluAdd (t : Fin 512) (rd rs1 rs2 : BitVec 5) (s : State) : Outcome :=
  .next (aluRegReg t 0 rd rs1 rs2 (fun a b => a + b) s)

/-- SUB (Table 7-6, OP 0x01). -/
def execAluSub (t : Fin 512) (rd rs1 rs2 : BitVec 5) (s : State) : Outcome :=
  .next (aluRegReg t 1 rd rs1 rs2 (fun a b => a - b) s)

/-- AND (Table 7-6, OP 0x01). -/
def execAluAnd (t : Fin 512) (rd rs1 rs2 : BitVec 5) (s : State) : Outcome :=
  .next (aluRegReg t 2 rd rs1 rs2 (fun a b => a &&& b) s)

/-- OR (Table 7-6, OP 0x01). -/
def execAluOr (t : Fin 512) (rd rs1 rs2 : BitVec 5) (s : State) : Outcome :=
  .next (aluRegReg t 3 rd rs1 rs2 (fun a b => a ||| b) s)

/-- XOR (Table 7-6, OP 0x01). -/
def execAluXor (t : Fin 512) (rd rs1 rs2 : BitVec 5) (s : State) : Outcome :=
  .next (aluRegReg t 4 rd rs1 rs2 (fun a b => a ^^^ b) s)

/-- ANDN (Table 7-6, OP 0x01). -/
def execAluAndn (t : Fin 512) (rd rs1 rs2 : BitVec 5) (s : State) : Outcome :=
  .next (aluRegReg t 5 rd rs1 rs2 (fun a b => a &&& ~~~b) s)

/-- SHL (Table 7-6, OP 0x01). -/
def execAluShl (t : Fin 512) (rd rs1 rs2 : BitVec 5) (s : State) : Outcome :=
  .next (aluRegReg t 6 rd rs1 rs2 (fun a b => a <<< (b.toNat % 64)) s)

/-- SHRL (Table 7-6, OP 0x01). -/
def execAluShrl (t : Fin 512) (rd rs1 rs2 : BitVec 5) (s : State) : Outcome :=
  .next (aluRegReg t 7 rd rs1 rs2 (fun a b => a >>> (b.toNat % 64)) s)

/-- SHRA (Table 7-6, OP 0x01). -/
def execAluShra (t : Fin 512) (rd rs1 rs2 : BitVec 5) (s : State) : Outcome :=
  .next (aluRegReg t 8 rd rs1 rs2 (fun a b => a.sshiftRight (b.toNat % 64)) s)

/-- CMPEQ (Table 7-6, OP 0x01). -/
def execAluCmpeq (t : Fin 512) (rd rs1 rs2 : BitVec 5) (s : State) : Outcome :=
  .next (aluRegReg t 9 rd rs1 rs2 (fun a b => if a = b then 1 else 0) s)

/-- CMPLT (Table 7-6, OP 0x01). -/
def execAluCmplt (t : Fin 512) (rd rs1 rs2 : BitVec 5) (s : State) : Outcome :=
  .next (aluRegReg t 10 rd rs1 rs2 (fun a b => if a.toInt < b.toInt then 1 else 0) s)

/-- CMPLTU (Table 7-6, OP 0x01). -/
def execAluCmpltu (t : Fin 512) (rd rs1 rs2 : BitVec 5) (s : State) : Outcome :=
  .next (aluRegReg t 11 rd rs1 rs2 (fun a b => if a.toNat < b.toNat then 1 else 0) s)

/-- MULLO (Table 7-6, OP 0x01). -/
def execAluMullo (t : Fin 512) (rd rs1 rs2 : BitVec 5) (s : State) : Outcome :=
  .next (aluRegReg t 12 rd rs1 rs2 (fun a b => a * b) s)

/-- MULHI (Table 7-6, OP 0x01). -/
def execAluMulhi (t : Fin 512) (rd rs1 rs2 : BitVec 5) (s : State) : Outcome :=
  .next (aluRegReg t 13 rd rs1 rs2 (fun a b => BitVec.ofInt 64 (a.toInt * b.toInt / (2 ^ 64 : Nat))) s)

/-- MULHIU (Table 7-6, OP 0x01). -/
def execAluMulhiu (t : Fin 512) (rd rs1 rs2 : BitVec 5) (s : State) : Outcome :=
  .next (aluRegReg t 14 rd rs1 rs2 (fun a b => BitVec.ofNat 64 (a.toNat * b.toNat / 2 ^ 64)) s)

/-- DIVS (Table 7-6, OP 0x01). -/
def execAluDivs (t : Fin 512) (rd rs1 rs2 : BitVec 5) (s : State) : Outcome :=
  .next (aluRegReg t 15 rd rs1 rs2 (fun a b => if b = 0 then 0 else BitVec.ofInt 64 (a.toInt.tdiv b.toInt)) s)

/-- DIVU (Table 7-6, OP 0x01). -/
def execAluDivu (t : Fin 512) (rd rs1 rs2 : BitVec 5) (s : State) : Outcome :=
  .next (aluRegReg t 16 rd rs1 rs2 (fun a b => if b = 0 then 0 else BitVec.ofNat 64 (a.toNat / b.toNat)) s)

/-- MODS (Table 7-6, OP 0x01). -/
def execAluMods (t : Fin 512) (rd rs1 rs2 : BitVec 5) (s : State) : Outcome :=
  .next (aluRegReg t 17 rd rs1 rs2 (fun a b => if b = 0 then a else BitVec.ofInt 64 (a.toInt.tmod b.toInt)) s)

/-- MODU (Table 7-6, OP 0x01). -/
def execAluModu (t : Fin 512) (rd rs1 rs2 : BitVec 5) (s : State) : Outcome :=
  .next (aluRegReg t 18 rd rs1 rs2 (fun a b => if b = 0 then a else BitVec.ofNat 64 (a.toNat % b.toNat)) s)

/-- MIN (Table 7-6, OP 0x01). -/
def execAluMin (t : Fin 512) (rd rs1 rs2 : BitVec 5) (s : State) : Outcome :=
  .next (aluRegReg t 19 rd rs1 rs2 (fun a b => if a.toInt < b.toInt then a else b) s)

/-- MAX (Table 7-6, OP 0x01). -/
def execAluMax (t : Fin 512) (rd rs1 rs2 : BitVec 5) (s : State) : Outcome :=
  .next (aluRegReg t 20 rd rs1 rs2 (fun a b => if a.toInt < b.toInt then b else a) s)

/-- MINU (Table 7-6, OP 0x01). -/
def execAluMinu (t : Fin 512) (rd rs1 rs2 : BitVec 5) (s : State) : Outcome :=
  .next (aluRegReg t 21 rd rs1 rs2 (fun a b => if a.toNat < b.toNat then a else b) s)

/-- MAXU (Table 7-6, OP 0x01). -/
def execAluMaxu (t : Fin 512) (rd rs1 rs2 : BitVec 5) (s : State) : Outcome :=
  .next (aluRegReg t 22 rd rs1 rs2 (fun a b => if a.toNat < b.toNat then b else a) s)

/-- CLZ (Table 7-6, OP 0x01). -/
def execAluClz (t : Fin 512) (rd rs1 rs2 : BitVec 5) (s : State) : Outcome :=
  .next (aluRegReg t 23 rd rs1 rs2 (fun a _ => BitVec.ofNat 64 (if a = 0 then 64 else 63 - a.toNat.log2)) s)

/-- CTZ (Table 7-6, OP 0x01). -/
def execAluCtz (t : Fin 512) (rd rs1 rs2 : BitVec 5) (s : State) : Outcome :=
  .next (aluRegReg t 24 rd rs1 rs2 (fun a _ => BitVec.ofNat 64 (((upTo 64).find? fun i => bitOf a.toNat i).getD 64)) s)

/-- POPC (Table 7-6, OP 0x01). -/
def execAluPopc (t : Fin 512) (rd rs1 rs2 : BitVec 5) (s : State) : Outcome :=
  .next (aluRegReg t 25 rd rs1 rs2 (fun a _ => BitVec.ofNat 64 ((upTo 64).filter fun i => bitOf a.toNat i).length) s)

/-- IADD (Table 7-6). -/
def execIadd (t : Fin 512) (rd rs1 : BitVec 5) (imm : BitVec 16) (s : State) : Outcome :=
  .next (aluRegImm t 0x02 rd rs1 imm (fun a b => a + b) s)

/-- IAND (Table 7-6). -/
def execIand (t : Fin 512) (rd rs1 : BitVec 5) (imm : BitVec 16) (s : State) : Outcome :=
  .next (aluRegImm t 0x03 rd rs1 imm (fun a b => a &&& b) s)

/-- IOR (Table 7-6). -/
def execIor (t : Fin 512) (rd rs1 : BitVec 5) (imm : BitVec 16) (s : State) : Outcome :=
  .next (aluRegImm t 0x04 rd rs1 imm (fun a b => a ||| b) s)

/-- IXOR (Table 7-6). -/
def execIxor (t : Fin 512) (rd rs1 : BitVec 5) (imm : BitVec 16) (s : State) : Outcome :=
  .next (aluRegImm t 0x05 rd rs1 imm (fun a b => a ^^^ b) s)

/-- ICMPLT (Table 7-6). -/
def execIcmplt (t : Fin 512) (rd rs1 : BitVec 5) (imm : BitVec 16) (s : State) : Outcome :=
  .next (aluRegImm t 0x07 rd rs1 imm (fun a b => if a.toInt < b.toInt then 1 else 0) s)

/-- ISHF_SHL (Table 7-6, OP 0x06). -/
def execIshfShl (t : Fin 512) (rd rs1 : BitVec 5) (sh : BitVec 6) (s : State) : Outcome :=
  .next (aluRegImm t 0x06 rd rs1 (sh.zeroExtend 16) (fun a _ => a <<< sh.toNat) s)

/-- ISHF_SHRL (Table 7-6, OP 0x06). -/
def execIshfShrl (t : Fin 512) (rd rs1 : BitVec 5) (sh : BitVec 6) (s : State) : Outcome :=
  .next (aluRegImm t 0x06 rd rs1 (64 + sh.zeroExtend 16) (fun a _ => a >>> sh.toNat) s)

/-- ISHF_SHRA (Table 7-6, OP 0x06). -/
def execIshfShra (t : Fin 512) (rd rs1 : BitVec 5) (sh : BitVec 6) (s : State) : Outcome :=
  .next (aluRegImm t 0x06 rd rs1 (128 + sh.zeroExtend 16) (fun a _ => a.sshiftRight sh.toNat) s)

/-- IHI: rd = sext(imm21) << 16 (Table 7-6). -/
def execIhi (t : Fin 512) (rd : BitVec 5) (imm : BitVec 21) (s : State) : Outcome :=
  .next (s.coreExec t (encJmp 0x08 rd imm) noField fun s => s.threadDo t.val fun th => th.setX rd (imm.signExtend 64 <<< 16))

/-- PCHI: rd = PC + (sext(imm21) << 16) (Table 7-6). -/
def execPchi (t : Fin 512) (rd : BitVec 5) (imm : BitVec 21) (s : State) : Outcome :=
  .next (s.coreExec t (encJmp 0x09 rd imm) noField fun s => s.threadDo t.val fun th => th.setX rd (th.pc + (imm.signExtend 64 <<< 16)))

/-- The condition of BRZ; 7 to 15 are reserved (Table 7-6). -/
def brzTaken (cond : BitVec 4) (v : Word) : Option Bool :=
  match cond.toNat with
  | 0 => some (v = 0)
  | 1 => some (v ≠ 0)
  | 2 => some (v.toInt < 0)
  | 3 => some (0 ≤ v.toInt)
  | 4 => some (0 < v.toInt)
  | 5 => some (v.toInt ≤ 0)
  | 6 => some true
  | _ => none

/-- BRZ: PC += sext(offset17) * 4 where rs1 meets COND (Table 7-6). -/
def execBrz (t : Fin 512) (rs1 : BitVec 5) (cond : BitVec 4) (off : BitVec 17) (s : State) : Outcome :=
  .next (s.coreExec t (encBr 0x19 rs1 cond off) noField fun s =>
    match brzTaken cond ((s.thread t.val).getX rs1) with
    | some true => s.onThread t.val fun th => { th with pc := th.pc + (off.signExtend 64 <<< 2) }
    | some false => s.threadDo t.val id
    | none => s.faultHere t.val eBadcmd 0)

/-- CALL: rd = PC + 4; PC += sext(imm21) * 4 (Table 7-6). -/
def execCall (t : Fin 512) (rd : BitVec 5) (off : BitVec 21) (s : State) : Outcome :=
  .next (s.coreExec t (encJmp 0x1F rd off) noField fun s => s.onThread t.val fun th =>
    { th.setX rd (th.pc + 4) with pc := th.pc + (off.signExtend 64 <<< 2) })

/-- CALLR: rs1 is read before rd is written; [1:0] of the target cleared (Table 7-6). -/
def execCallr (t : Fin 512) (rd rs1 : BitVec 5) (imm : BitVec 16) (s : State) : Outcome :=
  .next (s.coreExec t (encImm 0x20 rd rs1 imm) noField fun s => s.onThread t.val fun th =>
    { th.setX rd (th.pc + 4) with pc := (th.getX rs1 + imm.signExtend 64) &&& ~~~3 })

/-- A memory instruction: run the operation built from the thread's registers; it is not taken up while an access of it would
be held at a stopped domain (R13). -/
def coreMem (t : Fin 512) (w ign : Nat) (op : Thread → CoreOp) (s : State) : State :=
  if s.opRuns (op (s.thread t.val)) then s.coreExec t w ign fun s => s.runOp t.val (op (s.thread t.val)) else s

/-- The address rs1 + sext(imm16). -/
def Thread.base (th : Thread) (rs1 : BitVec 5) (imm : BitVec 16) : Word := th.getX rs1 + imm.signExtend 64

/-- LD8S: a load of 1 byte (Table 7-6, R130). -/
def execLd8s (t : Fin 512) (rd rs1 : BitVec 5) (imm : BitVec 16) (s : State) : Outcome :=
  .next (coreMem t (encImm 0x0A rd rs1 imm) noField (fun th => .load 1 true rd (th.base rs1 imm)) s)

/-- LD8U: a load of 1 byte (Table 7-6, R130). -/
def execLd8u (t : Fin 512) (rd rs1 : BitVec 5) (imm : BitVec 16) (s : State) : Outcome :=
  .next (coreMem t (encImm 0x0B rd rs1 imm) noField (fun th => .load 1 false rd (th.base rs1 imm)) s)

/-- LD16S: a load of 2 bytes (Table 7-6, R130). -/
def execLd16s (t : Fin 512) (rd rs1 : BitVec 5) (imm : BitVec 16) (s : State) : Outcome :=
  .next (coreMem t (encImm 0x0C rd rs1 imm) noField (fun th => .load 2 true rd (th.base rs1 imm)) s)

/-- LD16U: a load of 2 bytes (Table 7-6, R130). -/
def execLd16u (t : Fin 512) (rd rs1 : BitVec 5) (imm : BitVec 16) (s : State) : Outcome :=
  .next (coreMem t (encImm 0x0D rd rs1 imm) noField (fun th => .load 2 false rd (th.base rs1 imm)) s)

/-- LD32S: a load of 4 bytes (Table 7-6, R130). -/
def execLd32s (t : Fin 512) (rd rs1 : BitVec 5) (imm : BitVec 16) (s : State) : Outcome :=
  .next (coreMem t (encImm 0x0E rd rs1 imm) noField (fun th => .load 4 true rd (th.base rs1 imm)) s)

/-- LD32U: a load of 4 bytes (Table 7-6, R130). -/
def execLd32u (t : Fin 512) (rd rs1 : BitVec 5) (imm : BitVec 16) (s : State) : Outcome :=
  .next (coreMem t (encImm 0x0F rd rs1 imm) noField (fun th => .load 4 false rd (th.base rs1 imm)) s)

/-- LD64: a load of 8 bytes (Table 7-6, R130). -/
def execLd64 (t : Fin 512) (rd rs1 : BitVec 5) (imm : BitVec 16) (s : State) : Outcome :=
  .next (coreMem t (encImm 0x10 rd rs1 imm) noField (fun th => .load 8 false rd (th.base rs1 imm)) s)

/-- ST8: a store of 1 byte (Table 7-6, R130). -/
def execSt8 (t : Fin 512) (rs2 rs1 : BitVec 5) (imm : BitVec 16) (s : State) : Outcome :=
  .next (coreMem t (encImm 0x11 rs2 rs1 imm) noField (fun th => .store 1 (th.base rs1 imm) (th.getX rs2).toNat) s)

/-- ST16: a store of 2 bytes (Table 7-6, R130). -/
def execSt16 (t : Fin 512) (rs2 rs1 : BitVec 5) (imm : BitVec 16) (s : State) : Outcome :=
  .next (coreMem t (encImm 0x12 rs2 rs1 imm) noField (fun th => .store 2 (th.base rs1 imm) (th.getX rs2).toNat) s)

/-- ST32: a store of 4 bytes (Table 7-6, R130). -/
def execSt32 (t : Fin 512) (rs2 rs1 : BitVec 5) (imm : BitVec 16) (s : State) : Outcome :=
  .next (coreMem t (encImm 0x13 rs2 rs1 imm) noField (fun th => .store 4 (th.base rs1 imm) (th.getX rs2).toNat) s)

/-- ST64: a store of 8 bytes (Table 7-6, R130). -/
def execSt64 (t : Fin 512) (rs2 rs1 : BitVec 5) (imm : BitVec 16) (s : State) : Outcome :=
  .next (coreMem t (encImm 0x14 rs2 rs1 imm) noField (fun th => .store 8 (th.base rs1 imm) (th.getX rs2).toNat) s)

/-- FLD32 (Table 7-6, R135). -/
def execFld32 (t : Fin 512) (fd rs1 : BitVec 5) (imm : BitVec 16) (s : State) : Outcome :=
  .next (coreMem t (encImm 0x15 fd rs1 imm) noField (fun th => .fload 4 fd (th.base rs1 imm)) s)

/-- FLD64 (Table 7-6, R135). -/
def execFld64 (t : Fin 512) (fd rs1 : BitVec 5) (imm : BitVec 16) (s : State) : Outcome :=
  .next (coreMem t (encImm 0x16 fd rs1 imm) noField (fun th => .fload 8 fd (th.base rs1 imm)) s)

/-- FST32 (Table 7-6, R135). -/
def execFst32 (t : Fin 512) (fs2 rs1 : BitVec 5) (imm : BitVec 16) (s : State) : Outcome :=
  .next (coreMem t (encImm 0x17 fs2 rs1 imm) noField (fun th => .store 4 (th.base rs1 imm) (th.getF fs2)) s)

/-- FST64 (Table 7-6, R135). -/
def execFst64 (t : Fin 512) (fs2 rs1 : BitVec 5) (imm : BitVec 16) (s : State) : Outcome :=
  .next (coreMem t (encImm 0x18 fs2 rs1 imm) noField (fun th => .store 8 (th.base rs1 imm) (th.getF fs2)) s)

/-- An atomic of Table 7-8: rs1 the address, rs2 the operand, rd on entry the compare value of CAS; rd must be 0 where no
register is written. -/
def coreAtomic (t : Fin 512) (op : AmoOp) (rd rs1 rs2 : BitVec 5) (ord : BitVec 2) (w : Bool) (s : State) : State :=
  if (op = .addp ∨ op = .strel) ∧ rd ≠ 0 then badEncoding t (encAmo op rd rs1 rs2 ord w) noField s
  else
    coreMem t (encAmo op rd rs1 rs2 ord w) noField (fun th =>
      .amo op ord (if w then 8 else 4) rd (th.getX rs1) (th.getX rs2).toNat (th.getX rd).toNat) s

/-- AMO_SWAP (Table 7-8, R131, R133). -/
def execAmoSwap (t : Fin 512) (rd rs1 rs2 : BitVec 5) (ord : BitVec 2) (w : Bool) (s : State) : Outcome :=
  .next (coreAtomic t .swap rd rs1 rs2 ord w s)

/-- AMO_ADD (Table 7-8, R131, R133). -/
def execAmoAdd (t : Fin 512) (rd rs1 rs2 : BitVec 5) (ord : BitVec 2) (w : Bool) (s : State) : Outcome :=
  .next (coreAtomic t .add rd rs1 rs2 ord w s)

/-- AMO_AND (Table 7-8, R131, R133). -/
def execAmoAnd (t : Fin 512) (rd rs1 rs2 : BitVec 5) (ord : BitVec 2) (w : Bool) (s : State) : Outcome :=
  .next (coreAtomic t .and rd rs1 rs2 ord w s)

/-- AMO_OR (Table 7-8, R131, R133). -/
def execAmoOr (t : Fin 512) (rd rs1 rs2 : BitVec 5) (ord : BitVec 2) (w : Bool) (s : State) : Outcome :=
  .next (coreAtomic t .or rd rs1 rs2 ord w s)

/-- AMO_XOR (Table 7-8, R131, R133). -/
def execAmoXor (t : Fin 512) (rd rs1 rs2 : BitVec 5) (ord : BitVec 2) (w : Bool) (s : State) : Outcome :=
  .next (coreAtomic t .xor rd rs1 rs2 ord w s)

/-- AMO_MIN (Table 7-8, R131, R133). -/
def execAmoMin (t : Fin 512) (rd rs1 rs2 : BitVec 5) (ord : BitVec 2) (w : Bool) (s : State) : Outcome :=
  .next (coreAtomic t .min rd rs1 rs2 ord w s)

/-- AMO_MAX (Table 7-8, R131, R133). -/
def execAmoMax (t : Fin 512) (rd rs1 rs2 : BitVec 5) (ord : BitVec 2) (w : Bool) (s : State) : Outcome :=
  .next (coreAtomic t .max rd rs1 rs2 ord w s)

/-- AMO_MINU (Table 7-8, R131, R133). -/
def execAmoMinu (t : Fin 512) (rd rs1 rs2 : BitVec 5) (ord : BitVec 2) (w : Bool) (s : State) : Outcome :=
  .next (coreAtomic t .minu rd rs1 rs2 ord w s)

/-- AMO_MAXU (Table 7-8, R131, R133). -/
def execAmoMaxu (t : Fin 512) (rd rs1 rs2 : BitVec 5) (ord : BitVec 2) (w : Bool) (s : State) : Outcome :=
  .next (coreAtomic t .maxu rd rs1 rs2 ord w s)

/-- CAS (Table 7-8, R131, R133). -/
def execCas (t : Fin 512) (rd rs1 rs2 : BitVec 5) (ord : BitVec 2) (w : Bool) (s : State) : Outcome :=
  .next (coreAtomic t .cas rd rs1 rs2 ord w s)

/-- AMO_FADD (Table 7-8, R131, R133). -/
def execAmoFadd (t : Fin 512) (rd rs1 rs2 : BitVec 5) (ord : BitVec 2) (w : Bool) (s : State) : Outcome :=
  .next (coreAtomic t .fadd rd rs1 rs2 ord w s)

/-- ADDP (Table 7-8, R131, R133). -/
def execAddp (t : Fin 512) (rd rs1 rs2 : BitVec 5) (ord : BitVec 2) (w : Bool) (s : State) : Outcome :=
  .next (coreAtomic t .addp rd rs1 rs2 ord w s)

/-- LDACQ (Table 7-8, R131, R133). -/
def execLdacq (t : Fin 512) (rd rs1 rs2 : BitVec 5) (ord : BitVec 2) (w : Bool) (s : State) : Outcome :=
  .next (coreAtomic t .ldacq rd rs1 rs2 ord w s)

/-- STREL (Table 7-8, R131, R133). -/
def execStrel (t : Fin 512) (rd rs1 rs2 : BitVec 5) (ord : BitVec 2) (w : Bool) (s : State) : Outcome :=
  .next (coreAtomic t .strel rd rs1 rs2 ord w s)

/-- FENCE.L: every earlier local access is performed already, so the thread goes on (R131). -/
def execFenceL (t : Fin 512) (s : State) : Outcome :=
  .next (s.coreExec t (encReg 0x22 0 0 0 0x010) noField fun s => s.runOp t.val (.fence false))

/-- FENCE.G (R131, R208). -/
def execFenceG (t : Fin 512) (s : State) : Outcome :=
  .next (s.coreExec t (encReg 0x22 0 0 0 0x011) noField fun s => s.runOp t.val (.fence true))

/-- HALT: waits as FENCE.G does, then the thread ends (R122). -/
def execHalt (t : Fin 512) (s : State) : Outcome :=
  .next (s.coreExec t (encReg 0x22 0 0 0 0x020) noField fun s => s.runOp t.val .halt)

/-- YIELD ends the thread's turn; it is ready at once (R123). -/
def execYield (t : Fin 512) (s : State) : Outcome :=
  .next (s.coreExec t (encReg 0x22 0 0 0 0x021) noField fun s => s.threadDo t.val id)

/-- FRET resumes at FEPC; outside a handler it is reserved (R128, Table 7-6). -/
def execFret (t : Fin 512) (s : State) : Outcome :=
  .next (s.coreExec t (encReg 0x22 0 0 0 0x030) noField fun s =>
    if (s.thread t.val).inHandler then s.onThread t.val fun th => { th with pc := th.fepc, inHandler := false }
    else s.faultHere t.val eBadcmd 0)

/-- The value of a CSR; none for a reserved number (Table 7-7). -/
def State.csrValue (s : State) (t n : Nat) : Option Word :=
  let th := s.thread t
  if n = 0x001 then some th.fpstat
  else if n = 0x010 then some (BitVec.ofNat 64 (s.rd rSchStep))
  else if n = 0x011 then some (BitVec.ofNat 64 s.nodeId)
  else if n = 0x012 then some (BitVec.ofNat 64 t)
  else if n = 0x013 then some (BitVec.ofNat 64 th.cycles)
  else if n = 0x020 then some th.fepc
  else if n = 0x021 then some th.fcause
  else if n = 0x022 then some th.faddr
  else if 0x040 ≤ n ∧ n ≤ 0x05F then some (s.regGet (regKey tySch 0 (0x100 + 8 * (n - 0x040))))
  else none

/-- CSR with imm[15] clear: rd = CSR (Table 7-6). -/
def execCsrRead (t : Fin 512) (rd : BitVec 5) (csr : BitVec 12) (s : State) : Outcome :=
  .next (s.coreExec t (encImm 0x25 rd 0 (csr.zeroExtend 16)) noRs1 fun s =>
    match s.csrValue t.val csr.toNat with
    | some v => s.threadDo t.val fun th => th.setX rd v
    | none => s.faultHere t.val eBadcmd 0)

/-- Write a CSR; none where it is read-only, reserved, or the value is reserved (R136, Table 7-7). -/
def Thread.csrPut (th : Thread) (n : Nat) (v : Word) : Option Thread :=
  if n = 0x001 then
    if v.toNat % 8 ≤ 3 ∧ v.toNat / 8 % 32 = 0 ∧ v.toNat / 2 ^ 15 = 0 then some { th with fpstat := v } else none
  else if n = 0x020 then some { th with fepc := v }
  else if n = 0x021 then some { th with fcause := v }
  else if n = 0x022 then some { th with faddr := v }
  else none

/-- CSR with imm[15] set: rd = CSR, then CSR = rs1; the fault of a read-only CSR or a reserved value leaves it unchanged. -/
def execCsrWrite (t : Fin 512) (rd rs1 : BitVec 5) (csr : BitVec 12) (s : State) : Outcome :=
  .next (s.coreExec t (encImm 0x25 rd rs1 (0x8000 + csr.zeroExtend 16)) noField fun s =>
    let th := s.thread t.val
    match s.csrValue t.val csr.toNat, th.csrPut csr.toNat (th.getX rs1) with
    | some v, some th' => s.threadDo t.val fun _ => th'.setX rd v
    | _, _ => s.faultHere t.val eBadcmd 0)

end Sys2Proof.Machine
end

