-- ==== Sys2Proof/Machine/CoreFp.lean ====
section
/-!
DEFINITION. The scalar floating-point instructions of the cores (R135 to R137, Table 7-6 OP 0x23 and 0x24).
-/

namespace Sys2Proof.Machine

/-- The rounding direction of FPSTAT.RM (Table 7-12). -/
def Thread.rm (th : Thread) : Rnd :=
  match bitsOf th.fpstat.toNat 2 0 with
  | 0 => .rne
  | 1 => .up
  | 2 => .down
  | _ => .zero

/-- The FPSTAT bits of a set of flags (Table 7-12). -/
def Flags.bits (f : Flags) : Nat :=
  f.nv.toNat * 2 ^ 8 + f.dz.toNat * 2 ^ 9 + f.of.toNat * 2 ^ 10 + f.uf.toNat * 2 ^ 11 + f.nx.toNat * 2 ^ 12 +
    f.sat.toNat * 2 ^ 13 + f.cnan.toNat * 2 ^ 14

/-- Raise sticky flags (R137). -/
def Thread.raiseFlags (th : Thread) (f : Flags) : Thread :=
  { th with fpstat := th.fpstat ||| BitVec.ofNat 64 f.bits }

/-- Encode the result of an arithmetic operation rounded once: `sn` says that an operand is a signalling NaN, `invalid` that
the operation is invalid (R137). -/
def fpResult (f : Fmt) (r : Rnd) (v : FVal) (sn invalid dz : Bool) : Nat × Flags :=
  let x := encodeIeee f r v
  (x.1, { x.2 with nv := sn || invalid, dz := dz })

/-- A two-operand arithmetic operation: invalid where it makes a NaN of operands that are none. -/
def fpBin (f : Fmt) (r : Rnd) (op : FVal → FVal → FVal) (a b : Nat) : Nat × Flags :=
  let va := decodeFmt f a
  let vb := decodeFmt f b
  let v := op va vb
  fpResult f r v (isSignalling f a || isSignalling f b) (v.isNan && !va.isNan && !vb.isNan) false

/-- a + b. -/
def fpAdd (f : Fmt) (r : Rnd) (a b : Nat) : Nat × Flags := fpBin f r (FVal.add r) a b

/-- a - b. -/
def fpSub (f : Fmt) (r : Rnd) (a b : Nat) : Nat × Flags := fpBin f r (fun x y => FVal.add r x y.neg) a b

/-- a * b. -/
def fpMul (f : Fmt) (r : Rnd) (a b : Nat) : Nat × Flags := fpBin f r FVal.mul a b

/-- a / b; DZ where a finite non-zero value is divided by zero (Table 7-12). -/
def fpDiv (f : Fmt) (r : Rnd) (a b : Nat) : Nat × Flags :=
  let va := decodeFmt f a
  let vb := decodeFmt f b
  let v := FVal.div va vb
  fpResult f r v (isSignalling f a || isSignalling f b) (v.isNan && !va.isNan && !vb.isNan)
    (va.isFinite && !va.isZero && vb.isZero)

/-- The square root. -/
def fpSqrt (f : Fmt) (r : Rnd) (a : Nat) : Nat × Flags :=
  let va := decodeFmt f a
  let v := va.sqrt
  fpResult f r v (isSignalling f a) (v.isNan && !va.isNan) false

/-- The minimum of R87. -/
def fpMin (f : Fmt) (r : Rnd) (a b : Nat) : Nat × Flags := fpBin f r FVal.min a b

/-- The maximum of R87. -/
def fpMax (f : Fmt) (r : Rnd) (a b : Nat) : Nat × Flags := fpBin f r FVal.max a b

/-- (+-) a * b (+-) c rounded once, a and b in one format and c in another (R136, R139). -/
def fpFma (fin fout : Fmt) (r : Rnd) (negProd negC : Bool) (a b c : Nat) : Nat × Flags :=
  let va := decodeFmt fin a
  let vb := decodeFmt fin b
  let vc := decodeFmt fout c
  let p := FVal.mul va vb
  let v := FVal.add r (if negProd then p.neg else p) (if negC then vc.neg else vc)
  let badProd := p.isNan && !va.isNan && !vb.isNan
  fpResult fout r v (isSignalling fin a || isSignalling fin b || isSignalling fout c)
    ((v.isNan && !va.isNan && !vb.isNan && !vc.isNan) || (badProd && vc.isNan && Config.fmaInvalidNan)) false

/-- The sign bit of an encoding. -/
def signBit (w n : Nat) : Bool := bitOf n (w - 1)

/-- The magnitude of a with a sign bit. -/
def withSign (w n : Nat) (neg : Bool) : Nat := n % 2 ^ (w - 1) + neg.toNat * 2 ^ (w - 1)

/-- The operand of a scalar type: the low 64 or 32 bits of f (R135). -/
def Thread.fArg (th : Thread) (ty : FType) (r : BitVec 5) : Nat := th.getF r % 2 ^ ty.fmt.bits

/-- A scalar operation into an f register. -/
def fpuToF (t : Fin 512) (w ign : Nat) (fd : BitVec 5) (f : Thread → Nat × Flags) (s : State) : State :=
  s.coreExec t w ign fun s => s.threadDo t.val fun th =>
    let x := f th
    (th.setF fd x.1).raiseFlags x.2

/-- A scalar operation into an x register. -/
def fpuToX (t : Fin 512) (w ign : Nat) (rd : BitVec 5) (f : Thread → Nat × Flags) (s : State) : State :=
  s.coreExec t w ign fun s => s.threadDo t.val fun th =>
    let x := f th
    (th.setX rd (BitVec.ofNat 64 x.1)).raiseFlags x.2

/-- The word of an FPU instruction other than FCVT: OP 0x23, FN[3:0] the operation, FN[5:4] the type (Table 7-6). -/
def encFpu (ty : FType) (fn : Nat) (rd rs1 rs2 : BitVec 5) : Nat := encReg 0x23 rd rs1 rs2 (ty.ft * 2 ^ 4 + fn)

/-- The word of an FCVT: FN[5:4] the source, FN[9:6] the destination (Table 7-6). -/
def encFcvt (src dst : CvtType) (fd fs1 : BitVec 5) : Nat := encReg 0x23 fd fs1 0 (dst.ct * 2 ^ 6 + src.ct * 2 ^ 4 + 11)

/-- FADD (Table 7-6, R136, R137). -/
def execFadd (t : Fin 512) (ty : FType) (fd fs1 fs2 : BitVec 5) (s : State) : Outcome :=
  .next (fpuToF t (encFpu ty 0 fd fs1 fs2) noField fd (fun th => fpAdd ty.fmt th.rm (th.fArg ty fs1) (th.fArg ty fs2)) s)

/-- FSUB (Table 7-6, R136, R137). -/
def execFsub (t : Fin 512) (ty : FType) (fd fs1 fs2 : BitVec 5) (s : State) : Outcome :=
  .next (fpuToF t (encFpu ty 1 fd fs1 fs2) noField fd (fun th => fpSub ty.fmt th.rm (th.fArg ty fs1) (th.fArg ty fs2)) s)

/-- FMUL (Table 7-6, R136, R137). -/
def execFmul (t : Fin 512) (ty : FType) (fd fs1 fs2 : BitVec 5) (s : State) : Outcome :=
  .next (fpuToF t (encFpu ty 2 fd fs1 fs2) noField fd (fun th => fpMul ty.fmt th.rm (th.fArg ty fs1) (th.fArg ty fs2)) s)

/-- FDIV (Table 7-6, R136, R137). -/
def execFdiv (t : Fin 512) (ty : FType) (fd fs1 fs2 : BitVec 5) (s : State) : Outcome :=
  .next (fpuToF t (encFpu ty 3 fd fs1 fs2) noField fd (fun th => fpDiv ty.fmt th.rm (th.fArg ty fs1) (th.fArg ty fs2)) s)

/-- FMIN (Table 7-6, R136, R137). -/
def execFmin (t : Fin 512) (ty : FType) (fd fs1 fs2 : BitVec 5) (s : State) : Outcome :=
  .next (fpuToF t (encFpu ty 5 fd fs1 fs2) noField fd (fun th => fpMin ty.fmt th.rm (th.fArg ty fs1) (th.fArg ty fs2)) s)

/-- FMAX (Table 7-6, R136, R137). -/
def execFmax (t : Fin 512) (ty : FType) (fd fs1 fs2 : BitVec 5) (s : State) : Outcome :=
  .next (fpuToF t (encFpu ty 6 fd fs1 fs2) noField fd (fun th => fpMax ty.fmt th.rm (th.fArg ty fs1) (th.fArg ty fs2)) s)

/-- FSQRT; rs2 has no meaning (Table 7-6). -/
def execFsqrt (t : Fin 512) (ty : FType) (fd fs1 fs2 : BitVec 5) (s : State) : Outcome :=
  .next (fpuToF t (encFpu ty 4 fd fs1 fs2) noField fd (fun th => fpSqrt ty.fmt th.rm (th.fArg ty fs1)) s)

/-- FCPYS: the magnitude of f rs1 with the sign of f rs2 (Table 7-6). -/
def execFcpys (t : Fin 512) (ty : FType) (fd fs1 fs2 : BitVec 5) (s : State) : Outcome :=
  .next (fpuToF t (encFpu ty 7 fd fs1 fs2) noField fd (fun th =>
    (withSign ty.fmt.bits (th.fArg ty fs1) (signBit ty.fmt.bits (th.fArg ty fs2)), {})) s)

/-- A scalar compare: the result, and NV for a signalling NaN, or for a quiet one where `quiet` says so (R137). -/
def fpCompare (f : Fmt) (quiet : Bool) (cmp : FVal → FVal → Bool) (a b : Nat) : Nat × Flags :=
  let va := decodeFmt f a
  let vb := decodeFmt f b
  ((cmp va vb).toNat,
   { nv := isSignalling f a || isSignalling f b || (quiet && (va.isNan || vb.isNan)) })

/-- a at or below b; false on a NaN. -/
def FVal.le (a b : FVal) : Bool := FVal.lt a b || FVal.eq a b

/-- FCMPEQ (Table 7-6). -/
def execFcmpeq (t : Fin 512) (ty : FType) (rd fs1 fs2 : BitVec 5) (s : State) : Outcome :=
  .next (fpuToX t (encFpu ty 8 rd fs1 fs2) noField rd (fun th => fpCompare ty.fmt false FVal.eq (th.fArg ty fs1) (th.fArg ty fs2)) s)

/-- FCMPLT (Table 7-6). -/
def execFcmplt (t : Fin 512) (ty : FType) (rd fs1 fs2 : BitVec 5) (s : State) : Outcome :=
  .next (fpuToX t (encFpu ty 9 rd fs1 fs2) noField rd (fun th => fpCompare ty.fmt Config.fcmpQuietInvalid FVal.lt (th.fArg ty fs1) (th.fArg ty fs2)) s)

/-- FCMPLE (Table 7-6). -/
def execFcmple (t : Fin 512) (ty : FType) (rd fs1 fs2 : BitVec 5) (s : State) : Outcome :=
  .next (fpuToX t (encFpu ty 10 rd fs1 fs2) noField rd (fun th => fpCompare ty.fmt Config.fcmpQuietInvalid FVal.le (th.fArg ty fs1) (th.fArg ty fs2)) s)

/-- A conversion as a core performs it: always RNE, with NV for a signalling NaN (R136, R137). -/
def coreConvert (src dst : Fmt) (n : Nat) : Nat × Flags :=
  let x := convert src dst n
  (x.1, { x.2 with nv := isSignalling src n })

/-- FCVT: type FP64 or FP32 to FP64, FP32, INT64 or INT32, in an f register (Table 7-6). -/
def execFcvt (t : Fin 512) (src dst : CvtType) (fd fs1 : BitVec 5) (s : State) : Outcome :=
  match src with
  | .fp64 | .fp32 =>
    .next (fpuToF t (encFcvt src dst fd fs1) noRs2 fd
      (fun th => coreConvert src.fmt dst.fmt (th.getF fs1 % 2 ^ src.fmt.bits)) s)
  | .int64 | .int32 => .next (badEncoding t (encFcvt src dst fd fs1) noRs2 s)

/-- FTOX: x rd = bits of f rs1 (Table 7-6). -/
def execFtox (t : Fin 512) (ty : FType) (rd fs1 : BitVec 5) (s : State) : Outcome :=
  .next (fpuToX t (encFpu ty 12 rd fs1 0) noRs2 rd (fun th => (th.fArg ty fs1, {})) s)

/-- XTOF: f rd = bits of x rs1 (Table 7-6, R135). -/
def execXtof (t : Fin 512) (ty : FType) (fd rs1 : BitVec 5) (s : State) : Outcome :=
  .next (fpuToF t (encFpu ty 13 fd rs1 0) noRs2 fd (fun th => ((th.getX rs1).toNat % 2 ^ ty.fmt.bits, {})) s)

/-- FMADD: VAR 0 a*b + c, 1 a*b - c, 2 -a*b + c, 3 -a*b - c, rounded once (Table 7-6). -/
def execFmadd (t : Fin 512) (ty : FType) (var : BitVec 2) (fd fs1 fs2 fs3 : BitVec 5) (s : State) : Outcome :=
  .next (fpuToF t (encMadd 0x24 fd fs1 fs2 fs3 var ty.ft) noField fd (fun th =>
    fpFma ty.fmt ty.fmt th.rm (bitOf var.toNat 1) (bitOf var.toNat 0) (th.fArg ty fs1) (th.fArg ty fs2) (th.fArg ty fs3)) s)

end Sys2Proof.Machine
end

