-- ==== Sys2Proof/Machine/WideLane.lean ====
section
/-!
DEFINITION. The wide-lane extension (R138 to R144, Tables 7-9 to 7-11).
-/

namespace Sys2Proof.Machine

/-- Element `i` of width `w` of a wide register (R138). -/
def wideElem (v : Wide) (w i : Nat) : Nat := bitsOf v.toNat (w * i + w - 1) (w * i)

/-- Element `i` is active under mask field K (R138). -/
def Thread.active (th : Thread) (k : BitVec 3) (i : Nat) : Bool := k = 0 || bitOf (th.getK k.toNat).toNat i

/-- Assemble a wide register from elements of width `w`. -/
def wideOf (w : Nat) (es : List Nat) : Wide :=
  BitVec.ofNat 512 (es.foldr (fun e acc => e % 2 ^ w + acc * 2 ^ w) 0)

/-- Write the `n` elements of width `w` of a destination: an active element takes its value and raises its flags, an inactive
one keeps its old value or becomes 0 (R138). -/
def Thread.wideWrite (th : Thread) (w n : Nat) (k : BitVec 3) (z : Bool) (wd : BitVec 5) (f : Nat → Nat × Flags) : Thread :=
  let old := th.getW wd
  let es := (upTo n).map fun i =>
    if th.active k i then f i else (if z then 0 else wideElem old w i, {})
  (th.setW wd (wideOf w (es.map (·.1)))).raiseFlags (es.foldl (fun a e => a.or e.2) {})

/-- A wide instruction on elements of one type; an element type that its table does not allow is E_BADCMD (R138). -/
def wideExec (t : Fin 512) (w ign : Nat) (ok : Bool) (f : Thread → Thread) (s : State) : State :=
  s.coreExec t w ign fun s => if ok then s.threadDo t.val f else s.faultHere t.val eBadcmd 0

/-- Element-wise on two sources. -/
def wideBin (t : Fin 512) (op fn : Nat) (et : ElemType) (ok : Bool) (k : BitVec 3) (z : Bool) (wd ws1 ws2 : BitVec 5)
    (f : Rnd → Nat → Nat → Nat × Flags) (s : State) : State :=
  wideExec t (encW op wd ws1 ws2 k z et fn) noField ok (fun th => th.wideWrite et.width et.count k z wd fun i =>
    f th.rm (wideElem (th.getW ws1) et.width i) (wideElem (th.getW ws2) et.width i)) s

/-- An integer result without flags, wrapped to the element width. -/
def intRes (et : ElemType) (i : Int) : Nat × Flags := (patternOf et.width i, {})

/-- WADD, OP 0x30 (Table 7-9). -/
def execWadd (t : Fin 512) (et : ElemType) (k : BitVec 3) (z : Bool) (wd ws1 ws2 : BitVec 5) (s : State) : Outcome :=
  .next (wideBin t 0x30 0 et et.isFloat k z wd ws1 ws2 (fpAdd et.fmt) s)

/-- WSUB, OP 0x30 (Table 7-9). -/
def execWsub (t : Fin 512) (et : ElemType) (k : BitVec 3) (z : Bool) (wd ws1 ws2 : BitVec 5) (s : State) : Outcome :=
  .next (wideBin t 0x30 1 et et.isFloat k z wd ws1 ws2 (fpSub et.fmt) s)

/-- WMUL, OP 0x30 (Table 7-9). -/
def execWmul (t : Fin 512) (et : ElemType) (k : BitVec 3) (z : Bool) (wd ws1 ws2 : BitVec 5) (s : State) : Outcome :=
  .next (wideBin t 0x30 2 et et.isFloat k z wd ws1 ws2 (fpMul et.fmt) s)

/-- WDIV, OP 0x30 (Table 7-9). -/
def execWdiv (t : Fin 512) (et : ElemType) (k : BitVec 3) (z : Bool) (wd ws1 ws2 : BitVec 5) (s : State) : Outcome :=
  .next (wideBin t 0x30 3 et et.isFloat k z wd ws1 ws2 (fpDiv et.fmt) s)

/-- WMIN, OP 0x30 (Table 7-9). -/
def execWmin (t : Fin 512) (et : ElemType) (k : BitVec 3) (z : Bool) (wd ws1 ws2 : BitVec 5) (s : State) : Outcome :=
  .next (wideBin t 0x30 5 et et.isFloat k z wd ws1 ws2 (fpMin et.fmt) s)

/-- WMAX, OP 0x30 (Table 7-9). -/
def execWmax (t : Fin 512) (et : ElemType) (k : BitVec 3) (z : Bool) (wd ws1 ws2 : BitVec 5) (s : State) : Outcome :=
  .next (wideBin t 0x30 6 et et.isFloat k z wd ws1 ws2 (fpMax et.fmt) s)

/-- WSQRT: ws2 must be w0 (Table 7-9). -/
def execWsqrt (t : Fin 512) (et : ElemType) (k : BitVec 3) (z : Bool) (wd ws1 ws2 : BitVec 5) (s : State) : Outcome :=
  .next (wideBin t 0x30 4 et (et.isFloat && ws2 = 0) k z wd ws1 ws2 (fun r a _ => fpSqrt et.fmt r a) s)

/-- WABS: sign cleared, no flags (Table 7-9). -/
def execWabs (t : Fin 512) (et : ElemType) (k : BitVec 3) (z : Bool) (wd ws1 ws2 : BitVec 5) (s : State) : Outcome :=
  .next (wideBin t 0x30 7 et (et.isFloat && ws2 = 0) k z wd ws1 ws2 (fun _ a _ => (withSign et.width a false, {})) s)

/-- WNEG: sign flipped, no flags (Table 7-9). -/
def execWneg (t : Fin 512) (et : ElemType) (k : BitVec 3) (z : Bool) (wd ws1 ws2 : BitVec 5) (s : State) : Outcome :=
  .next (wideBin t 0x30 8 et (et.isFloat && ws2 = 0) k z wd ws1 ws2
    (fun _ a _ => (withSign et.width a (!signBit et.width a), {})) s)

/-- WSGNJ: the magnitude of a with the sign of b (Table 7-9). -/
def execWsgnj (t : Fin 512) (et : ElemType) (k : BitVec 3) (z : Bool) (wd ws1 ws2 : BitVec 5) (s : State) : Outcome :=
  .next (wideBin t 0x30 9 et et.isFloat k z wd ws1 ws2
    (fun _ a b => (withSign et.width a (signBit et.width b), {})) s)

/-- WINT_ADD, OP 0x31 (Table 7-9). -/
def execWintAdd (t : Fin 512) (et : ElemType) (k : BitVec 3) (z : Bool) (wd ws1 ws2 : BitVec 5) (s : State) : Outcome :=
  .next (wideBin t 0x31 0 et (!et.isFloat) k z wd ws1 ws2 (fun _ a b => intRes et (a + b)) s)

/-- WINT_SUB, OP 0x31 (Table 7-9). -/
def execWintSub (t : Fin 512) (et : ElemType) (k : BitVec 3) (z : Bool) (wd ws1 ws2 : BitVec 5) (s : State) : Outcome :=
  .next (wideBin t 0x31 1 et (!et.isFloat) k z wd ws1 ws2 (fun _ a b => intRes et ((a : Int) - b)) s)

/-- WMULLO, OP 0x31 (Table 7-9). -/
def execWmullo (t : Fin 512) (et : ElemType) (k : BitVec 3) (z : Bool) (wd ws1 ws2 : BitVec 5) (s : State) : Outcome :=
  .next (wideBin t 0x31 2 et (!et.isFloat) k z wd ws1 ws2 (fun _ a b => intRes et (a * b)) s)

/-- WMULHI, OP 0x31 (Table 7-9). -/
def execWmulhi (t : Fin 512) (et : ElemType) (k : BitVec 3) (z : Bool) (wd ws1 ws2 : BitVec 5) (s : State) : Outcome :=
  .next (wideBin t 0x31 3 et (!et.isFloat) k z wd ws1 ws2 (fun _ a b => intRes et (signedOf et.width a * signedOf et.width b / (2 ^ et.width : Nat))) s)

/-- WMULHIU, OP 0x31 (Table 7-9). -/
def execWmulhiu (t : Fin 512) (et : ElemType) (k : BitVec 3) (z : Bool) (wd ws1 ws2 : BitVec 5) (s : State) : Outcome :=
  .next (wideBin t 0x31 4 et (!et.isFloat) k z wd ws1 ws2 (fun _ a b => (a * b / 2 ^ et.width, {})) s)

/-- WINT_MIN, OP 0x31 (Table 7-9). -/
def execWintMin (t : Fin 512) (et : ElemType) (k : BitVec 3) (z : Bool) (wd ws1 ws2 : BitVec 5) (s : State) : Outcome :=
  .next (wideBin t 0x31 5 et (!et.isFloat) k z wd ws1 ws2 (fun _ a b => (if signedOf et.width a < signedOf et.width b then a else b, {})) s)

/-- WINT_MAX, OP 0x31 (Table 7-9). -/
def execWintMax (t : Fin 512) (et : ElemType) (k : BitVec 3) (z : Bool) (wd ws1 ws2 : BitVec 5) (s : State) : Outcome :=
  .next (wideBin t 0x31 6 et (!et.isFloat) k z wd ws1 ws2 (fun _ a b => (if signedOf et.width a < signedOf et.width b then b else a, {})) s)

/-- WMINU, OP 0x31 (Table 7-9). -/
def execWminu (t : Fin 512) (et : ElemType) (k : BitVec 3) (z : Bool) (wd ws1 ws2 : BitVec 5) (s : State) : Outcome :=
  .next (wideBin t 0x31 7 et (!et.isFloat) k z wd ws1 ws2 (fun _ a b => (if a < b then a else b, {})) s)

/-- WMAXU, OP 0x31 (Table 7-9). -/
def execWmaxu (t : Fin 512) (et : ElemType) (k : BitVec 3) (z : Bool) (wd ws1 ws2 : BitVec 5) (s : State) : Outcome :=
  .next (wideBin t 0x31 8 et (!et.isFloat) k z wd ws1 ws2 (fun _ a b => (if a < b then b else a, {})) s)

/-- WAND, OP 0x31 (Table 7-9). -/
def execWand (t : Fin 512) (et : ElemType) (k : BitVec 3) (z : Bool) (wd ws1 ws2 : BitVec 5) (s : State) : Outcome :=
  .next (wideBin t 0x31 9 et (!et.isFloat) k z wd ws1 ws2 (fun _ a b => (a &&& b, {})) s)

/-- WOR, OP 0x31 (Table 7-9). -/
def execWor (t : Fin 512) (et : ElemType) (k : BitVec 3) (z : Bool) (wd ws1 ws2 : BitVec 5) (s : State) : Outcome :=
  .next (wideBin t 0x31 10 et (!et.isFloat) k z wd ws1 ws2 (fun _ a b => (a ||| b, {})) s)

/-- WXOR, OP 0x31 (Table 7-9). -/
def execWxor (t : Fin 512) (et : ElemType) (k : BitVec 3) (z : Bool) (wd ws1 ws2 : BitVec 5) (s : State) : Outcome :=
  .next (wideBin t 0x31 11 et (!et.isFloat) k z wd ws1 ws2 (fun _ a b => (a ^^^ b, {})) s)

/-- WANDN, OP 0x31 (Table 7-9). -/
def execWandn (t : Fin 512) (et : ElemType) (k : BitVec 3) (z : Bool) (wd ws1 ws2 : BitVec 5) (s : State) : Outcome :=
  .next (wideBin t 0x31 12 et (!et.isFloat) k z wd ws1 ws2 (fun _ a b => (a &&& (2 ^ et.width - 1 - b), {})) s)

/-- WSHL, OP 0x31 (Table 7-9). -/
def execWshl (t : Fin 512) (et : ElemType) (k : BitVec 3) (z : Bool) (wd ws1 ws2 : BitVec 5) (s : State) : Outcome :=
  .next (wideBin t 0x31 13 et (!et.isFloat) k z wd ws1 ws2 (fun _ a b => intRes et (a <<< (b % et.width) : Nat)) s)

/-- WSHR, OP 0x31 (Table 7-9). -/
def execWshr (t : Fin 512) (et : ElemType) (k : BitVec 3) (z : Bool) (wd ws1 ws2 : BitVec 5) (s : State) : Outcome :=
  .next (wideBin t 0x31 14 et (!et.isFloat) k z wd ws1 ws2 (fun _ a b => (a >>> (b % et.width), {})) s)

/-- WSHRA, OP 0x31 (Table 7-9). -/
def execWshra (t : Fin 512) (et : ElemType) (k : BitVec 3) (z : Bool) (wd ws1 ws2 : BitVec 5) (s : State) : Outcome :=
  .next (wideBin t 0x31 15 et (!et.isFloat) k z wd ws1 ws2 (fun _ a b => intRes et (signedOf et.width a / (2 ^ (b % et.width) : Nat))) s)

/-- A compare into mask register kd: bits n to 63 are written 0, inactive bits follow Z; wd[4:3] must be 0 and wd[2:0] not
(Table 7-9). -/
def wideCmp (t : Fin 512) (fn : Nat) (et : ElemType) (ok : Bool) (k : BitVec 3) (z : Bool) (kd ws1 ws2 : BitVec 5)
    (f : Nat → Nat → Bool) (s : State) : State :=
  wideExec t (encW 0x32 kd ws1 ws2 k z et fn) noField (ok && decide (1 ≤ kd.toNat) && decide (kd.toNat ≤ 7)) (fun th =>
    let old := (th.getK kd.toNat).toNat
    let a := fun i => wideElem (th.getW ws1) et.width i
    let b := fun i => wideElem (th.getW ws2) et.width i
    let bits := (upTo et.count).foldr (fun i acc =>
      (if th.active k i then f (a i) (b i) else !z && bitOf old i).toNat + 2 * acc) 0
    let nv := et.isFloat && (upTo et.count).any fun i =>
      th.active k i && (isSignalling et.fmt (a i) || isSignalling et.fmt (b i))
    (th.setK kd.toNat (BitVec.ofNat 64 bits)).raiseFlags { nv := nv }) s

/-- A compare of elements, float or signed. -/
def elemCmp (et : ElemType) (f : FVal → FVal → Bool) (a b : Nat) : Bool := f (decodeFmt et.fmt a) (decodeFmt et.fmt b)

/-- WCMP_EQ, OP 0x32 (Table 7-9). -/
def execWcmpEq (t : Fin 512) (et : ElemType) (k : BitVec 3) (z : Bool) (kd ws1 ws2 : BitVec 5) (s : State) : Outcome :=
  .next (wideCmp t 0 et (true) k z kd ws1 ws2 (elemCmp et FVal.eq) s)

/-- WCMP_NE, OP 0x32 (Table 7-9). -/
def execWcmpNe (t : Fin 512) (et : ElemType) (k : BitVec 3) (z : Bool) (kd ws1 ws2 : BitVec 5) (s : State) : Outcome :=
  .next (wideCmp t 1 et (true) k z kd ws1 ws2 (fun a b => !elemCmp et FVal.eq a b) s)

/-- WCMP_LT, OP 0x32 (Table 7-9). -/
def execWcmpLt (t : Fin 512) (et : ElemType) (k : BitVec 3) (z : Bool) (kd ws1 ws2 : BitVec 5) (s : State) : Outcome :=
  .next (wideCmp t 2 et (true) k z kd ws1 ws2 (elemCmp et FVal.lt) s)

/-- WCMP_LE, OP 0x32 (Table 7-9). -/
def execWcmpLe (t : Fin 512) (et : ElemType) (k : BitVec 3) (z : Bool) (kd ws1 ws2 : BitVec 5) (s : State) : Outcome :=
  .next (wideCmp t 3 et (true) k z kd ws1 ws2 (elemCmp et FVal.le) s)

/-- WCMP_LTU, OP 0x32 (Table 7-9). -/
def execWcmpLtu (t : Fin 512) (et : ElemType) (k : BitVec 3) (z : Bool) (kd ws1 ws2 : BitVec 5) (s : State) : Outcome :=
  .next (wideCmp t 4 et (!et.isFloat) k z kd ws1 ws2 (fun a b => decide (a < b)) s)

/-- WCMP_LEU, OP 0x32 (Table 7-9). -/
def execWcmpLeu (t : Fin 512) (et : ElemType) (k : BitVec 3) (z : Bool) (kd ws1 ws2 : BitVec 5) (s : State) : Outcome :=
  .next (wideCmp t 5 et (!et.isFloat) k z kd ws1 ws2 (fun a b => decide (a ≤ b)) s)

/-- WCMP_UNORD, OP 0x32 (Table 7-9). -/
def execWcmpUnord (t : Fin 512) (et : ElemType) (k : BitVec 3) (z : Bool) (kd ws1 ws2 : BitVec 5) (s : State) : Outcome :=
  .next (wideCmp t 6 et (et.isFloat) k z kd ws1 ws2 (fun a b => (decodeFmt et.fmt a).isNan || (decodeFmt et.fmt b).isNan) s)

/-- WMOV: wd = ws1 per active element (Table 7-10). -/
def execWmov (t : Fin 512) (et : ElemType) (k : BitVec 3) (z : Bool) (wd ws1 : BitVec 5) (s : State) : Outcome :=
  .next (wideExec t (encW 0x33 wd ws1 0 k z et 0) noRs2 true (fun th => th.wideWrite et.width et.count k z wd fun i =>
    (wideElem (th.getW ws1) et.width i, {})) s)

/-- WBCX: every active element = x truncated (Table 7-10). -/
def execWbcx (t : Fin 512) (et : ElemType) (k : BitVec 3) (z : Bool) (wd rs1 : BitVec 5) (s : State) : Outcome :=
  .next (wideExec t (encW 0x33 wd rs1 0 k z et 1) noRs2 true (fun th => th.wideWrite et.width et.count k z wd fun _ =>
    ((th.getX rs1).toNat % 2 ^ et.width, {})) s)

/-- WBCF: every active element = the low bits of f (Table 7-10). -/
def execWbcf (t : Fin 512) (et : ElemType) (k : BitVec 3) (z : Bool) (wd fs1 : BitVec 5) (s : State) : Outcome :=
  .next (wideExec t (encW 0x33 wd fs1 0 k z et 2) noRs2 true (fun th => th.wideWrite et.width et.count k z wd fun _ =>
    (th.getF fs1 % 2 ^ et.width, {})) s)

/-- WEXTX: element (x[ws2] mod n) sign-extended; K and Z must be 0 (Table 7-10). -/
def execWextx (t : Fin 512) (et : ElemType) (k : BitVec 3) (z : Bool) (rd ws1 rs2 : BitVec 5) (s : State) : Outcome :=
  .next (wideExec t (encW 0x33 rd ws1 rs2 k z et 3) noField (k = 0 && !z) (fun th =>
    th.setX rd (sextNat et.width (wideElem (th.getW ws1) et.width ((th.getX rs2).toNat % et.count)))) s)

/-- WINSX: element (x[ws2] mod n) of wd = x truncated; K and Z must be 0 (Table 7-10). -/
def execWinsx (t : Fin 512) (et : ElemType) (k : BitVec 3) (z : Bool) (wd rs1 rs2 : BitVec 5) (s : State) : Outcome :=
  .next (wideExec t (encW 0x33 wd rs1 rs2 k z et 4) noField (k = 0 && !z) (fun th =>
    let i := (th.getX rs2).toNat % et.count
    th.setW wd (BitVec.ofNat 512 (withBits (th.getW wd).toNat (et.width * i + et.width - 1) (et.width * i) (th.getX rs1).toNat))) s)

/-- WPERM: element i = element (b_i mod n) of ws1 (Table 7-10). -/
def execWperm (t : Fin 512) (et : ElemType) (k : BitVec 3) (z : Bool) (wd ws1 ws2 : BitVec 5) (s : State) : Outcome :=
  .next (wideExec t (encW 0x33 wd ws1 ws2 k z et 5) noField true (fun th => th.wideWrite et.width et.count k z wd fun i =>
    (wideElem (th.getW ws1) et.width (wideElem (th.getW ws2) et.width i % et.count), {})) s)

/-- One level of the tree of R89: neighbours combined, with their flags. -/
def treeLevel (op : Nat → Nat → Nat × Flags) : List Nat → List Nat × Flags
  | a :: b :: rest =>
    let x := op a b
    let r := treeLevel op rest
    (x.1 :: r.1, x.2.or r.2)
  | l => (l, {})

/-- The fixed tree of R89 over 2^levels elements. -/
def tree (op : Nat → Nat → Nat × Flags) : Nat → List Nat → Nat × Flags
  | 0, l => (l.headD 0, {})
  | n + 1, l =>
    let x := treeLevel op l
    let r := tree op n x.1
    (r.1, x.2.or r.2)

/-- A reduction into element 0 of wd: inactive elements enter as +0, the other elements are written 0 (Table 7-10). -/
def wideReduce (t : Fin 512) (fn : Nat) (et : ElemType) (k : BitVec 3) (z : Bool) (wd ws1 : BitVec 5) (op : Rnd → Nat → Nat → Nat × Flags)
    (s : State) : State :=
  wideExec t (encW 0x33 wd ws1 0 k z et fn) noRs2 true (fun th =>
    let xs := (upTo et.count).map fun i => if th.active k i then wideElem (th.getW ws1) et.width i else 0
    let r := tree (op th.rm) et.count.log2 xs
    (th.setW wd (BitVec.ofNat 512 (r.1 % 2 ^ et.width))).raiseFlags r.2) s

/-- WREDADD by the tree of R89 (Table 7-10); Z has no element to act on. -/
def execWredadd (t : Fin 512) (et : ElemType) (k : BitVec 3) (z : Bool) (wd ws1 : BitVec 5) (s : State) : Outcome :=
  .next (wideReduce t 6 et k z wd ws1
    (fun r a b => if et.isFloat then fpAdd et.fmt r a b else intRes et (a + b)) s)

/-- WREDMAX by the tree of R89 (Table 7-10). -/
def execWredmax (t : Fin 512) (et : ElemType) (k : BitVec 3) (z : Bool) (wd ws1 : BitVec 5) (s : State) : Outcome :=
  .next (wideReduce t 7 et k z wd ws1
    (fun r a b => if et.isFloat then fpMax et.fmt r a b else (if signedOf et.width a < signedOf et.width b then b else a, {})) s)

/-- WREDMIN by the tree of R89 (Table 7-10). -/
def execWredmin (t : Fin 512) (et : ElemType) (k : BitVec 3) (z : Bool) (wd ws1 : BitVec 5) (s : State) : Outcome :=
  .next (wideReduce t 8 et k z wd ws1
    (fun r a b => if et.isFloat then fpMin et.fmt r a b else (if signedOf et.width a < signedOf et.width b then a else b, {})) s)

/-- A mask register number of Table 7-10: [2:0] from 1 to 7, [4:3] zero. -/
def maskReg (r : BitVec 5) : Bool := decide (1 ≤ r.toNat) && decide (r.toNat ≤ 7)

/-- KMOVX (Table 7-10). -/
def execKmovx (t : Fin 512) (kd rs1 : BitVec 5) (s : State) : Outcome :=
  .next (wideExec t (encW 0x33 kd rs1 0 0 false .i8 9) noRs2 (maskReg kd) (fun th => th.setK kd.toNat (th.getX rs1)) s)

/-- XMOVK (Table 7-10). -/
def execXmovk (t : Fin 512) (rd ks1 : BitVec 5) (s : State) : Outcome :=
  .next (wideExec t (encW 0x33 rd ks1 0 0 false .i8 10) noRs2 (maskReg ks1) (fun th => th.setX rd (th.getK ks1.toNat)) s)

/-- KAND (Table 7-10). -/
def execKand (t : Fin 512) (kd ks1 ks2 : BitVec 5) (s : State) : Outcome :=
  .next (wideExec t (encW 0x33 kd ks1 ks2 0 false .i8 11) noField (maskReg kd && maskReg ks1 && maskReg ks2)
    (fun th => th.setK kd.toNat (th.getK ks1.toNat &&& th.getK ks2.toNat)) s)

/-- KOR (Table 7-10). -/
def execKor (t : Fin 512) (kd ks1 ks2 : BitVec 5) (s : State) : Outcome :=
  .next (wideExec t (encW 0x33 kd ks1 ks2 0 false .i8 12) noField (maskReg kd && maskReg ks1 && maskReg ks2)
    (fun th => th.setK kd.toNat (th.getK ks1.toNat ||| th.getK ks2.toNat)) s)

/-- KXOR (Table 7-10). -/
def execKxor (t : Fin 512) (kd ks1 ks2 : BitVec 5) (s : State) : Outcome :=
  .next (wideExec t (encW 0x33 kd ks1 ks2 0 false .i8 13) noField (maskReg kd && maskReg ks1 && maskReg ks2)
    (fun th => th.setK kd.toNat (th.getK ks1.toNat ^^^ th.getK ks2.toNat)) s)

/-- KNOT (Table 7-10). -/
def execKnot (t : Fin 512) (kd ks1 : BitVec 5) (s : State) : Outcome :=
  .next (wideExec t (encW 0x33 kd ks1 0 0 false .i8 14) noRs2 (maskReg kd && maskReg ks1) (fun th => th.setK kd.toNat (~~~ th.getK ks1.toNat)) s)

/-- The element type of FT (R139). -/
def ftElem (ft : BitVec 2) : ElemType :=
  match ft.toNat with
  | 0 => .f64
  | 1 => .f32
  | 2 => .f16
  | _ => .bf16

/-- The fused multiply-adds of R139. -/
def wideFma (t : Fin 512) (op : Nat) (ft : BitVec 2) (k : BitVec 3) (z : Bool) (wd ws1 ws2 ws3 : BitVec 5) (negProd negC : Bool)
    (s : State) : State :=
  let et := ftElem ft
  wideExec t (encW3 op wd ws1 ws2 ws3 k z ft) noField true (fun th => th.wideWrite et.width et.count k z wd fun i =>
    fpFma et.fmt et.fmt th.rm negProd negC (wideElem (th.getW ws1) et.width i) (wideElem (th.getW ws2) et.width i)
      (wideElem (th.getW ws3) et.width i)) s

/-- WFMA (R139). -/
def execWfma (t : Fin 512) (ft : BitVec 2) (k : BitVec 3) (z : Bool) (wd ws1 ws2 ws3 : BitVec 5) (s : State) : Outcome :=
  .next (wideFma t 0x34 ft k z wd ws1 ws2 ws3 false false s)

/-- WFMS (R139). -/
def execWfms (t : Fin 512) (ft : BitVec 2) (k : BitVec 3) (z : Bool) (wd ws1 ws2 ws3 : BitVec 5) (s : State) : Outcome :=
  .next (wideFma t 0x35 ft k z wd ws1 ws2 ws3 false true s)

/-- WFNMA (R139). -/
def execWfnma (t : Fin 512) (ft : BitVec 2) (k : BitVec 3) (z : Bool) (wd ws1 ws2 ws3 : BitVec 5) (s : State) : Outcome :=
  .next (wideFma t 0x36 ft k z wd ws1 ws2 ws3 true false s)

/-- WFNMS (R139). -/
def execWfnms (t : Fin 512) (ft : BitVec 2) (k : BitVec 3) (z : Bool) (wd ws1 ws2 ws3 : BitVec 5) (s : State) : Outcome :=
  .next (wideFma t 0x37 ft k z wd ws1 ws2 ws3 true true s)

/-- A widening operation: the destination elements have twice the source width, from the lower or the upper half of the
source (Table 7-11). -/
def wideWiden (t : Fin 512) (fn : Nat) (et : ElemType) (ok high : Bool) (k : BitVec 3) (z : Bool) (wd ws1 ws2 : BitVec 5)
    (f : Rnd → Nat → Nat → Nat → Nat × Flags) (s : State) : State :=
  wideExec t (encW 0x38 wd ws1 ws2 k z et fn) noField ok (fun th =>
    let n := et.count / 2
    let off := if high then n else 0
    th.wideWrite (2 * et.width) n k z wd fun i =>
      f th.rm (wideElem (th.getW ws1) et.width (off + i)) (wideElem (th.getW ws2) et.width (off + i))
        (wideElem (th.getW wd) (2 * et.width) i)) s

/-- ET 0 to 2: the integers that widen. -/
def widenInt (et : ElemType) : Bool := et.width < 64 && !et.isFloat

/-- ET 4 to 6: the floats that widen. -/
def widenFloat (et : ElemType) : Bool := et.width < 64 && et.isFloat

/-- The destination format of a float widening: FP32 from FP16 or BF16, FP64 from FP32 (Table 7-11). -/
def widenFmt (et : ElemType) : Fmt := if et.width = 32 then .fp64 else .fp32

/-- A float product into the wider format, rounded once. -/
def fpMulWide (et : ElemType) (r : Rnd) (a b : Nat) : Nat × Flags :=
  let va := decodeFmt et.fmt a
  let vb := decodeFmt et.fmt b
  let v := FVal.mul va vb
  fpResult (widenFmt et) r v (isSignalling et.fmt a || isSignalling et.fmt b) (v.isNan && !va.isNan && !vb.isNan) false

/-- MULWL: signed product, exact (Table 7-11). -/
def execMulwl (t : Fin 512) (et : ElemType) (k : BitVec 3) (z : Bool) (wd ws1 ws2 : BitVec 5) (s : State) : Outcome :=
  .next (wideWiden t 0 et (widenInt et) false k z wd ws1 ws2
    (fun _ a b _ => (patternOf (2 * et.width) (signedOf et.width a * signedOf et.width b), {})) s)

/-- MULWH: signed product, exact (Table 7-11). -/
def execMulwh (t : Fin 512) (et : ElemType) (k : BitVec 3) (z : Bool) (wd ws1 ws2 : BitVec 5) (s : State) : Outcome :=
  .next (wideWiden t 1 et (widenInt et) true k z wd ws1 ws2
    (fun _ a b _ => (patternOf (2 * et.width) (signedOf et.width a * signedOf et.width b), {})) s)

/-- MULWLU: unsigned product, exact (Table 7-11). -/
def execMulwlu (t : Fin 512) (et : ElemType) (k : BitVec 3) (z : Bool) (wd ws1 ws2 : BitVec 5) (s : State) : Outcome :=
  .next (wideWiden t 2 et (widenInt et) false k z wd ws1 ws2 (fun _ a b _ => (a * b, {})) s)

/-- MULWHU: unsigned product, exact (Table 7-11). -/
def execMulwhu (t : Fin 512) (et : ElemType) (k : BitVec 3) (z : Bool) (wd ws1 ws2 : BitVec 5) (s : State) : Outcome :=
  .next (wideWiden t 3 et (widenInt et) true k z wd ws1 ws2 (fun _ a b _ => (a * b, {})) s)

/-- FMULWL: float product rounded once by RM (Table 7-11). -/
def execFmulwl (t : Fin 512) (et : ElemType) (k : BitVec 3) (z : Bool) (wd ws1 ws2 : BitVec 5) (s : State) : Outcome :=
  .next (wideWiden t 4 et (widenFloat et) false k z wd ws1 ws2 (fun r a b _ => fpMulWide et r a b) s)

/-- FMULWH: float product rounded once by RM (Table 7-11). -/
def execFmulwh (t : Fin 512) (et : ElemType) (k : BitVec 3) (z : Bool) (wd ws1 ws2 : BitVec 5) (s : State) : Outcome :=
  .next (wideWiden t 5 et (widenFloat et) true k z wd ws1 ws2 (fun r a b _ => fpMulWide et r a b) s)

/-- FMAWL: wd = a*b + wd at double width, rounded once (Table 7-11). -/
def execFmawl (t : Fin 512) (et : ElemType) (k : BitVec 3) (z : Bool) (wd ws1 ws2 : BitVec 5) (s : State) : Outcome :=
  .next (wideWiden t 6 et (widenFloat et) false k z wd ws1 ws2
    (fun r a b c => fpFma et.fmt (widenFmt et) r false false a b c) s)

/-- FMAWH: wd = a*b + wd at double width, rounded once (Table 7-11). -/
def execFmawh (t : Fin 512) (et : ElemType) (k : BitVec 3) (z : Bool) (wd ws1 ws2 : BitVec 5) (s : State) : Outcome :=
  .next (wideWiden t 7 et (widenFloat et) true k z wd ws1 ws2
    (fun r a b c => fpFma et.fmt (widenFmt et) r false false a b c) s)

/-- An integer dot product: lane j of `wout` bits adds `n` products of `win`-bit elements, wrapping; ET must be 0 (Table 7-11,
R140). -/
def wideDot (t : Fin 512) (fn : Nat) (et : ElemType) (k : BitVec 3) (z : Bool) (wd ws1 ws2 : BitVec 5) (win wout n : Nat)
    (sa sb : Bool) (s : State) : State :=
  wideExec t (encW 0x39 wd ws1 ws2 k z et fn) noField (et = .i8) (fun th => th.wideWrite wout (512 / wout) k z wd fun j =>
    let val := fun (sg : Bool) (v : Nat) => if sg then signedOf win v else (v : Int)
    let sum := (upTo n).foldl (fun (acc : Int) i =>
      acc + val sa (wideElem (th.getW ws1) win (n * j + i)) * val sb (wideElem (th.getW ws2) win (n * j + i))) 0
    (patternOf wout (wideElem (th.getW wd) wout j + sum), {})) s

/-- DOT4 (Table 7-11, R140). -/
def execDot4 (t : Fin 512) (et : ElemType) (k : BitVec 3) (z : Bool) (wd ws1 ws2 : BitVec 5) (s : State) : Outcome :=
  .next (wideDot t 0 et k z wd ws1 ws2 8 32 4 true true s)

/-- DOT4U (Table 7-11, R140). -/
def execDot4u (t : Fin 512) (et : ElemType) (k : BitVec 3) (z : Bool) (wd ws1 ws2 : BitVec 5) (s : State) : Outcome :=
  .next (wideDot t 1 et k z wd ws1 ws2 8 32 4 false false s)

/-- DOT4SU (Table 7-11, R140). -/
def execDot4su (t : Fin 512) (et : ElemType) (k : BitVec 3) (z : Bool) (wd ws1 ws2 : BitVec 5) (s : State) : Outcome :=
  .next (wideDot t 2 et k z wd ws1 ws2 8 32 4 true false s)

/-- DOT2 (Table 7-11, R140). -/
def execDot2 (t : Fin 512) (et : ElemType) (k : BitVec 3) (z : Bool) (wd ws1 ws2 : BitVec 5) (s : State) : Outcome :=
  .next (wideDot t 3 et k z wd ws1 ws2 16 32 2 true true s)

/-- DOT8 (Table 7-11, R140). -/
def execDot8 (t : Fin 512) (et : ElemType) (k : BitVec 3) (z : Bool) (wd ws1 ws2 : BitVec 5) (s : State) : Outcome :=
  .next (wideDot t 4 et k z wd ws1 ws2 8 64 8 true true s)

/-- DOT4W (Table 7-11, R140). -/
def execDot4w (t : Fin 512) (et : ElemType) (k : BitVec 3) (z : Bool) (wd ws1 ws2 : BitVec 5) (s : State) : Outcome :=
  .next (wideDot t 5 et k z wd ws1 ws2 16 64 4 true true s)

/-- A float dot product of pairs: exact products, exact sum with the lane's old value, one rounding by RM; ET must be 0
(Table 7-11, R140). -/
def wideFdot (t : Fin 512) (fn : Nat) (et : ElemType) (k : BitVec 3) (z : Bool) (wd ws1 ws2 : BitVec 5) (fin fout : Fmt) (s : State) :
    State :=
  wideExec t (encW 0x39 wd ws1 ws2 k z et fn) noField (et = .i8) (fun th => th.wideWrite fout.bits (512 / fout.bits) k z wd fun j =>
    let a := fun i => wideElem (th.getW ws1) fin.bits (2 * j + i)
    let b := fun i => wideElem (th.getW ws2) fin.bits (2 * j + i)
    let c := wideElem (th.getW wd) fout.bits j
    let va := fun i => decodeFmt fin (a i)
    let vb := fun i => decodeFmt fin (b i)
    let vc := decodeFmt fout c
    let p := fun i => FVal.mul (va i) (vb i)
    let v := FVal.add th.rm (FVal.add th.rm (p 0) (p 1)) vc
    let badProd := fun i => (p i).isNan && !(va i).isNan && !(vb i).isNan
    let badSum := fun (x y : FVal) => (FVal.add th.rm x y).isNan && !x.isNan && !y.isNan
    fpResult fout th.rm v
      (isSignalling fin (a 0) || isSignalling fin (a 1) || isSignalling fin (b 0) || isSignalling fin (b 1) ||
        isSignalling fout c)
      (badProd 0 || badProd 1 || badSum (p 0) (p 1) || badSum (p 0) vc || badSum (p 1) vc) false) s

/-- FDOT2H (Table 7-11, R140). -/
def execFdot2h (t : Fin 512) (et : ElemType) (k : BitVec 3) (z : Bool) (wd ws1 ws2 : BitVec 5) (s : State) : Outcome :=
  .next (wideFdot t 6 et k z wd ws1 ws2 .fp16 .fp32 s)

/-- FDOT2B (Table 7-11, R140). -/
def execFdot2b (t : Fin 512) (et : ElemType) (k : BitVec 3) (z : Bool) (wd ws1 ws2 : BitVec 5) (s : State) : Outcome :=
  .next (wideFdot t 7 et k z wd ws1 ws2 .bf16 .fp32 s)

/-- FDOT2S (Table 7-11, R140). -/
def execFdot2s (t : Fin 512) (et : ElemType) (k : BitVec 3) (z : Bool) (wd ws1 ws2 : BitVec 5) (s : State) : Outcome :=
  .next (wideFdot t 8 et k z wd ws1 ws2 .fp32 .fp64 s)

/-- WCVT between two scalar formats: the narrower side packed in part PART of its register (R141). -/
def wideConvert (t : Fin 512) (w : Nat) (src dst : Fmt) (part : Nat) (k : BitVec 3) (z : Bool) (wd ws1 : BitVec 5) (s : State) : State :=
  let n := 512 / max src.bits dst.bits
  let narrow := min src.bits dst.bits
  wideExec t w noField (decide (part < 512 / (n * narrow))) (fun th =>
    let soff := if src.bits < dst.bits then part * n * narrow else 0
    let doff := if dst.bits < src.bits then part * n * narrow else 0
    let inp := fun i => bitsOf (th.getW ws1).toNat (soff + src.bits * i + src.bits - 1) (soff + src.bits * i)
    let old := fun i => bitsOf (th.getW wd).toNat (doff + dst.bits * i + dst.bits - 1) (doff + dst.bits * i)
    let es := (upTo n).map fun i =>
      if th.active k i then (if src = dst then (inp i, {}) else coreConvert src dst (inp i))
      else (if z then 0 else old i, {})
    let word := (es.map (·.1)).foldr (fun e acc => e % 2 ^ dst.bits + acc * 2 ^ dst.bits) 0
    let whole :=
      if dst.bits < src.bits then withBits (th.getW wd).toNat (doff + n * dst.bits - 1) doff word
      else withBits 0 (n * dst.bits - 1) 0 word
    (th.setW wd (BitVec.ofNat 512 whole)).raiseFlags (es.foldl (fun a e => a.or e.2) {})) s

/-- WCVT: SRC and DST are the codes 0x00 to 0x0D (R141). -/
def execWcvt (t : Fin 512) (src dst part : BitVec 4) (k : BitVec 3) (z : Bool) (wd ws1 : BitVec 5) (s : State) : Outcome :=
  let w := encWc wd ws1 src dst part k z
  match Fmt.ofCode src.toNat, Fmt.ofCode dst.toNat with
  | some a, some b =>
    if a.isScalar && b.isScalar then .next (wideConvert t w a b part.toNat k z wd ws1 s)
    else .next (badEncoding t w noField s)
  | _, _ => .next (badEncoding t w noField s)

/-- The 8-byte words of a line that a mask register selects; K = 0 selects all (R142). -/
def Thread.lineMask (th : Thread) (k : BitVec 3) : Nat := if k = 0 then 255 else (th.getK k.toNat).toNat % 256

/-- The address of WLD and WST: rs1 + sext(offset13) * 64. -/
def Thread.lineAddr (th : Thread) (rs1 : BitVec 5) (off : BitVec 13) : Word := th.getX rs1 + (off.signExtend 64 <<< 6)

/-- WLD (R142). -/
def execWld (t : Fin 512) (k : BitVec 3) (wd rs1 : BitVec 5) (off : BitVec 13) (s : State) : Outcome :=
  .next (coreMem t (encWm 0x3B wd rs1 off k) noField (fun th => .wld wd (th.lineMask k) (th.lineAddr rs1 off)) s)

/-- WST (R142). -/
def execWst (t : Fin 512) (k : BitVec 3) (ws rs1 : BitVec 5) (off : BitVec 13) (s : State) : Outcome :=
  .next (coreMem t (encWm 0x3C ws rs1 off k) noField (fun th => .wst (th.lineMask k) (th.lineAddr rs1 off) (th.getW ws).toNat) s)

/-- The address of element i of a gather or scatter: x[ws1] + (sext(element i of ws2) << SCALE) (R143). -/
def Thread.elemAddr (th : Thread) (et : ElemType) (scale : BitVec 2) (rs1 ws2 : BitVec 5) (i : Nat) : Word :=
  th.getX rs1 + (sextNat et.width (wideElem (th.getW ws2) et.width i) <<< scale.toNat)

/-- ET 2, 3, 6 or 7 (R143). -/
def gatherType (et : ElemType) : Bool := decide (32 ≤ et.width)

/-- The active elements in ascending order. -/
def Thread.activeElems (th : Thread) (et : ElemType) (k : BitVec 3) : List Nat := (upTo et.count).filter fun i => th.active k i

/-- An element of a type other than ET 2, 3, 6 and 7 cannot be moved (R143). -/
def wideMove (t : Fin 512) (w : Nat) (et : ElemType) (op : Thread → CoreOp) (s : State) : State :=
  if gatherType et then coreMem t w noField op s else badEncoding t w noField s

/-- WGS with Z = 0: active element i of wd is loaded, in ascending i (R143). -/
def execWgsGather (t : Fin 512) (et : ElemType) (k : BitVec 3) (scale : BitVec 2) (wd rs1 ws2 : BitVec 5) (s : State) : Outcome :=
  .next (wideMove t (encW 0x3D wd rs1 ws2 k false et scale.toNat) et (fun th =>
    .gather (et.width / 8) wd ((th.activeElems et k).map fun i => (i, th.elemAddr et scale rs1 ws2 i))) s)

/-- WGS with Z = 1: active element i of wd is stored, in ascending i (R143). -/
def execWgsScatter (t : Fin 512) (et : ElemType) (k : BitVec 3) (scale : BitVec 2) (wd rs1 ws2 : BitVec 5) (s : State) : Outcome :=
  .next (wideMove t (encW 0x3D wd rs1 ws2 k true et scale.toNat) et (fun th =>
    .scatter (et.width / 8) ((th.activeElems et k).map fun i =>
      (th.elemAddr et scale rs1 ws2 i, wideElem (th.getW wd) et.width i))) s)

/-- WPHILOX: Philox-4x32-10 on four lanes; ET = 2 and Z = 0 (R144). -/
def execWphilox (t : Fin 512) (et : ElemType) (k : BitVec 3) (z : Bool) (wd ws1 ws2 : BitVec 5) (s : State) : Outcome :=
  .next (wideExec t (encW 0x3E wd ws1 ws2 k z et 0) noField (et = .i32 && !z) (fun th =>
    let lane := fun (v : Wide) l => bitsOf v.toNat (128 * l + 127) (128 * l)
    let res := fun l => philox (lane (th.getW ws1) l) (lane (th.getW ws2) l % 2 ^ 64)
    th.wideWrite 32 16 k false wd fun i => (res (i / 4) / 2 ^ (32 * (i % 4)) % 2 ^ 32, {})) s)

end Sys2Proof.Machine
end

