-- ==== Sys2Proof/Machine/Vector.lean ====
section
/-!
DEFINITION. Vector engines: storage, the sequence of a stream, halves and their fill order, and the instructions of Table 5-6
(R81 to R94).
-/

namespace Sys2Proof.Machine

/-- Replace a vector engine; VEC_STAT shows its segment, mode and wait, and the unit that its next instruction occupies (Table
5-9, R86; log entry 87). -/
def State.setVec (s : State) (v : Nat) (x : Vec) : State :=
  let op := ((s.vecStreamOf v x.seg).bind fun st => st.instrs[x.pc]?).elim 0 (·.opcode)
  let busy := (decide (op = 1) || decide (op = 2)).toNat * 64 + (decide (6 ≤ op) && x.takeWait.isNone).toNat * 32
  let stat := (match x.seg with | some g => g % 256 | none => 0xFF) * 2 ^ 16 + x.modeB.toNat * 128 + busy +
    x.takeWait.isSome.toNat * 16
  ({ s with vecs := SMap.set {} s.vecs v x }).wr rVecStat stat v

/-! ### Sequence (R88) -/

/-- The position after the present instruction: the next one, or the head of the loop body again. -/
def Vec.advance (x : Vec) : Vec :=
  match x.loop with
  | some l =>
    if x.pc + 1 = l.first + l.len then
      if l.iter + 1 < l.count then { x with pc := l.first, loop := some { l with iter := l.iter + 1 } }
      else { x with pc := x.pc + 1, loop := none }
    else { x with pc := x.pc + 1 }
  | none => { x with pc := x.pc + 1 }

/-- The iteration of the loop in progress, 0 outside a loop. -/
def Vec.iteration (x : Vec) : Nat :=
  match x.loop with
  | some l => l.iter
  | none => 0

/-- The instruction completes: the position moves on and VEC_INSTR_DONE counts it. -/
def State.vecDone (s : State) (v : Nat) : State := (s.setVec v (s.vec v).advance).bump rVecInstrDone 1 v

/-- The state codes of a half. -/
abbrev hEmpty : Nat := 0
abbrev hFull : Nat := 2
abbrev hTaken : Nat := 3

/-- A TAKE that finds its half FULL, or whose wait ends: the half is TAKEN and the stream goes on (R90). -/
def State.takeHalf (s : State) (v h : Nat) : State :=
  let x := s.vec v
  (s.setVec v { x with halves := SMap.set 0 x.halves h hTaken, takeWait := none }).vecDone v

/-- Deliver a 64 x 128 half: `M` rows of `N` columns at the top-left, 0 elsewhere; the half is FULL, and a TAKE that waits
for it completes (R90). -/
def State.deliverHalf (s : State) (v h : Nat) (rows : List (List Nat)) : State :=
  let x := s.vec v
  let base := (h / 2 * 128 + h % 2 * 64) * 128
  let bufs := (upTo 64).foldl (fun m i => (upTo 128).foldl (fun m j =>
    SMap.set 0 m (base + 128 * i + j) ((rows.getD i []).getD j 0)) m) x.bufs
  let s1 := s.setVec v { x with bufs := bufs, halves := SMap.set 0 x.halves h hFull }
  if x.takeWait = some h then s1.takeHalf v h else s1

/-! ### Storage (Tables 5-1 and 5-4) -/

/-- What an operand byte covers: a register or broadcast vector, or rows of a tile buffer. -/
inductive VecRegion where
  /-- the first 4-byte word in the register file, and the number of words -/
  | file (first words : Nat)
  | rows (buf first count : Nat)
  | none
  deriving DecidableEq, Repr

/-- The region of an operand byte. -/
def vecRegion (modeB : Bool) (op : Nat) : VecRegion :=
  if op / 32 = 0 then (if modeB then .file (op % 16 * 128) 128 else .file (op % 32 * 256) 256)
  else if op / 32 = 1 then .rows (op % 4) 0 128
  else if op / 32 = 2 then .rows (op % 4) 0 64
  else if op / 32 = 3 then .rows (op % 4) 64 64
  else .none

/-- The format of TYPE (Table 5-3). -/
def vecFmt (ty : Nat) : Fmt := if ty = 0 then .fp32 else if ty = 1 then .int32 else .fp64

/-- The elements of a region under a TYPE. -/
def Vec.readRegion (x : Vec) (ty : Nat) : VecRegion → List Nat
  | .file first words =>
    if ty = 2 then (upTo (words / 2)).map fun i => SMap.get 0 x.file (first + 2 * i) + SMap.get 0 x.file (first + 2 * i + 1) * 2 ^ 32
    else (upTo words).map fun i => SMap.get 0 x.file (first + i)
  | .rows buf first count => (upTo (count * 128)).map fun i => SMap.get 0 x.bufs ((buf * 128 + first) * 128 + i)
  | .none => []

/-- Write 4-byte words into a table from a key. -/
def setWords (m : SMap Nat) (k : Nat) : List Nat → SMap Nat
  | [] => m
  | w :: ws => setWords (SMap.set 0 m k (w % 2 ^ 32)) (k + 1) ws

/-- Write the elements of a region under a TYPE. -/
def Vec.writeRegion (x : Vec) (ty : Nat) (r : VecRegion) (vs : List Nat) : Vec :=
  match r with
  | .file first _ =>
    { x with file := setWords x.file first (if ty = 2 then vs.flatMap fun v => [v % 2 ^ 32, v / 2 ^ 32] else vs) }
  | .rows buf first _ => { x with bufs := setWords x.bufs ((buf * 128 + first) * 128) vs }
  | .none => x

/-- The number of elements of a region under a TYPE. -/
def VecRegion.length (ty : Nat) : VecRegion → Nat
  | .file _ words => if ty = 2 then words / 2 else words
  | .rows _ _ count => count * 128
  | .none => 0

/-- A source operand in the shape of a destination region: a region of its own, a row or column broadcast, or an immediate
(Table 5-4, R85). A broadcast vector as the destination counts as row 0 (log entry 87). -/
def Vec.source (x : Vec) (ty op imm : Nat) (dst : VecRegion) : List Nat :=
  let n := dst.length ty
  let row0 := match dst with
    | .rows _ first _ => first
    | .file _ _ | .none => 0
  if op / 32 = 4 then (upTo n).map fun i => SMap.get 0 x.file (op % 16 * 128 + i % 128)
  else if op / 32 = 5 then (upTo n).map fun i => SMap.get 0 x.file (op % 16 * 128 + row0 + i / 128)
  else if op / 32 = 6 then (upTo n).map fun _ => if ty = 2 then imm else imm % 2 ^ 32
  else if op / 32 = 7 then (upTo n).map fun _ => 0
  else x.readRegion ty (vecRegion x.modeB op)

/-! ### Element operations (Table 5-6, R87) -/

/-- A floating result: its pattern, and whether a NaN arose of operands that are none. -/
def vecFloat (f : Fmt) (v : FVal) (ops : List FVal) : Nat × Bool :=
  ((encodeIeee f .rne v).1, v.isNan && ops.all fun o => !o.isNan)

/-- One element of an element-wise operation. MOV, SEL and the bitwise operations move bits, those of a NaN too (log entry 20). -/
def vecElem (opcode ty a b c : Nat) : Nat × Bool :=
  let f := vecFmt ty
  let w := f.bits
  let ones := 2 ^ w - 1
  let va := decodeFmt f a
  let vb := decodeFmt f b
  let vc := decodeFmt f c
  let ia := signedOf 32 a
  let ib := signedOf 32 b
  let ic := signedOf 32 c
  let int := fun (i : Int) => (patternOf 32 i, false)
  let isInt := decide (ty = 1)
  if opcode = 0x06 then (a, false)
  else if opcode = 0x10 then (if isInt then int (ia + ib) else vecFloat f (FVal.add .rne va vb) [va, vb])
  else if opcode = 0x11 then (if isInt then int (ia - ib) else vecFloat f (FVal.add .rne va vb.neg) [va, vb])
  else if opcode = 0x12 then (if isInt then int (ia * ib) else vecFloat f (FVal.mul va vb) [va, vb])
  else if opcode = 0x13 then vecFloat f (FVal.add .rne (FVal.mul va vb) vc) [va, vb, vc]
  else if opcode = 0x14 then (if isInt then int (min ia ib) else vecFloat f (FVal.min va vb) [va, vb])
  else if opcode = 0x15 then (if isInt then int (max ia ib) else vecFloat f (FVal.max va vb) [va, vb])
  else if opcode = 0x16 then (if isInt then int (ia.natAbs : Int) else vecFloat f va.abs [va])
  else if opcode = 0x17 then (if isInt then int (-ia) else vecFloat f va.neg [va])
  else if opcode = 0x18 then
    (if isInt then int (max ia 0)
     else vecFloat f (if va.isNan then .nan else if FVal.lt (.fin false 0 0) va then va else .fin false 0 0) [va])
  else if opcode = 0x19 then
    (if isInt then int (min (max ia ib) ic) else vecFloat f (FVal.min (FVal.max va vb) vc) [va, vb, vc])
  else if opcode = 0x1A then (if (if isInt then decide (ia < ib) else FVal.lt va vb) then ones else 0, false)
  else if opcode = 0x1B then (if (if isInt then decide (ia = ib) else FVal.eq va vb) then ones else 0, false)
  else if opcode = 0x1C then (if c % 2 ^ w ≠ 0 then a else b, false)
  else if opcode = 0x1D then (a &&& b, false)
  else if opcode = 0x1E then (a ||| b, false)
  else if opcode = 0x1F then (a ^^^ b, false)
  else if opcode = 0x20 then (a <<< (b % 32) % 2 ^ 32, false)
  else if opcode = 0x21 then int (ia / (2 ^ (b % 32) : Nat))
  else if opcode = 0x28 then vecFloat f (FVal.div va vb) [va, vb]
  else if opcode = 0x29 then vecFloat f va.sqrt [va]
  else if opcode = 0x2A then vecFloat f va.exp2 [va]
  else vecFloat f va.log2v [va]

/-- The operation of a reduction: RSUM, RMAX or RMIN (R89). -/
def vecReduceOp (opcode ty a b : Nat) : Nat × Flags :=
  let r := vecElem (if opcode = 0x30 then 0x10 else if opcode = 0x31 then 0x15 else 0x14) ty a b 0
  (r.1, { nv := r.2 })

/-- The tree of R89 with the count of NaNs that its operations produced. -/
def vecTree (opcode ty : Nat) : Nat → List Nat → Nat × Nat
  | 0, l => (l.headD 0, 0)
  | n + 1, l =>
    let made := ((upTo (l.length / 2)).filter fun i =>
      (vecReduceOp opcode ty (l.getD (2 * i) 0) (l.getD (2 * i + 1) 0)).2.nv).length
    let r := vecTree opcode ty n (treeLevel (vecReduceOp opcode ty) l).1
    (r.1, r.2 + made)

/-! ### Instructions -/

/-- The arithmetic-busy cycles of an instruction (Table 5-6): one register or half is the unit; what it takes on a broadcast
vector in mode B no table says, and is free (log entry 87). -/
def State.vecBusy (s : State) (v : Nat) (i : VecInstr) (r : VecRegion) : State :=
  let slow := decide (0x28 ≤ i.opcode) && decide (i.opcode ≤ 0x2B)
  match r, (s.vec v).modeB with
  | .rows _ _ count, _ => s.bump64 rVecBusyCyc ((if slow then 256 else 32) * (count / 64)) v
  | .file _ _, false => s.bump64 rVecBusyCyc (if slow then 8 else 1) v
  | _, _ => s.bumpFree rVecBusyCyc 50 v

/-- The next instruction of an engine that is running and not waiting, where it has the given opcode (R81, log entry 12). -/
def State.vecNext (s : State) (v opcode : Nat) : Option VecInstr :=
  if (s.vec v).takeWait.isSome || !s.domainsRun [9 + v / 4] then none
  else
    match (s.vecStream v).bind fun st => st.instrs[(s.vec v).pc]? with
    | some i => if i.opcode = opcode then some i else none
    | none => none

/-- An element-wise instruction (R85, R87). -/
def vecElementwise (v : Fin 16) (opcode : Nat) (s : State) : State :=
  match s.vecNext v.val opcode with
  | none => s
  | some i =>
    let x := s.vec v.val
    let dst := vecRegion x.modeB i.dst
    let a := x.source i.ty i.src1 i.imm dst
    let b := x.source i.ty i.src2 i.imm dst
    let c := x.source i.ty i.src3 i.imm dst
    let rs := (upTo (dst.length i.ty)).map fun k => vecElem i.opcode i.ty (a.getD k 0) (b.getD k 0) (c.getD k 0)
    let s1 := s.setVec v.val (x.writeRegion i.ty dst (rs.map (·.1)))
    ((s1.bump rVecInvalid (rs.filter (·.2)).length v.val).vecBusy v.val i dst).vecDone v.val

/-- A reduction (R89). In mode B its source is rows of a tile buffer; one of a broadcast vector, of which the rule says nothing,
leaves DST as it is (log entry 87). -/
def vecReduction (v : Fin 16) (opcode : Nat) (s : State) : State :=
  match s.vecNext v.val opcode with
  | none => s
  | some i =>
    let x := s.vec v.val
    let dst := vecRegion x.modeB i.dst
    if x.modeB then
      match vecRegion true i.src1 with
      | .rows buf first count =>
        let cell := fun r c => SMap.get 0 x.bufs ((buf * 128 + first + r) * 128 + c)
        let old := x.readRegion i.ty dst
        let rs :=
          if i.imm % 2 = 0 then (upTo count).map fun r => vecTree opcode i.ty 7 ((upTo 128).map (cell r))
          else (upTo 128).map fun c => vecTree opcode i.ty count.log2 ((upTo count).map fun r => cell r c)
        let at0 := if i.imm % 2 = 0 then first else 0
        let new := (upTo 128).map fun k => if at0 ≤ k ∧ k < at0 + rs.length then (rs.getD (k - at0) (0, 0)).1 else old.getD k 0
        let s1 := s.setVec v.val (x.writeRegion i.ty dst new)
        ((s1.bump rVecInvalid (rs.foldl (fun n r => n + r.2) 0) v.val).vecBusy v.val i (.rows buf first count)).vecDone v.val
      | .file _ _ | .none => s.vecDone v.val
    else
      let src := x.readRegion i.ty (vecRegion false i.src1)
      let r := vecTree opcode i.ty src.length.log2 src
      let s1 := s.setVec v.val (x.writeRegion i.ty dst (r.1 :: (upTo (src.length - 1)).map fun _ => 0))
      ((s1.bump rVecInvalid r.2 v.val).vecBusy v.val i dst).vecDone v.val

/-- START of a descriptor in the present iteration (R88). -/
def VecDesc.startAt (d : VecDesc) (iter : Nat) : Idx :=
  d.start.set d.advDim (((d.start.getD d.advDim 0 : Nat) : Int) + d.adv * iter).toNat

/-- The index of storage element (row, column) of an access (Table 5-5, ORIENT). -/
def VecDesc.index (d : VecDesc) (iter i j : Nat) : Idx :=
  let st := d.startAt iter
  if d.orient then idxAdd (idxAdd st 0 i) 1 j else idxAdd (idxAdd st 0 j) 1 i

/-- VLD: ROWS x COLS elements into the top-left of the destination and 0 bits into the rest of it (R92). -/
def execVld (v : Fin 16) (s : State) : Outcome :=
  match s.vecNext v.val 0x01 with
  | none => .next s
  | some i =>
    match s.field i.desc.field with
    | none => .next (s.vecDone v.val)
    | some f =>
      if !s.memRuns f then .next s else
      let x := s.vec v.val
      let iter := x.iteration
      let dst := vecRegion x.modeB i.dst
      let width := match dst with
        | .rows _ _ _ => 128
        | .file _ _ | .none => dst.length i.ty
      let vals := (upTo (dst.length i.ty)).map fun k =>
        let r := k / width
        let c := k % width
        if r < i.desc.rows ∧ c < i.desc.cols then s.elemRaw f (i.desc.index iter r c) else 0
      let s1 := s.noteIdx f ((upTo i.desc.rows).flatMap fun r => (upTo i.desc.cols).map (i.desc.index iter r))
      .next ((s1.setVec v.val (x.writeRegion i.ty dst vals)).vecDone v.val)

/-- VST: ROWS x COLS elements of SRC1 through the result stage into the field's format (R93). -/
def execVst (v : Fin 16) (s : State) : Outcome :=
  match s.vecNext v.val 0x02 with
  | none => .next s
  | some i =>
    match s.field i.desc.field with
    | none => .next (s.vecDone v.val)
    | some f =>
      if !s.memRuns f then .next s else
      let x := s.vec v.val
      let src := vecRegion x.modeB i.src1
      let width := match src with
        | .rows _ _ _ => 128
        | .file _ _ | .none => src.length i.ty
      let vals := x.readRegion i.ty src
      let rows := (upTo i.desc.rows).map fun r => (vals.drop (r * width)).take i.desc.cols
      let (s1, c) := s.resultStage f (vecFmt i.ty) (i.desc.startAt x.iteration) i.desc.orient rows
      .next ((s1.countVec v.val i.desc.field c).vecDone v.val)

/-- TAKE: wait until the half is FULL, then mark it TAKEN (R90). -/
def execTake (v : Fin 16) (s : State) : Outcome :=
  match s.vecNext v.val 0x03 with
  | none => .next s
  | some i =>
    match halfOf i.src1 with
    | none => .next (s.vecDone v.val)
    | some h =>
      if SMap.get 0 (s.vec v.val).halves h = hFull then .next (s.takeHalf v.val h)
      else .next (s.setVec v.val { s.vec v.val with takeWait := some h })

/-- REL: the half is EMPTY and its fill order advances (R90). -/
def execRel (v : Fin 16) (s : State) : Outcome :=
  match s.vecNext v.val 0x04 with
  | none => .next s
  | some i =>
    match halfOf i.src1 with
    | none => .next (s.vecDone v.val)
    | some h =>
      let x := s.vec v.val
      .next ((s.setVec v.val { x with
        halves := SMap.set 0 x.halves h hEmpty
        rels := SMap.set 0 x.rels h (SMap.get 0 x.rels h + 1) }).vecDone v.val)

/-- LOOP: the next IMM[39:32] instructions run IMM[31:0] times (R88). -/
def execLoop (v : Fin 16) (s : State) : Outcome :=
  match s.vecNext v.val 0x05 with
  | none => .next s
  | some i =>
    let s1 := s.vecDone v.val
    let x := s1.vec v.val
    .next (s1.setVec v.val { x with loop := some ⟨x.pc, bitsOf i.imm 39 32, i.imm % 2 ^ 32, 0⟩ })

/-- VEC_MOV: a (Table 5-6, 0x06). -/
def execVecMov (v : Fin 16) (s : State) : Outcome := .next (vecElementwise v 0x06 s)

/-- VEC_ADD: a + b (Table 5-6, 0x10). -/
def execVecAdd (v : Fin 16) (s : State) : Outcome := .next (vecElementwise v 0x10 s)

/-- VEC_SUB: a - b (Table 5-6, 0x11). -/
def execVecSub (v : Fin 16) (s : State) : Outcome := .next (vecElementwise v 0x11 s)

/-- VEC_MUL: a * b (Table 5-6, 0x12). -/
def execVecMul (v : Fin 16) (s : State) : Outcome := .next (vecElementwise v 0x12 s)

/-- VEC_FMA: a * b + c, rounded once (Table 5-6, 0x13). -/
def execVecFma (v : Fin 16) (s : State) : Outcome := .next (vecElementwise v 0x13 s)

/-- VEC_MIN: the smaller (Table 5-6, 0x14). -/
def execVecMin (v : Fin 16) (s : State) : Outcome := .next (vecElementwise v 0x14 s)

/-- VEC_MAX: the larger (Table 5-6, 0x15). -/
def execVecMax (v : Fin 16) (s : State) : Outcome := .next (vecElementwise v 0x15 s)

/-- VEC_ABS: |a| (Table 5-6, 0x16). -/
def execVecAbs (v : Fin 16) (s : State) : Outcome := .next (vecElementwise v 0x16 s)

/-- VEC_NEG: -a (Table 5-6, 0x17). -/
def execVecNeg (v : Fin 16) (s : State) : Outcome := .next (vecElementwise v 0x17 s)

/-- RELU: a where a > 0, else +0 (Table 5-6, 0x18). -/
def execRelu (v : Fin 16) (s : State) : Outcome := .next (vecElementwise v 0x18 s)

/-- VEC_CLAMP: MIN(MAX(a, b), c) (Table 5-6, 0x19). -/
def execVecClamp (v : Fin 16) (s : State) : Outcome := .next (vecElementwise v 0x19 s)

/-- VEC_CMPLT: all ones where a < b (Table 5-6, 0x1A). -/
def execVecCmplt (v : Fin 16) (s : State) : Outcome := .next (vecElementwise v 0x1A s)

/-- VEC_CMPEQ: all ones where a = b (Table 5-6, 0x1B). -/
def execVecCmpeq (v : Fin 16) (s : State) : Outcome := .next (vecElementwise v 0x1B s)

/-- SEL: a where the bits of c are not zero, else b (Table 5-6, 0x1C). -/
def execSel (v : Fin 16) (s : State) : Outcome := .next (vecElementwise v 0x1C s)

/-- VEC_AND: bitwise (Table 5-6, 0x1D). -/
def execVecAnd (v : Fin 16) (s : State) : Outcome := .next (vecElementwise v 0x1D s)

/-- VEC_OR: bitwise (Table 5-6, 0x1E). -/
def execVecOr (v : Fin 16) (s : State) : Outcome := .next (vecElementwise v 0x1E s)

/-- VEC_XOR: bitwise (Table 5-6, 0x1F). -/
def execVecXor (v : Fin 16) (s : State) : Outcome := .next (vecElementwise v 0x1F s)

/-- VEC_SHL: a shifted left by b mod 32 (Table 5-6, 0x20). -/
def execVecShl (v : Fin 16) (s : State) : Outcome := .next (vecElementwise v 0x20 s)

/-- VEC_SHRA: a shifted right arithmetically by b mod 32 (Table 5-6, 0x21). -/
def execVecShra (v : Fin 16) (s : State) : Outcome := .next (vecElementwise v 0x21 s)

/-- VEC_DIV: a / b (Table 5-6, 0x28). -/
def execVecDiv (v : Fin 16) (s : State) : Outcome := .next (vecElementwise v 0x28 s)

/-- VEC_SQRT: the square root (Table 5-6, 0x29). -/
def execVecSqrt (v : Fin 16) (s : State) : Outcome := .next (vecElementwise v 0x29 s)

/-- EXP2: 2^a (Table 5-6, 0x2A). -/
def execExp2 (v : Fin 16) (s : State) : Outcome := .next (vecElementwise v 0x2A s)

/-- LOG2: log2 a (Table 5-6, 0x2B). -/
def execLog2 (v : Fin 16) (s : State) : Outcome := .next (vecElementwise v 0x2B s)

/-- RSUM: the sum in the fixed tree (R89). -/
def execRsum (v : Fin 16) (s : State) : Outcome := .next (vecReduction v 0x30 s)

/-- RMAX: the maximum in the fixed tree (R89). -/
def execRmax (v : Fin 16) (s : State) : Outcome := .next (vecReduction v 0x31 s)

/-- RMIN: the minimum in the fixed tree (R89). -/
def execRmin (v : Fin 16) (s : State) : Outcome := .next (vecReduction v 0x32 s)

end Sys2Proof.Machine
end

