-- ==== Sys2Proof/Machine/TileOps.lean ====
section
/-!
DEFINITION. Tensor tiles: operands, slots, banks, the long-accumulator store, and the commands of Table 4-5 (R56 to R80).
-/

namespace Sys2Proof.Machine

/-- A tile. -/
def State.tile (s : State) (t : Nat) : Tile := SMap.get {} s.tiles t

/-- The stream that a tile in a segment runs (R60). -/
def State.streamOf (s : State) (t : Nat) (seg : Option Nat) : Option TileStream :=
  match s.job, seg with
  | some j, some g => (j.segs[g]?).bind fun sg => sg.tile.find? fun x => x.tile = t
  | _, _ => none

/-- The stream that a tile runs. -/
def State.tileStream (s : State) (t : Nat) : Option TileStream := s.streamOf t (s.tile t).seg

/-- Replace a tile; TILE_STAT shows its segment, a FEED stream, and the units that its next command and a waiting DRAIN occupy
(Table 4-15, R59; log entry 86). -/
def State.setTile (s : State) (t : Nat) (x : Tile) : State :=
  let op := ((s.streamOf t x.seg).bind fun st => st.cmds[x.pos]?).elim 0 (·.opcode)
  let busy := (decide (op = 1) || decide (op = 5)).toNat * 16 + (decide (op = 2) || decide (op = 3)).toNat * 32 +
    (x.waiting.isSome || decide (op = 4) || decide (op = 5)).toNat * 64
  let stat := (match x.seg with | some g => g % 256 | none => 0xFF) * 2 ^ 16 + x.feed.toNat * 128 + busy
  ({ s with tiles := SMap.set {} s.tiles t x }).wr rTileStat stat t

/-- A DRAIN that waits holds a command that writes its bank or needs the drain unit, and no other (R59). -/
def TileCmd.heldBy (c : TileCmd) (w : Option TileCmd) : Bool :=
  match w with
  | none => false
  | some d => decide (c.opcode = 4) || decide (c.opcode = 5) || (decide (c.opcode = 2) && decide (c.bank = d.bank))

/-- The next command of a tile that is running and not held, where it has the given opcode (R56, R59). -/
def State.tileNext (s : State) (t opcode : Nat) : Option TileCmd :=
  match (s.tileStream t).bind fun st => st.cmds[(s.tile t).pos]? with
  | some c =>
    if c.opcode = opcode ∧ s.domainsRun [5 + t / 64] ∧ !c.heldBy (s.tile t).waiting then some c else none
  | none => none

/-- The stream moves past its present command. -/
def State.tileAdvance (s : State) (t : Nat) : State := s.setTile t { s.tile t with pos := (s.tile t).pos + 1 }

/-- A command completes. -/
def State.tileDone (s : State) (t : Nat) : State := (s.tileAdvance t).bump rTileCmdDone 1 t

/-- E_WALNUT_RANGE, once in a job (R75): kind 1 range loss, 2 saturation, 3 exponent mismatch or overflow. -/
def State.walnutEvent (s : State) (t kind : Nat) (opB : Bool) : State :=
  let x := s.tile t
  if x.raised then s
  else
    (s.setTile t { x with raised := true }).raise tyTile t eWalnutRange
      (x.seg.getD 0 % 256 + x.pos * 256) (kind + opB.toNat * 256)

/-! ### Operands (R63, R70, R71) -/

/-- The element that row `r` and K position `k` of an operand name (Table 4-6, ORIENT). -/
def OpDesc.index (d : OpDesc) (r k : Nat) : Idx :=
  if d.orient then [d.startR + r, d.startK + k, d.start2, d.start3] else [d.startK + k, d.startR + r, d.start2, d.start3]

/-- A format code of A_FMT or B_FMT that Walnut takes: FP64 or W64S (Table 4-8). -/
def walnutCode (fmt : Nat) : Bool := decide (fmt = 0) || decide (fmt = 15)

/-- The rows of a short-format operand, with the conversion events (R63). -/
def State.shortRows (s : State) (f : Field) (d : OpDesc) (rows k : Nat) : List (List Cell) × Counts :=
  let dst := (Fmt.ofCode d.cvt).getD f.fmt
  let cell := fun r c =>
    let i := d.index r c
    if f.mx then (({ raw := s.elemRaw f i, scale := s.elemScale f i } : Cell), ({} : Flags))
    else
      let x := cvtOperand f.fmt dst d.prescale (s.elemRaw f i)
      ({ raw := x.1 }, x.2)
  let all := (upTo rows).map fun r => (upTo k).map (cell r)
  (all.map fun l => l.map (·.1), all.foldl (fun a l => l.foldl (fun b x => b.add (Counts.ofFlags x.2)) a) {})

/-- The exponent that a row is sliced under, and whether a supplied one was clamped (R70). -/
def State.rowExp (s : State) (f : Field) (d : OpDesc) (r : Nat) (vals : List FVal) : Int × Bool :=
  if d.align = 1 then ((s.elemScale f (d.index r 0) : Int) - 127, false)
  else if d.align = 2 then
    match s.field d.expField with
    | some g =>
      let e := signedOf 16 (s.elemRaw g (g.ofLinear (d.expStart + r)))
      if e < -1022 then (-1022, true) else if 1023 < e then (1023, true) else (e, false)
    | none => (-1022, false)
  else
    match maxLog2 vals with
    | some l => (max l (-1022), false)
    | none => (-1022, false)

/-- One row of a Walnut operand: its cells, the elements with range loss and the saturations. A NaN or infinity has no slices
and marks the row special; the finite elements of such a row are sliced and counted as any (R70, R71, R74; log entry 86). -/
def State.walnutRow (s : State) (f : Field) (d : OpDesc) (r k : Nat) : List Cell × Nat × Nat :=
  let idx := (upTo k).map (d.index r)
  let vals := idx.map (s.elemVal f)
  let (e, clamped) := s.rowExp f d r vals
  let special := vals.any (fun v => !v.isFinite) || (decide (f.fmt = .w64s) && decide (s.elemScale f (d.index r 0) = 0xFF))
  if d.align = 1 then
    (idx.map fun i =>
      ({ slices := if s.elemScale f i = 0 then slicesOf 0 else s.elemSlices f i, exp := e, special := special } : Cell), 0, 0)
  else
    let ms := vals.map (alignClamp e)
    (ms.map fun m => ({ slices := slicesOf m.1, exp := e, special := special } : Cell),
      (ms.filter (·.2.2)).length, (ms.filter (·.2.1)).length + clamped.toNat)

/-- Count the reads of an operand: its elements, and under ALIGN 2 the exponents supplied (R163, R166, R172, R179). -/
def State.noteOperand (s : State) (f : Field) (d : OpDesc) (walnut : Bool) (rows k : Nat) : State :=
  let s1 := s.noteIdx f ((upTo rows).flatMap fun r => (upTo k).map (d.index r))
  if walnut ∧ d.align = 2 then
    match s.field d.expField with
    | some g => s1.noteIdx g ((upTo rows).map fun r => g.ofLinear (d.expStart + r))
    | none => s1
  else s1

/-- Read an operand of `rows` rows and `k` positions through its descriptor: its cells, and the state with what R48 and R71
count. -/
def State.readOperand (s : State) (t : Nat) (fmt : Nat) (d : OpDesc) (rows k : Nat) (opB : Bool) :
    List (List Cell) × State :=
  match s.field d.field with
  | none => ([], s)
  | some f =>
    let s0 := s.noteOperand f d (walnutCode fmt) rows k
    if walnutCode fmt then
      let rs := (upTo rows).map fun r => s.walnutRow f d r k
      let lost := rs.foldl (fun n x => n + x.2.1) 0
      let sat := rs.foldl (fun n x => n + x.2.2) 0
      let s1 := if lost = 0 then s0 else (s0.bump rWnRloss lost t).walnutEvent t 1 opB
      (rs.map (·.1), if sat = 0 then s1 else (s1.bump rWnSat sat t).walnutEvent t 2 opB)
    else
      let (rs, c) := s.shortRows f d rows k
      (rs, s0.countTile t c)

/-- The memory that an operand's field and its supplied exponents lie in runs (R13). -/
def State.operandRuns (s : State) (d : OpDesc) (walnut : Bool) : Bool :=
  (s.field d.field).elim true s.memRuns && (!(walnut && decide (d.align = 2)) || (s.field d.expField).elim true s.memRuns)

/-! ### Operand slots (R57, R58, R61, Table 4-5) -/

/-- The half bytes of a slot. -/
abbrev slotNibbles : Nat := 131072

/-- The half bytes of a slot element (R61). -/
def elemNibbles (fmt : Nat) : Nat :=
  if walnutCode fmt then 16
  else match Fmt.ofCode fmt with
    | some .bf16 | some .fp16 => 4
    | some .e2m1 | some .int4 => 1
    | _ => 2

/-- The slots that a block of `m` rows of pitch `kw` occupies; the scales of an MX block follow its elements, one byte per 32
elements. -/
def slotCount (fmt : Nat) (mx : Bool) (m kw : Nat) : Nat :=
  (m * kw * elemNibbles fmt + (if mx then (m * kw + 31) / 32 * 2 else 0) + (slotNibbles - 1)) / slotNibbles

/-- The half-byte address of an element of a block that begins at a slot. -/
def cellAddr (slot kw fmt r p : Nat) : Nat := slot * slotNibbles + (r * kw + p) * elemNibbles fmt

/-- The slots that `rows` rows of `k` positions of pitch `kw` are read from. -/
def slotsRead (slot kw fmt rows k : Nat) : List Nat :=
  ((upTo 8).filter fun q => decide (slot ≤ q) && decide (q * slotNibbles < cellAddr slot kw fmt (rows - 1) k))

/-- Write a block: the slots it occupies take its pitch and format; what another format left in them is lost (log entry 86). -/
def Tile.fetch (x : Tile) (c : TileCmd) (rows : List (List Cell)) : Tile :=
  let slots := (upTo (slotCount c.aFmt c.aMx c.m c.n)).map (c.aSrc + ·)
  let stale := slots.filter fun q =>
    match SMap.get none x.slots q with
    | some i => decide (i.fmt ≠ c.aFmt) || i.mx != c.aMx
    | none => true
  let kept := x.cells.filter fun e => !stale.contains (e.1 / slotNibbles)
  { x with
    slots := slots.foldl (fun m q => SMap.set none m q (some ⟨c.n, c.aFmt, c.aMx⟩)) x.slots
    cells := (upTo c.m).foldl (fun m r => (upTo c.k).foldl (fun m k =>
      SMap.set none m (cellAddr c.aSrc c.n c.aFmt r (c.slotOff + k)) (some ((rows.getD r []).getD k {}))) m) kept }

/-- What a position that no FETCH wrote holds in a slot that one did: bits of a free value (R58, log entry 86). -/
def junkCell (fmt v : Nat) : Cell :=
  { raw := v % 2 ^ (((Fmt.ofCode fmt).map (·.bits)).getD 8), scale := v % 2 ^ 8
    slices := (upTo 8).map fun p => signedOf 8 (v / 2 ^ (8 * p) % 2 ^ 8)
    exp := (v / 2 ^ 64 % 2046 : Nat) - 1022, special := bitOf v 80 }

/-- FETCH: M rows of K elements through the converter into the slots from A_SRC onward (R57, R63, Table 4-5). An event of it
concerns operand A (R75, log entry 86). -/
def execFetch (t : Fin 256) (s : State) : Outcome :=
  match s.tileNext t.val 0x01 with
  | none => .next s
  | some c =>
    if s.operandRuns c.a (walnutCode c.aFmt) then
      let (rows, s1) := s.readOperand t.val c.aFmt c.a c.m c.k false
      .next ((s1.setTile t.val ((s1.tile t.val).fetch c rows)).tileDone t.val)
    else .next s

/-- Rows of an operand from slots, from K position 0 on (log entry 86). -/
def State.slotRows (s : State) (t fmt slot rows k : Nat) : List (List Cell) × State :=
  let x := s.tile t
  let kw := (SMap.get none x.slots slot).elim k (·.kw)
  ((upTo rows).map fun r => (upTo k).map fun p =>
    (SMap.get none x.cells (cellAddr slot kw fmt r p)).getD (junkCell fmt (Config.free 46 (s.fresh + r * k + p))),
   { s with fresh := s.fresh + rows * k })

/-- An operand of the array: from slots, or streamed through its descriptor (Table 4-4, STREAM). -/
def State.arrayOperand (s : State) (t : Nat) (fmt src : Nat) (stream : Bool) (d : OpDesc) (rows k : Nat) (opB : Bool) :
    List (List Cell) × State :=
  if stream then s.readOperand t fmt d rows k opB else s.slotRows t fmt src rows k

/-- The memory that the streamed operands of an array command lie in runs (R13). -/
def State.arrayRuns (s : State) (c : TileCmd) : Bool :=
  (!c.aStream || s.operandRuns c.a (walnutCode c.aFmt)) && (!c.bStream || s.operandRuns c.b (walnutCode c.bFmt))

/-! ### Timing of the array (R69, Table 4-9) -/

/-- The port cycles of a streamed operand, which hold the array; 0 for an operand in slots. -/
def State.portCycles (s : State) (stream : Bool) (d : OpDesc) (rows k : Nat) : Nat :=
  if stream then
    match s.field d.field with
    | some f => ((rows * k * f.fmt.bits * (if f.fmt = .w64s then 8 else 1) + 7) / 8 + 127) / 128
    | none => 0
  else 0

/-- Count the cycles that a command keeps the array: its K-steps, not less than the port takes for both streamed operands,
the scan of a streamed ALIGN 0 operand, and a free wait for memory (R69, R70; log entry 41). -/
def State.arrayBusy (s : State) (t : Nat) (c : TileCmd) : State :=
  let bits := fun fmt => ((Fmt.ofCode fmt).map (·.bits)).getD 8
  let pa := s.portCycles c.aStream c.a c.m c.k
  let pb := s.portCycles c.bStream c.b c.n c.k
  let steps :=
    if c.opcode = 3 then (if c.fast then 36 else 64) * c.k
    else
      let w := max (bits c.aFmt) (bits c.bFmt)
      if w = 16 then 2 * c.k else if w = 8 then c.k else (c.k + 1) / 2
  let scan := if c.opcode = 3 then (if c.a.align = 0 then pa else 0) + (if c.b.align = 0 then pb else 0) else 0
  let (wait, s1) := s.free 49
  s1.bump64 rTileBusyCyc (max steps (pa + pb) + scan + (if c.aStream ∨ c.bStream then wait else 0)) t

/-! ### Short formats (R65 to R68) -/

/-- The value of a cell in a short format; an MX cell carries its scale (R66). -/
def Cell.val (c : Cell) (fmt : Fmt) (mx : Bool) : FVal := if mx then mxVal fmt c.scale c.raw else decodeFmt fmt c.raw

/-- Cut a list into groups of `n`; `fuel` bounds the groups. -/
def groups {α : Type} (n : Nat) : Nat → List α → List (List α)
  | 0, _ => []
  | _ + 1, [] => []
  | fuel + 1, l => l.take n :: groups n fuel (l.drop n)

/-- The exact sum of values (R66). -/
def exactSum : List FVal → FVal
  | [] => .fin false 0 0
  | v :: vs => vs.foldl (FVal.add .rne) v

/-- Add an exact value to an FP32 accumulator with one RNE (R66, R67). -/
def accFp32 (acc : Nat) (v : FVal) : Nat := (encodeIeee .fp32 .rne (FVal.add .rne (decodeFmt .fp32 acc) v)).1

/-- One output element in a floating accumulator: groups of 32 K-steps for operands of eight bits and fewer, single products
for BF16 and FP16. -/
def mmaFloat (fa fb : Fmt) (mx : Bool) (acc : Nat) (a b : List Cell) : Nat :=
  let prods := (a.zip b).map fun p => FVal.mul (p.1.val fa mx) (p.2.val fb mx)
  let n := if fa.bits = 16 then 1 else 32
  (groups n (prods.length + 1) prods).foldl (fun x g => accFp32 x (exactSum g)) acc

/-- One output element of a segment that is being balanced: the accumulation is split where the work items are, at a free K-step,
and the two FP32 partial sums are added (R30, R268, log entry 85). -/
def mmaSplit (fa fb : Fmt) (mx : Bool) (acc : Nat) (a b : List Cell) (at_ : Nat) : Nat :=
  let first := mmaFloat fa fb mx acc (a.take at_) (b.take at_)
  if a.length ≤ at_ then first
  else accFp32 first (decodeFmt .fp32 (mmaFloat fa fb mx 0 (a.drop at_) (b.drop at_)))

/-- The segment that a tile runs is one that the present step balances (R30). -/
def State.balanced (s : State) (t : Nat) : Bool :=
  s.flag rSchBal 8 &&
    match s.job, (s.tile t).seg with
    | some j, some g => (j.segs[g]?).elim false fun sg => bitOf sg.engines 5
    | _, _ => false

/-- One output element in INT32, with whether the sum wrapped (R68). -/
def mmaInt (fa fb : Fmt) (acc : Nat) (a b : List Cell) : Nat × Bool :=
  let sum := (a.zip b).foldl (fun (n : Int) p => n + signedOf fa.bits p.1.raw * signedOf fb.bits p.2.raw) (signedOf 32 acc)
  (patternOf 32 sum, decide (sum < -(2 ^ 31 : Nat)) || decide ((2 ^ 31 : Nat) ≤ sum))

/-- The bank after an MMA on its operands, and the INT32 sums that wrapped (R65 to R68). -/
def State.mma (s : State) (t : Nat) (c : TileCmd) (as bs : List (List Cell)) (at_ : Nat) : State :=
  let fa := (Fmt.ofCode c.aFmt).getD .fp32
  let fb := (Fmt.ofCode c.bFmt).getD .fp32
  let x := s.tile t
  let isInt := fa.isInt && !c.aMx
  let key := fun i j => c.bank * 8192 + i * 128 + j
  let one := fun i j =>
    let acc := if c.accIn then SMap.get 0 x.banks (key i j) else 0
    if isInt then mmaInt fa fb acc (as.getD i []) (bs.getD j [])
    else (mmaSplit fa fb c.aMx acc (as.getD i []) (bs.getD j []) at_, false)
  let cells := (upTo c.m).flatMap fun i => (upTo c.n).map fun j => (key i j, one i j)
  let banks := cells.foldl (fun m e => SMap.set 0 m e.1 e.2.1) x.banks
  (s.setTile t { x with
    banks := banks, intBanks := if isInt then c.bank :: x.intBanks.erase c.bank else x.intBanks.erase c.bank }).bump
      rAccWrap (cells.filter (·.2.2)).length t

/-- MMA: bank (+)= A x B (R65 to R68). -/
def execMma (t : Fin 256) (s : State) : Outcome :=
  match s.tileNext t.val 0x02 with
  | none => .next s
  | some c =>
    if s.arrayRuns c then
      let (as, s1) := s.arrayOperand t.val c.aFmt c.aSrc c.aStream c.a c.m c.k false
      let (bs, s2) := s1.arrayOperand t.val c.bFmt c.bSrc c.bStream c.b c.n c.k true
      let (cut, s3) := s2.free 47
      let at_ := if s.balanced t.val then cut % (c.k + 1) else c.k
      .next ((((s3.mma t.val c as bs at_)).arrayBusy t.val c).tileDone t.val)
    else .next s

/-! ### Walnut (R70 to R75) -/

/-- The pass value of one output element: the slice products with p + q at most 14, or 7 in fast mode (R72). -/
def walnutPass (fast : Bool) (a b : List Cell) : Int :=
  let top := if fast then 7 else 14
  (a.zip b).foldl (fun (acc : Int) x => acc +
    (upTo 8).foldl (fun (n : Int) p => (upTo 8).foldl (fun (n : Int) q =>
      if p + q ≤ top then n + x.1.slices.getD p 0 * x.2.slices.getD q 0 * (2 ^ (7 * (14 - p - q)) : Nat) else n) n) 0) 0

/-- An integer fits in 160-bit two's complement. -/
def fits160 (i : Int) : Bool := decide (-(2 ^ 159 : Nat) ≤ i) && decide (i < (2 ^ 159 : Nat))

/-- The events of the long store: mismatches, overflows, and whether the first of them concerns operand B, to be counted by R72,
R73, R75 and R78. -/
structure LongEvents where
  mismatch : Nat := 0
  overflow : Nat := 0
  opB : Bool := false
  deriving DecidableEq, Repr

/-- The events of two elements in order. -/
def LongEvents.add (a b : LongEvents) : LongEvents :=
  ⟨a.mismatch + b.mismatch, a.overflow + b.overflow, if a.mismatch + a.overflow = 0 then b.opB else a.opB⟩

/-- Add a sum with its exponents into an element. A mismatch of exponents or a sum beyond 160 bits marks it special: a mismatch
counts in WN_SPECIAL at once and again at each later one, an overflow when the element is written (R72, R73, R74, R78; log entry
86). -/
def LongCell.accumulate (o : LongCell) (sum : Int) (ea eb : Int) : LongCell × LongEvents :=
  let t := signedOf 160 o.sum + sum
  let mis := decide (o.expA ≠ ea) || decide (o.expB ≠ eb)
  let outside := !fits160 t
  ({ o with
      sum := patternOf 160 t, special := o.special || mis || outside, owed := o.owed || (outside && !(o.special || mis)) },
    ⟨mis.toNat, outside.toNat, mis && decide (o.expA = ea)⟩)

/-- Count the events of a command on the long store and raise kind 3 (R72, R73, R75, R78). -/
def State.countLong (s : State) (t : Nat) (e : LongEvents) : State :=
  let s1 := (s.bump rWnSpecial e.mismatch t).bump rWnOvf e.overflow t
  if e.mismatch + e.overflow = 0 then s1 else s1.walnutEvent t 3 e.opB

/-- Put computed elements into the long store and count their events. -/
def State.putLong (s : State) (t : Nat) (cells : List (Nat × LongCell × LongEvents)) : State :=
  let x := s.tile t
  (s.setTile t { x with long := cells.foldl (fun m e => SMap.set {} m e.1 e.2.1) x.long }).countLong t
    (cells.foldl (fun (a : LongEvents) e => a.add e.2.2) {})

/-- The exponent of a slot row: that of its first K position (R70, log entry 86). -/
def rowExpOf (row : List Cell) : Int := (row.headD {}).exp

/-- The element of a WMMA under the row exponents in use (R72, R74). -/
def wmmaCell (fast accIn : Bool) (old : LongCell) (ea eb : Int) (a b : List Cell) : LongCell × LongEvents :=
  let pass := walnutPass fast a b
  let owed := a.any (·.special) || b.any (·.special)
  if accIn then ({ old with fast := old.fast || fast, owed := old.owed || owed } : LongCell).accumulate pass ea eb
  else ({ sum := patternOf 160 pass, expA := ea, expB := eb, fast := fast, owed := owed }, {})

/-- WMMA: the row exponents go to the alignment registers, and long store (+)= A x B by Walnut (R70, R72). -/
def execWmma (t : Fin 256) (s : State) : Outcome :=
  match s.tileNext t.val 0x03 with
  | none => .next s
  | some c =>
    if s.arrayRuns c then
      let (as, s1) := s.arrayOperand t.val c.aFmt c.aSrc c.aStream c.a c.m c.k false
      let (bs, s2) := s1.arrayOperand t.val c.bFmt c.bSrc c.bStream c.b c.n c.k true
      let x := { s2.tile t.val with alignA := as.map rowExpOf, alignB := bs.map rowExpOf }
      let cells := (upTo c.m).flatMap fun i => (upTo c.n).map fun j =>
        (i * 128 + j, wmmaCell c.fast c.accIn (SMap.get {} x.long (i * 128 + j)) (x.alignA.getD i 0) (x.alignB.getD j 0)
          (as.getD i []) (bs.getD j []))
      .next ((((s2.setTile t.val x).putLong t.val cells).arrayBusy t.val c).tileDone t.val)
    else .next s

/-- The 32-byte record of an element as a number (Table 4-11). -/
def LongCell.record (c : LongCell) : Nat :=
  c.sum + patternOf 16 c.expA * 2 ^ 160 + patternOf 16 c.expB * 2 ^ 176 +
    ((c.special || c.owed).toNat + 2 * c.fast.toNat) * 2 ^ 192

/-- The four elements of the field that hold the record of output element (i, j): ORIENT 0 runs a row's records along dimension
0 from START_K, ORIENT 1 a column's (R77, log entry 86). -/
def OpDesc.recordIdx (d : OpDesc) (i j q : Nat) : Idx :=
  if d.orient then [d.startR + 4 * i + q, d.startK + j, d.start2, d.start3]
  else [d.startK + 4 * j + q, d.startR + i, d.start2, d.start3]

/-- LADD: add records of a field into the long store (R77, R78). -/
def execLadd (t : Fin 256) (s : State) : Outcome :=
  match s.tileNext t.val 0x05 with
  | none => .next s
  | some c =>
    match s.field c.rOp.field with
    | none => .next (s.tileDone t.val)
    | some f =>
      if s.memRuns f then
        let s1 := s.noteIdx f ((upTo c.m).flatMap fun i => (upTo c.n).flatMap fun j => (upTo 4).map (c.rOp.recordIdx i j))
        let cells := (upTo c.m).flatMap fun i => (upTo c.n).map fun j =>
          let w := fun q => s.elemRaw f (c.rOp.recordIdx i j q)
          let r := laccOf (w 0 + w 1 * 2 ^ 64 + w 2 * 2 ^ 128 + w 3 * 2 ^ 192)
          let o := SMap.get {} (s.tile t.val).long (i * 128 + j)
          let o1 := { o with fast := o.fast || bitOf r.flags 1, owed := o.owed || bitOf r.flags 0 }
          (i * 128 + j, o1.accumulate (signedOf 160 r.sum) (signedOf 16 r.expA) (signedOf 16 r.expB))
        .next ((s1.putLong t.val cells).tileDone t.val)
      else .next s

/-- The result of an element of the long store in FP64 or FP32, whether WN_SPECIAL counts it and whether it overflowed (R73,
R74). -/
def LongCell.result (c : LongCell) (f : Fmt) : Nat × Bool × Bool :=
  if c.special || c.owed then (canonNaN f, c.owed, false)
  else
    let r := encodeIeee f .rne ((FVal.ofInt (signedOf 160 c.sum)).scale (c.expA + c.expB - 110))
    (r.1, false, (decodeFmt f r.1).isInf)

/-- The vector engine that takes a tile's results (R56). -/
def vecOfTile (t : Nat) : Nat := 4 * (t / 64) + t % 64 / 16

/-- The rows that a DRAIN takes from a bank. -/
def State.bankRows (s : State) (t : Nat) (c : TileCmd) : List (List Nat) :=
  (upTo c.m).map fun i => (upTo c.n).map fun j => SMap.get 0 (s.tile t).banks (c.bank * 8192 + i * 128 + j)

/-- A DRAIN of a tile may be accepted by its half (R90). -/
def State.drainFits (s : State) (t : Nat) (c : TileCmd) : Bool :=
  let v := vecOfTile t
  let h := 2 * c.r.tbuf + c.r.half.toNat
  decide (SMap.get 0 (s.vec v).halves h = hEmpty) && decide (s.nextFill v h = some t)

/-- Deliver a DRAIN to its vector engine (R90). -/
def State.drainDeliver (s : State) (t : Nat) (c : TileCmd) : State :=
  (s.deliverHalf (vecOfTile t) (2 * c.r.tbuf + c.r.half.toNat) (s.bankRows t c))

/-- A RAW DRAIN: the record of each output element as four INT64 elements (R64, R77). -/
def State.drainRaw (s : State) (t : Nat) (c : TileCmd) (f : Field) : State :=
  let x := s.tile t
  let words := fun (k : Nat) => let n := (SMap.get {} x.long k : LongCell).record
    [n % 2 ^ 64, n / 2 ^ 64 % 2 ^ 64, n / 2 ^ 128 % 2 ^ 64, n / 2 ^ 192]
  let lines :=
    if c.r.orient then (upTo c.n).map fun j => (upTo c.m).flatMap fun i => words (i * 128 + j)
    else (upTo c.m).map fun i => (upTo c.n).flatMap fun j => words (i * 128 + j)
  (s.resultStage f .int64 c.r.start false lines).1

/-- A DRAIN of the long store, rounded once to FP64 or FP32 (R64, R73). -/
def State.drainLong (s : State) (t : Nat) (c : TileCmd) (f : Field) : State :=
  let src : Fmt := if f.fmt = .fp32 ∧ !f.mx then .fp32 else .fp64
  let x := s.tile t
  let rs := (upTo c.m).map fun i => (upTo c.n).map fun j => (SMap.get {} x.long (i * 128 + j) : LongCell).result src
  let all := rs.flatten
  let (s1, k) := s.resultStage f src c.r.start c.r.orient (rs.map fun l => l.map (·.1))
  ((s1.countTile t k).bump rWnSpecial (all.filter (·.2.1)).length t).bump rWnOvf (all.filter (·.2.2)).length t

/-- A DRAIN of a bank to a field (R64). -/
def State.drainBank (s : State) (t : Nat) (c : TileCmd) (f : Field) : State :=
  let src : Fmt := if (s.tile t).intBanks.contains c.bank then .int32 else .fp32
  let (s1, k) := s.resultStage f src c.r.start c.r.orient (s.bankRows t c)
  s1.countTile t k

/-- DRAIN: to a field, or to a half of the tile's vector engine, for which it may have to wait (R64, R90). -/
def execDrain (t : Fin 256) (s : State) : Outcome :=
  match s.tileNext t.val 0x04 with
  | none => .next s
  | some c =>
    if c.r.route = 1 then
      if s.drainFits t.val c then .next ((s.drainDeliver t.val c).tileDone t.val)
      else .next ((s.setTile t.val { s.tile t.val with waiting := some c }).tileAdvance t.val)
    else
      match s.field c.r.field with
      | none => .next (s.tileDone t.val)
      | some f =>
        if s.memRuns f then
          let s1 :=
            if c.r.raw then s.drainRaw t.val c f
            else if c.long then s.drainLong t.val c f
            else s.drainBank t.val c f
          .next (s1.tileDone t.val)
        else .next s

/-- DRAIN_ACCEPT: a waiting DRAIN is accepted, and completes, once its half is EMPTY and the tile is next in its fill order (R90). -/
def execDrainAccept (t : Fin 256) (s : State) : Outcome :=
  match (s.tile t.val).waiting with
  | none => .next s
  | some c =>
    .next (if s.drainFits t.val c then
        ((s.drainDeliver t.val c).setTile t.val { s.tile t.val with waiting := none }).bump rTileCmdDone 1 t.val
      else s)

end Sys2Proof.Machine
end

