-- ==== Sys2Proof/Machine/Assembly.lean ====
section
/-!
DEFINITION. Assembly units: the gather-scale-scatter instructions of Table 6-4 (R100 to R103).
-/

namespace Sys2Proof.Machine

/-- An assembly unit. -/
def State.asm (s : State) (u : Nat) : Asm := SMap.get {} s.asms u

/-- The stream that a unit in a segment runs. -/
def State.asmStreamOf (s : State) (u : Nat) (seg : Option Nat) : Option AsmStream :=
  match s.job, seg with
  | some j, some g => (j.segs[g]?).bind fun sg => sg.asm.find? fun x => x.unit = u
  | _, _ => none

/-- The stream that a unit runs. -/
def State.asmStream (s : State) (u : Nat) : Option AsmStream := s.asmStreamOf u (s.asm u).seg

/-- The bytes that the memory port carries for one entry: indices, sources, coefficient and destination (R103). -/
def AsmInstr.portBytes (i : AsmInstr) : Nat :=
  if i.opcode = 1 then 8
  else
    let two := if i.opcode = 3 then 2 else 1
    two * (if i.directS then 8 else 12) + (if i.immCoef then 0 else 8) + (if i.directD then 8 else 12) + (if i.acc then 8 else 0)

/-- Replace an assembly unit; ASM_STAT shows its segment, and the instruction it is at as one that keeps it busy, held below 8
entries a cycle where these need more than the 128 bytes of the port (Table 6-19, R103; log entry 88). -/
def State.setAsm (s : State) (u : Nat) (x : Asm) : State :=
  let i := (s.asmStreamOf u x.seg).bind fun st => st.instrs[x.pos]?
  let held := i.elim false fun i => decide (16 < i.portBytes)
  ({ s with asms := SMap.set {} s.asms u x }).wr rAsmStat
    ((match x.seg with | some g => g % 256 | none => 0xFF) * 2 ^ 16 + held.toNat * 2 + i.isSome.toNat) u

/-- The fields that an instruction reads or writes. -/
def AsmInstr.fields (i : AsmInstr) : List Nat :=
  if i.opcode = 1 then [i.dst]
  else [i.dst, i.src1] ++ (if i.directS then [] else [i.sidx]) ++ (if i.directD then [] else [i.didx]) ++
    (if i.immCoef then [] else [i.coef]) ++
    (if i.opcode ≠ 3 then [] else i.src2 :: (if i.directS then [] else [i.sidx2]))

/-- The next instruction of a running unit with its window, where it has the given opcode and its memory runs (R95). -/
def State.asmNext (s : State) (u opcode : Nat) : Option (AsmInstr × AsmStream) :=
  match s.asmStream u with
  | some st =>
    match st.instrs[(s.asm u).pos]? with
    | some i =>
      if i.opcode = opcode ∧ s.domainsRun [9 + u] ∧ i.fields.all (fun k => (s.field k).elim true s.memRuns) then some (i, st)
      else none
    | none => none
  | none => none

/-- An instruction completes; its busy cycles beyond one for each 8 entries depend on the port and on memory (R103, log entry
41). -/
def State.asmDone (s : State) (u : Nat) (i : AsmInstr) : State :=
  let x := s.asm u
  (((s.setAsm u { x with pos := x.pos + 1 }).bump rAsmInstrDone 1 u).bump64 rAsmBusyCyc ((i.count + 7) / 8) u).bumpFree
    rAsmBusyCyc 51 u

/-- Skip an entry: the first skip of a job raises E_RANGE (R102). -/
def State.asmSkip (s : State) (u j : Nat) : State :=
  let x := s.asm u
  let s1 := if s.rd rAsmOor u = 0 then s.raise tyAsm u eRange (x.seg.getD 0 % 256 + x.pos * 256) j else s
  s1.bump rAsmOor 1 u

/-- The value of an element of a linear index, none outside the field. -/
def State.gather (s : State) (field n : Nat) : Option Nat :=
  match s.field field with
  | some f => if n < f.size then some (s.getF64 f n) else none
  | none => none

/-- The index that an INT32 index field holds at j, none where j or the index is out of range (R102). -/
def State.indexAt (s : State) (direct : Bool) (field j : Nat) : Option Nat :=
  if direct then some j
  else
    match s.gather field j with
    | some v => if 2 ^ 31 ≤ v then none else some v
    | none => none

/-- An FP64 result with its count of invalid operations (R101). -/
def fp64Mul (a b : Nat) : Nat × Nat :=
  let r := vecFloat .fp64 (FVal.mul (decodeFmt .fp64 a) (decodeFmt .fp64 b)) [decodeFmt .fp64 a, decodeFmt .fp64 b]
  (r.1, r.2.toNat)

/-- a * b + c rounded once, with its count of invalid operations. -/
def fp64Fma (a b c : Nat) : Nat × Nat :=
  let va := decodeFmt .fp64 a
  let vb := decodeFmt .fp64 b
  let vc := decodeFmt .fp64 c
  let r := vecFloat .fp64 (FVal.add .rne (FVal.mul va vb) vc) [va, vb, vc]
  (r.1, r.2.toNat)

/-- The value that an entry of GSS or GSP would write and where, none where it is skipped (R101, R102). -/
def State.asmEntry (s : State) (i : AsmInstr) (st : AsmStream) (j : Nat) : Option (Nat × Nat × Nat) := do
  let si ← s.indexAt i.directS i.sidx j
  let a ← s.gather i.src1 si
  let x ← if i.opcode = 3 then do
      let si2 ← s.indexAt i.directS i.sidx2 j
      let b ← s.gather i.src2 si2
      pure (fp64Mul a b)
    else pure (a, 0)
  let c ← if i.immCoef then pure i.imm else s.gather i.coef j
  let di ← s.indexAt i.directD i.didx j
  let old ← s.gather i.dst di
  if di < st.winLo ∨ st.winHi ≤ di then none
  else
    let r := if i.acc then fp64Fma x.1 c old else fp64Mul x.1 c
    pure (di, r.1, x.2 + r.2)

/-- The elements that an entry reads, by field and linear index: DST under ACC where the window holds it. -/
def State.asmReads (s : State) (i : AsmInstr) (st : AsmStream) (j : Nat) : List (Nat × Nat) :=
  let one := fun (direct : Bool) idx fld => (if direct then [] else [(idx, j)]) ++
    (s.indexAt direct idx j).elim [] fun n => [(fld, n)]
  let dst := match s.indexAt i.directD i.didx j with
    | some n => if i.acc ∧ st.winLo ≤ n ∧ n < st.winHi then [(i.dst, n)] else []
    | none => []
  one i.directS i.sidx i.src1 ++ (if i.opcode = 3 then one i.directS i.sidx2 i.src2 else []) ++
    (if i.immCoef then [] else [(i.coef, j)]) ++ (if i.directD then [] else [(i.didx, j)]) ++ dst

/-- Count the reads of an entry (R163, R166, R172, R179). -/
def State.noteEntry (s : State) (i : AsmInstr) (st : AsmStream) (j : Nat) : State :=
  (s.asmReads i st j).foldl (fun t x =>
    match t.field x.1 with
    | some f => if x.2 < f.size then t.noteIdx f [f.ofLinear x.2] else t
    | none => t) s

/-- Run one entry. -/
def State.asmRun (s : State) (u : Nat) (i : AsmInstr) (st : AsmStream) (j : Nat) : State :=
  match s.asmEntry i st j, s.field i.dst with
  | some (di, v, bad), some f => (((s.noteEntry i st j).putElem f di v).bump rAsmInvalid bad u).bump64 rAsmEntries 1 u
  | _, _ => (s.noteEntry i st j).asmSkip u j

/-- CLEAR: +0 into the elements START to START + COUNT - 1 (R101). -/
def execClear (u : Fin 4) (s : State) : Outcome :=
  match s.asmNext u.val 1 with
  | none => .next s
  | some (i, st) =>
    let one := fun (t : State) (k : Nat) =>
      let j := i.start + k
      match t.field i.dst with
      | some f =>
        if f.size ≤ j ∨ j < st.winLo ∨ st.winHi ≤ j then t.asmSkip u.val j
        else (t.putElem f j 0).bump64 rAsmEntries 1 u.val
      | none => t.asmSkip u.val j
    .next (((upTo i.count).foldl one s).asmDone u.val i)

/-- The entries of a GSS or GSP in ascending j (R101). -/
def asmGather (u : Fin 4) (opcode : Nat) (s : State) : State :=
  match s.asmNext u.val opcode with
  | none => s
  | some (i, st) => ((upTo i.count).foldl (fun t k => t.asmRun u.val i st (i.start + k)) s).asmDone u.val i

/-- GSS: gather, scale, scatter (R101). -/
def execGss (u : Fin 4) (s : State) : Outcome := .next (asmGather u 2 s)

/-- GSP: gather-scale-scatter with a product of two sources (R101). -/
def execGsp (u : Fin 4) (s : State) : Outcome := .next (asmGather u 3 s)

end Sys2Proof.Machine
end

