-- ==== Sys2Proof/Machine/Pattern.lean ====
section
/-!
DEFINITION. Pattern compilation: the elimination tree, supernodes, tasks and the schedule record of a solver (R99, R104 to
R106).
-/

namespace Sys2Proof.Machine

/-- The pattern of a solver record as its fields hold it. -/
structure Pattern where
  n : Nat
  rowptr : List Nat
  colidx : List Nat
  perm : List Nat
  deriving DecidableEq, Repr

/-- The elements of a field by linear index. -/
def State.elems (s : State) (no count : Nat) : List Nat :=
  match s.field no with
  | some f => (upTo count).map fun i => s.elemRaw f (f.ofLinear i)
  | none => []

/-- The column indices of an original row. -/
def Pattern.row (p : Pattern) (i : Nat) : List Nat :=
  (p.colidx.drop (p.rowptr.getD i 0)).take (p.rowptr.getD (i + 1) 0 - p.rowptr.getD i 0)

/-- The elimination index of each original unknown. -/
def Pattern.pinv (p : Pattern) : List Nat := (upTo p.n).map fun i => p.perm.findIdx fun x => x = i

/-- Insert into an ascending list without repeats. -/
def insertNat (x : Nat) : List Nat → List Nat
  | [] => [x]
  | y :: ys => if x < y then x :: y :: ys else if x = y then y :: ys else y :: insertNat x ys

/-- The ascending union of two lists. -/
def unionNat (a b : List Nat) : List Nat := a.foldl (fun l x => insertNat x l) b

/-- The rows below the diagonal in each column of S, in elimination order (R104, step 1). -/
def Pattern.below (p : Pattern) : List (List Nat) :=
  let inv := p.pinv
  let pairs := (upTo p.n).flatMap fun i => (p.row i).map fun j =>
    (min (inv.getD i 0) (inv.getD j 0), max (inv.getD i 0) (inv.getD j 0))
  (upTo p.n).map fun k => (pairs.filter fun x => x.1 = k ∧ x.2 ≠ k).foldl (fun l x => insertNat x.2 l) []

/-- The rows below the diagonal in each column of the factor: those of S and of the columns whose parent it is (R104, step 2).
`done` holds the columns before, last first. -/
def factorCols : List (List Nat) → List (List Nat) → Nat → List (List Nat)
  | [], done, _ => done.reverse
  | c :: cs, done, k =>
    let kids := done.filter fun d => d.head? = some k
    factorCols cs ((kids.foldl (fun l d => unionNat (d.filter fun r => k < r) l) c) :: done) (k + 1)

/-- Group the columns into fundamental supernodes: first column and number of columns (R104, step 3). -/
def groupCols (below : List (List Nat)) (cols : List (List Nat)) : List Nat → List (Nat × Nat)
  | [] => []
  | k :: ks =>
    match groupCols below cols ks with
    | (f, c) :: rest =>
      let onlyChild := (cols.filter fun d => d.head? = some (k + 1)).length = 1
      if f = k + 1 ∧ (cols.getD k []).head? = some (k + 1) ∧ onlyChild ∧ below.getD k [] = insertNat (k + 1) (below.getD (k + 1) []) then
        (k, c + 1) :: rest
      else (k, 1) :: (f, c) :: rest
    | [] => [(k, 1)]

/-- The bytes that the structure hash covers (R106). -/
def Pattern.hashBytes (p : Pattern) : List Byte :=
  ascii "MBSH" ++ bytesLE 4 p.n ++ bytesLE 8 (p.rowptr.getD p.n 0) ++ p.rowptr.flatMap (bytesLE 8) ++
    p.colidx.flatMap (bytesLE 4) ++ p.perm.flatMap (bytesLE 4)

/-- The structure hash (R106). -/
def Pattern.hash (p : Pattern) : Nat :=
  let h := natLE ((sha384 p.hashBytes).take 8)
  if h = 0 then 1 else h

/-- The tasks of supernodes in ascending order: the EXTADDs in ascending child index, PANEL, UPDATE (Table 6-7). -/
def tasksOf (sns : List Supernode) : List (Nat × Nat × Nat) :=
  (upTo sns.length).flatMap fun i =>
    let kids := (upTo sns.length).filter fun c => (sns[c]?.bind fun x => x.parent) = some i
    (kids.map fun c => (1, i, c)) ++ [(2, i, 0)] ++ (if (sns[i]?.map fun x => x.rows) = some [] then [] else [(3, i, 0)])

/-- The task table with successors and predecessor counts. -/
def taskTable (sns : List Supernode) : List SolvTask :=
  let ts := tasksOf sns
  let at0 := fun (x : Nat × Nat × Nat) => ts.findIdx fun y => y = x
  let succOf := fun (x : Nat × Nat × Nat) =>
    if x.1 = 1 then
      let kids := (ts.filter fun y => y.1 = 1 ∧ y.2.1 = x.2.1 ∧ x.2.2 < y.2.2)
      match kids with
      | y :: _ => some (at0 y)
      | [] => some (at0 (2, x.2.1, 0))
    else if x.1 = 2 then (if ts.contains (3, x.2.1, 0) then some (at0 (3, x.2.1, 0)) else none)
    else (sns[x.2.1]?.bind fun n => n.parent).map fun p => at0 (1, p, x.2.1)
  let succs := ts.map succOf
  (ts.zip succs).mapIdx fun i x => ⟨x.1.1, x.1.2.1, (succs.filter fun y => y = some i).length, x.2, x.1.2.2⟩

/-- The FMAs of a front with `c` pivot columns and `b` rows below them. -/
def fmaCount (c b : Nat) : Nat := (upTo c).foldl (fun n k => n + (c + b - 1 - k) * (c + b - 1 - k)) 0

/-- The engine of each supernode: whole subtrees of the elimination tree map to engines, by a fixed function of the tree, the
FMAs of its supernodes and ENGINES, which the manual does not give (R106, log entry 14). A supernode at which no subtree of
its own begins goes with its parent. `tree` lists parent, c and b of each supernode. -/
def engineMap (tree : List (Option Nat × Nat × Nat)) (engines : List Nat) : List Nat :=
  let parents := tree.map fun x => x.1.elim 0 (· + 1)
  let work := tree.map fun x => fmaCount x.2.1 x.2.2
  (upTo tree.length).reverse.foldl (fun acc i =>
    let own := engines.getD (Config.engineOf parents work engines i % engines.length) 0
    let e := match (tree[i]?).bind (·.1) with
      | some p => if Config.subtreeStart parents work engines i then own else acc.getD (p - i - 1) own
      | none => own
    e :: acc) []

/-- Compile a pattern (R104 to R106). The layout of the tables in SCHED and of the storage in FACTOR that the rules leave open
is in log entry 15. -/
def compilePattern (p : Pattern) (engines : List Nat) (minCb : Nat) : Schedule :=
  let below := p.below
  let cols := factorCols below [] 0
  let grp := groupCols below cols (upTo p.n)
  let rowsOf := fun (g : Nat × Nat) => (cols.getD (g.1 + g.2 - 1) []).filter fun r => g.1 + g.2 ≤ r
  let taskCount := (grp.map fun g => 1 + (if rowsOf g = [] then 0 else 2)).foldl (· + ·) 0
  let snOff := 64
  let taskOff := snOff + 32 * grp.length
  let rowsOff := taskOff + 16 * taskCount
  let parentOf := fun (g : Nat × Nat) => (rowsOf g).head?.map fun r => grp.findIdx fun h => h.1 ≤ r ∧ r < h.1 + h.2
  let owners := engineMap (grp.map fun g => (parentOf g, g.2, (rowsOf g).length)) engines
  let step := fun (acc : List Supernode × Nat × Nat × Nat) (g : Nat × Nat) =>
    let rows := rowsOf g
    let f := g.2 + rows.length
    let parent := parentOf g
    let eng := owners.getD acc.2.2.2 0
    (acc.1 ++ [⟨g.1, g.2, rows, parent, eng, decide (minCb ≤ rows.length), acc.2.1, acc.2.2.1⟩],
      acc.2.1 + 4 * rows.length, acc.2.2.1 + 8 * (f * g.2 + g.2 * rows.length), acc.2.2.2 + 1)
  let r := grp.foldl step ([], rowsOff, 64 + 8 * p.n, 0)
  let sns := r.1
  let maxB := (sns.filter (·.offload)).foldl (fun m n => max m n.rows.length) 0
  { hash := p.hash, nodes := sns, tasks := taskTable sns
    maxFront := sns.foldl (fun m n => max m (n.ncol + n.rows.length)) 0
    factorBytes := r.2.2.1 + engines.length * 8 * maxB * maxB
    updPos := r.2.2.1, snOff := snOff, taskOff := taskOff, rowsOff := rowsOff }

/-- The bytes of a schedule (Tables 6-5 to 6-7). -/
def Schedule.bytes (c : Schedule) (n : Nat) (engines : List Nat) : List Byte :=
  let header := bytesLE 4 0x44484353 ++ bytesLE 2 1 ++ bytesLE 1 (engines.foldl (fun m e => m ||| 2 ^ e) 0) ++ bytesLE 1 0 ++
    bytesLE 8 c.hash ++ bytesLE 4 n ++ bytesLE 4 c.nodes.length ++ bytesLE 4 c.tasks.length ++ bytesLE 4 c.maxFront ++
    bytesLE 8 c.factorBytes ++ bytesLE 8 c.snOff ++ bytesLE 8 c.taskOff ++ bytesLE 8 c.rowsOff
  let sn := fun (x : Supernode) => bytesLE 4 x.first ++ bytesLE 2 x.ncol ++ bytesLE 2 x.rows.length ++
    bytesLE 4 (x.parent.getD 0xFFFFFFFF) ++ bytesLE 1 x.engine ++ bytesLE 1 x.offload.toNat ++ bytesLE 2 0 ++
    bytesLE 8 x.rowsPos ++ bytesLE 8 x.factPos
  let task := fun (x : SolvTask) => bytesLE 4 (x.sn + x.kind * 2 ^ 24) ++ bytesLE 4 x.wait ++
    bytesLE 4 (x.succ.getD 0xFFFFFF) ++ bytesLE 4 x.child
  header ++ c.nodes.flatMap sn ++ c.tasks.flatMap task ++ c.nodes.flatMap fun x => x.rows.flatMap (bytesLE 4)

/-- The pattern of a record as memory holds it. -/
def State.patternOf (s : State) (r : SolvRec) : Pattern :=
  let rp := s.elems (r.fields.getD 0 0) (r.n + 1)
  ⟨r.n, rp, s.elems (r.fields.getD 1 0) (rp.getD r.n 0), s.elems (r.fields.getD 2 0) r.n⟩

/-- The row at which ROWPTR, whose entries are INT64, first breaks R99: row 0 where it does not begin at 0, and the row whose end
lies below its begin. -/
def rowptrBreak (n : Nat) (rp : List Nat) : Option Nat :=
  if rp.getD 0 0 ≠ 0 then some 0
  else (upTo n).find? fun i => decide (signedOf 64 (rp.getD (i + 1) 0) < signedOf 64 (rp.getD i 0))

/-- The first row below a bound at which a pattern breaks R99, none where all hold; a value missing from PERM counts at the row
of that value (log entry 88). -/
def Pattern.broken (p : Pattern) (below : Nat) : Option Nat :=
  (upTo below).find? fun i =>
    let row := p.row i
    row.any (fun j => decide (p.n ≤ j)) || !((row.zip (row.drop 1)).all fun x => decide (x.1 < x.2)) || !row.contains i ||
      !p.perm.contains i

/-- Write bytes into a field of 8-byte elements from linear element 0. -/
def State.putWords (s : State) (f : Field) (bs : List Byte) : State :=
  (upTo ((bs.length + 7) / 8)).foldl (fun t i => t.putElem f i (fieldLE bs (8 * i) 8)) s

end Sys2Proof.Machine
end

