-- ==== Sys2Proof/Machine/SolverOps.lean ====
section
/-!
DEFINITION. Solver engines: FACTOR and its tasks, static pivoting, SOLVE, RESID, CORR and the solve control block (R107 to R119).
-/

namespace Sys2Proof.Machine

/-! ### Streams -/

/-- The engines of a record run, and so does the memory of its fields (R13, R95; log entry 82). -/
def State.solvRuns (s : State) (r : SolvRec) : Bool :=
  s.domainsRun (r.engines.map (9 + ·)) && r.fields.all fun k => (s.field k).elim true s.memRuns

/-- The command that every engine of a record stands at, where it has the given opcode (R107). -/
def State.solvReady (s : State) (id opcode : Nat) : Option (Solver × SolvCmd) :=
  match s.solver id with
  | none => none
  | some v =>
    match s.solvNext v.record.lead with
    | some c =>
      if c.opcode = opcode ∧ c.solver = id ∧ v.record.engines ≠ [] ∧ s.atBarrier v.record c ∧ s.solvRuns v.record then
        some (v, c)
      else none
    | none => none

/-- Close the FEED streams of the die of an engine when the last FACTOR of its segment has completed (R109). -/
def State.closeFeeds (s : State) (e : Nat) : State :=
  let rest := match s.solvStream e with
    | some st => st.cmds.drop (s.eng e).pos
    | none => []
  if rest.any fun c => c.opcode = 1 then s
  else
    (upTo 64).foldl (fun t i =>
      let x := t.tile (64 * e + i)
      if x.feed then t.setTile (64 * e + i) { x with feed := false, seg := none } else t) s

/-- A command completes on every engine of its record (R107). -/
def State.solvDone (s : State) (r : SolvRec) (opcode : Nat) : State :=
  r.engines.foldl (fun t e =>
    let t1 := { t with solvEngs := SMap.set {} t.solvEngs e { t.eng e with pos := (t.eng e).pos + 1 } }
    let t2 := t1.bump rSolvCmdDone 1 e
    if opcode = 1 then t2.closeFeeds e else t2) s

/-! ### Field access -/

/-- A field of a record by its role (Table 6-2). -/
def State.role (s : State) (r : SolvRec) (k : Nat) : Option Field := s.field (r.fields.getD k 0)

/-- The 8-byte element at an index of a role's field. -/
def State.roleGet (s : State) (r : SolvRec) (k i : Nat) : Nat :=
  match s.role r k with
  | some f => s.elemRaw f (f.ofLinear i)
  | none => 0

/-- Count an engine's read of the first elements of a role's field (R163, R166, R172, R179). -/
def State.noteRole (s : State) (r : SolvRec) (k count : Nat) : State :=
  match s.role r k with
  | some f => s.noteIdx f ((upTo (min count f.size)).map f.ofLinear)
  | none => s

/-- Count what a command reads: the elements of its fields, and on each engine cycles of the array, of which no rule gives the
number (Table 6-9, log entry 41). -/
def State.noteCommand (s : State) (v : Solver) (reads : List (Nat × Nat)) : State :=
  let s1 := reads.foldl (fun t x => t.noteRole v.record x.1 x.2) s
  v.record.engines.foldl (fun t e => t.bumpFree rSolvBusyCyc 52 e) s1

/-- The elements of the schedule of a solver, of the fronts in FACTOR, and of the values. -/
def Solver.schedLen (v : Solver) : Nat := (v.sched.bytes v.record.n v.record.engines).length / 8
def Solver.factorLen (v : Solver) : Nat := v.sched.updPos / 8

/-- Write an 8-byte element of a role's field. -/
def State.rolePut (s : State) (r : SolvRec) (k i v : Nat) : State :=
  match s.role r k with
  | some f => s.putElem f i v
  | none => s

/-- A 4-byte half of an element: `h` 0 low, 1 high. -/
def State.rolePut4 (s : State) (r : SolvRec) (k i h v : Nat) : State :=
  s.rolePut r k i (withBits (s.roleGet r k i) (32 * h + 31) (32 * h) v)

/-- The elements of SCB by offset / 8 (Table 6-13). -/
abbrev scb : Nat := 11

/-- SCB.STATE. -/
def State.scbState (s : State) (r : SolvRec) : Nat := s.roleGet r scb 2 / 2 ^ 32

/-- Set or clear a bit of SCB.STATE. -/
def State.scbFlag (s : State) (r : SolvRec) (b : Nat) (v : Bool) : State :=
  s.rolePut4 r scb 2 1 (withBit (s.scbState r) b v)

/-- SCB at JOB_LOAD (R114). -/
def State.scbInit (s : State) (v : Solver) : State :=
  let r := v.record
  (upTo 16).foldl (fun t i => t.rolePut r scb i (if i = 0 then v.sched.hash else if i = 8 then r.refLimit else 0)) s

/-- A warm start is rejected (R118): kind 1 for a factor, 2 for a guess. -/
def State.warmReject (s : State) (r : SolvRec) (kind : Nat) : State :=
  (s.bump rSolvWarmRej 1 r.lead).raise tySolv r.lead eWarmReject r.id kind

/-! ### FP64 helpers -/

/-- +infinity in FP64. -/
abbrev infF64 : Nat := 0x7FF0000000000000

/-- |a| as a pattern. -/
def absF (a : Nat) : Nat := (encodeIeee .fp64 .rne (decodeFmt .fp64 a).abs).1

/-- a + b rounded. -/
def addF (a b : Nat) : Nat := fAdd .fp64 a b

/-- a * b rounded. -/
def mulF (a b : Nat) : Nat := (fp64Mul a b).1

/-- a / b rounded. -/
def divF (a b : Nat) : Nat := (encodeIeee .fp64 .rne (FVal.div (decodeFmt .fp64 a) (decodeFmt .fp64 b))).1

/-- fma(-a, b, c). -/
def fnmaF (a b c : Nat) : Nat :=
  (encodeIeee .fp64 .rne (FVal.add .rne (FVal.mul (decodeFmt .fp64 a).neg (decodeFmt .fp64 b)) (decodeFmt .fp64 c))).1

/-- a * 2^k rounded. -/
def ldexpF (a : Nat) (k : Int) : Nat := (encodeIeee .fp64 .rne ((decodeFmt .fp64 a).scale k)).1

/-- The larger of two patterns; a NaN stays. -/
def maxF (a b : Nat) : Nat := (encodeIeee .fp64 .rne (FVal.max (decodeFmt .fp64 a) (decodeFmt .fp64 b))).1

/-- a < b. -/
def ltF (a b : Nat) : Bool := FVal.lt (decodeFmt .fp64 a) (decodeFmt .fp64 b)

/-- The magnitude of a with the sign of b. -/
def copysignF (a b : Nat) : Nat := a % 2 ^ 63 + b / 2 ^ 63 * 2 ^ 63

/-- The entries of an original row: column and value (R99). -/
def State.rowVals (s : State) (r : SolvRec) (p : Pattern) (i : Nat) : List (Nat × Nat) :=
  (p.row i).mapIdx fun k j => (j, s.roleGet r 3 (p.rowptr.getD i 0 + k))

/-- The sum of |a_ij| over a row in ascending j. -/
def rowSum (row : List (Nat × Nat)) : Nat := row.foldl (fun n x => addF n (absF x.2)) 0

/-- max over rows of the sums. -/
def State.anorm (s : State) (r : SolvRec) (p : Pattern) : Nat :=
  (upTo p.n).foldl (fun n i => maxF n (rowSum (s.rowVals r p i))) 0

/-! ### FACTOR (R108 to R113) -/

/-- The FACTOR in progress of a solver. -/
def State.run (s : State) (id : Nat) : Option FactorRun := s.factors.find? fun x => x.solver = id

/-- Replace the FACTOR in progress of a solver. -/
def State.setRun (s : State) (x : FactorRun) : State :=
  { s with factors := x :: s.factors.filter fun y => y.solver ≠ x.solver }

/-- The factor header's FLAGS word (Table 6-11). -/
def State.factFlags (s : State) (r : SolvRec) : Nat := s.roleGet r 9 0 / 2 ^ 32

/-- The row scales (R111): the greatest magnitude of each row; a row of zeros takes the greatest of all, or 1. -/
def rowScales (rows : List (List (Nat × Nat))) : List Nat :=
  let m := rows.map fun row => row.foldl (fun n x => maxF n (absF x.2)) 0
  let top := m.foldl maxF 0
  m.map fun x => if x = 0 then (if top = 0 then 0x3FF0000000000000 else top) else x

/-- Start a factorisation: VALID is cleared, row scales and ANORM are formed, and the tasks wait (R110, R111). -/
def State.factorStart (s : State) (v : Solver) : State :=
  let r := v.record
  let p := s.patternOf r
  let rows := (upTo p.n).map (s.rowVals r p)
  let scales := rowScales rows
  let an := s.anorm r p
  let step := s.rd rSchStep
  let words := [0x544C4146, v.sched.hash, step, 0, an, 64, 0, 0]
  let s0 := s.noteCommand v [(3, (p.rowptr.getD p.n 0)), (8, v.schedLen)]
  let s1 := (upTo 8).foldl (fun t i => t.rolePut r 9 i (words.getD i 0)) s0
  let s2 := (upTo p.n).foldl (fun t i => t.rolePut r 9 (8 + i) (scales.getD i 0)) s1
  let s3 := r.engines.foldl (fun t e => t.wr rSolvTaskDone 0 e) s2
  s3.setRun { solver := r.id, step := step, scales := scales, anorm := an }

/-- FACTOR: reuse a valid factor, or factor cold (R108, R110, R118). -/
def execFactor (id : Fin 16) (s : State) : Outcome :=
  match s.solvReady id.val 1, s.run id.val with
  | some (v, c), none =>
    let r := v.record
    let good := bitOf (s.factFlags r) 0 && decide (s.roleGet r 9 1 = s.roleGet r scb 0)
    let s1 := (s.scbFlag r 4 false).scbFlag r 5 false
    if c.reuse ∧ good then .next ((s1.scbFlag r 4 true).solvDone r 1)
    else
      let s2 := if c.reuse then (s1.scbFlag r 5 true).warmReject r 1 else s1
      .next (s2.factorStart v)
  | _, _ => .next s

/-- The row and column indices of a front, in elimination order. -/
def Supernode.indices (n : Supernode) : List Nat := ((upTo n.ncol).map fun k => n.first + k) ++ n.rows

/-- The front of a supernode before its first task: its entries of VAL, and zeros (R108). -/
def State.frontInit (s : State) (v : Solver) (n : Supernode) : SMap Nat :=
  let r := v.record
  let p := s.patternOf r
  let inv := p.pinv
  let ix := n.indices
  let f := ix.length
  let piv := fun k => decide (n.first ≤ k) && decide (k < n.first + n.ncol)
  (upTo p.n).foldl (fun m i =>
    (s.rowVals r p i).foldl (fun m e =>
      let a := inv.getD i 0
      let b := inv.getD e.1 0
      if piv (min a b) then SMap.set 0 m ((ix.findIdx fun x => x = a) * f + ix.findIdx fun x => x = b) e.2 else m) m) []

/-- The front of a supernode at present. -/
def State.frontOf (s : State) (v : Solver) (run : FactorRun) (sn : Nat) (n : Supernode) : SMap Nat :=
  match run.fronts.find? fun e => e.1 = sn with
  | some e => e.2
  | none => s.frontInit v n

/-- Keep a front. -/
def FactorRun.setFront (run : FactorRun) (sn : Nat) (f : SMap Nat) : FactorRun :=
  { run with fronts := (run.fronts.filter fun e => e.1 < sn) ++ [(sn, f)] ++ run.fronts.filter fun e => sn < e.1 }

/-- The ready task of an engine that runs, where it is of the given kind (R95, R108). -/
def State.taskNext (s : State) (e kind : Nat) : Option (Solver × FactorRun × Nat × SolvTask × Supernode) :=
  (s.readyTask e).filter fun x => decide (x.2.2.2.1.kind = kind) && s.solvRuns x.1.record &&
    (!x.2.2.2.2.offload || s.domainsRun [5 + e])

/-- EXTADD: add the child's contribution block into the front, one RNE each (R108). -/
def extAdd (child parent : Supernode) (cf pf : SMap Nat) : SMap Nat :=
  let cx := child.indices
  let px := parent.indices
  let fc := cx.length
  let fp := px.length
  let pos := fun g => px.findIdx fun x => x = g
  let b := child.rows.length
  (upTo b).foldl (fun m i => (upTo b).foldl (fun m j =>
    let k := pos (child.rows.getD i 0) * fp + pos (child.rows.getD j 0)
    SMap.set 0 m k (addF (SMap.get 0 m k) (SMap.get 0 cf ((child.ncol + i) * fc + child.ncol + j)))) m) pf

/-- The pivot rule (R111): the pivot, the events and whether it is not finite. `g` is the greatest |f_ik| below it. -/
def pivotRule (k kEng : Nat) (growth : Int) (p t g : Nat) : Nat × List PivEvent × Bool :=
  let v := decodeFmt .fp64 p
  if !v.isFinite then (p, [], true)
  else
    let first :=
      if v.isZero then (t, [(⟨k, ePivotZero, p, t, kEng⟩ : PivEvent)])
      else if ltF (absF p) t then (copysignF t p, [⟨k, ePivotTiny, p, copysignF t p, kEng⟩])
      else (p, [])
    if ltF (ldexpF (absF first.1) growth) g then
      let q := copysignF (ldexpF g (-growth)) first.1
      (q, first.2 ++ [⟨k, eGrowth, first.1, q, kEng⟩], false)
    else (first.1, first.2, false)

/-- One pivot column of PANEL: the pivot rule, the multipliers, and the updates of every i, j > k with i < c or j < c (R108). -/
def panelColumn (n : Supernode) (scales perm : List Nat) (r : SolvRec) (acc : SMap Nat × List PivEvent × List Nat) (k : Nat) :
    SMap Nat × List PivEvent × List Nat :=
  let f := n.indices.length
  let at0 := fun (m : SMap Nat) i j => SMap.get 0 m (i * f + j)
  let below := (upTo f).filter fun i => k < i
  let m := acc.1
  let g := below.foldl (fun x i => maxF x (absF (at0 m i k))) 0
  let t := ldexpF (scales.getD (perm.getD (n.first + k) 0) 0) r.tauExp
  let pr := pivotRule (n.first + k) n.engine r.growthExp (at0 m k k) t g
  let m1 := SMap.set 0 m (k * f + k) pr.1
  let m2 := below.foldl (fun m i => SMap.set 0 m (i * f + k) (divF (at0 m i k) pr.1)) m1
  let m3 := below.foldl (fun m i => below.foldl (fun m j =>
    if i < n.ncol ∨ j < n.ncol then SMap.set 0 m (i * f + j) (fnmaF (at0 m i k) (at0 m k j) (at0 m i j)) else m) m) m2
  (m3, acc.2.1 ++ pr.2.1, if pr.2.2 then acc.2.2 ++ [n.first + k] else acc.2.2)

/-- Write the L and U panels of a front to FACTOR (Table 6-6, FACT_POS; log entry 15). -/
def State.writePanels (s : State) (r : SolvRec) (n : Supernode) (m : SMap Nat) : State :=
  let f := n.indices.length
  let c := n.ncol
  let b := n.rows.length
  let s1 := (upTo f).foldl (fun t i => (upTo c).foldl (fun t k =>
    t.rolePut r 9 (n.factPos / 8 + i * c + k) (SMap.get 0 m (i * f + k))) t) s
  (upTo c).foldl (fun t k => (upTo b).foldl (fun t j =>
    t.rolePut r 9 (n.factPos / 8 + f * c + k * b + j) (SMap.get 0 m (k * f + c + j))) t) s1

/-- A row of a front as a Walnut operand under ALIGN 0: cells, elements with range loss (R70, R71, R74). -/
def frontRow (vals : List Nat) : List Cell × Nat :=
  let vs := vals.map (decodeFmt .fp64)
  let e := match maxLog2 vs with
    | some l => max l (-1022)
    | none => -1022
  let ms := vs.map (alignClamp e)
  (ms.map fun m => { slices := slicesOf m.1, exp := e, special := vs.any fun v => !v.isFinite }, (ms.filter (·.2.2)).length)

/-- The FEED tiles of a die in ascending number. -/
def State.feedTiles (s : State) (e : Nat) : List Nat :=
  ((upTo 64).map fun i => 64 * e + i).filter fun t => (s.tile t).feed

/-- UPDATE by Walnut (R109): P in blocks of 64 x 128, each one WMMA and one DRAIN on a FEED tile, stored in the update area, then
subtracted. -/
def State.updateWalnut (s : State) (v : Solver) (n : Supernode) (m : SMap Nat) : SMap Nat × State :=
  let r := v.record
  let f := n.indices.length
  let c := n.ncol
  let b := n.rows.length
  let as := (upTo b).map fun i => frontRow ((upTo c).map fun k => SMap.get 0 m ((c + i) * f + k))
  let bs := (upTo b).map fun j => frontRow ((upTo c).map fun k => SMap.get 0 m (k * f + c + j))
  let p := fun i j => 
    let a := (as.getD i ([], 0)).1
    let b := (bs.getD j ([], 0)).1
    ((wmmaCell r.wnFast false {} (rowExpOf a) (rowExpOf b) a b).1).result .fp64
  let wide := (b + 127) / 128
  let feeds := s.feedTiles n.engine
  let area := v.sched.updPos / 8 + ((v.record.engines.findIdx fun e => e = n.engine) *
    ((v.sched.factorBytes - v.sched.updPos) / 8 / v.record.engines.length))
  let block := fun (t : State) (q : Nat) =>
    let is := (upTo 64).filterMap fun i => if q / wide * 64 + i < b then some (q / wide * 64 + i) else none
    let js := (upTo 128).filterMap fun j => if q % wide * 128 + j < b then some (q % wide * 128 + j) else none
    match feeds[q % max 1 feeds.length]? with
    | none => t
    | some tile =>
      let lostA := is.foldl (fun n i => n + (as.getD i ([], 0)).2) 0
      let lostB := js.foldl (fun n j => n + (bs.getD j ([], 0)).2) 0
      let rs := is.flatMap fun i => js.map fun j => p i j
      let t1 := if lostA = 0 then t else (t.bump rWnRloss lostA tile).walnutEvent tile 1 false
      let t2 := if lostB = 0 then t1 else (t1.bump rWnRloss lostB tile).walnutEvent tile 1 true
      let x := t2.tile tile
      let t3 := (t2.setTile tile { x with
        pos := x.pos + 2, alignA := is.map fun i => rowExpOf (as.getD i ([], 0)).1
        alignB := js.map fun j => rowExpOf (bs.getD j ([], 0)).1 }).bump rTileCmdDone 2 tile
      let scan := (8 * is.length * c + 127) / 128 + (8 * js.length * c + 127) / 128
      ((t3.bump rWnSpecial (rs.filter (·.2.1)).length tile).bump rWnOvf (rs.filter (·.2.2)).length tile).bump64 rTileBusyCyc
        ((if r.wnFast then 36 else 64) * c + scan) tile
  let s1 := (upTo ((b + 63) / 64 * wide)).foldl block s
  let s2 := (upTo b).foldl (fun t i => (upTo b).foldl (fun t j => t.rolePut r 9 (area + i * b + j) (p i j).1) t) s1
  ((upTo b).foldl (fun m i => (upTo b).foldl (fun m j =>
    let k := (c + i) * f + c + j
    SMap.set 0 m k ((encodeIeee .fp64 .rne (FVal.add .rne (decodeFmt .fp64 (SMap.get 0 m k)) (decodeFmt .fp64 (p i j).1).neg)).1)) m) m,
   s2)

/-- UPDATE on the native array: k ascending for every i, j at or above c (R108). -/
def updateNative (n : Supernode) (m : SMap Nat) : SMap Nat :=
  let f := n.indices.length
  let c := n.ncol
  let high := (upTo f).filter fun i => c ≤ i
  (upTo c).foldl (fun m k => high.foldl (fun m i => high.foldl (fun m j =>
    SMap.set 0 m (i * f + j) (fnmaF (SMap.get 0 m (i * f + k)) (SMap.get 0 m (k * f + j)) (SMap.get 0 m (i * f + j)))) m) m) m

/-- Events in the order of the report: ascending index, the zero or tiny one before growth (R112). -/
def sortEvents (l : List PivEvent) : List PivEvent :=
  let ins := fun (x : PivEvent) (ys : List PivEvent) =>
    ys.takeWhile (fun y => y.index < x.index ∨ (y.index = x.index ∧ x.kind = eGrowth)) ++ [x] ++
      ys.dropWhile (fun y => y.index < x.index ∨ (y.index = x.index ∧ x.kind = eGrowth))
  l.foldl (fun acc x => ins x acc) []

/-- The end of a factorisation: the report, the header, SCB, the error registers and the command (R110, R112, R113). -/
def State.factorEnd (s : State) (v : Solver) (run : FactorRun) : State :=
  let r := v.record
  let ev := sortEvents run.events
  let perm := (s.patternOf r).perm
  let room := match s.role r 10 with
    | some f => f.size / 4
    | none => 0
  let put := fun (t : State) (x : PivEvent × Nat) =>
    let e := x.1
    let ws := [e.old, e.new, e.index + perm.getD e.index 0 * 2 ^ 32, e.kind + e.engine * 2 ^ 8 + run.step % 2 ^ 32 * 2 ^ 32]
    (upTo 4).foldl (fun u k => u.rolePut r 10 (4 * x.2 + k) (ws.getD k 0)) t
  let s1 := ((ev.take room).zip (upTo room)).foldl put s
  let s2 := s1.bump rSolvRepLost (ev.length - room) r.lead
  let flags := 1 + 2 * run.fastUsed.toNat + 4 * (decide (ev ≠ [])).toNat
  let s3 := (s2.rolePut4 r 9 0 1 flags).rolePut4 r 9 3 0 ev.length
  let s4 := s3.rolePut4 r scb 8 1 ev.length
  let firstBad := run.nonfinite.foldl (fun (m : Option Nat) k => some (match m with | some x => min x k | none => k)) none
  let code := match ev.head?, firstBad with
    | some e, some k => if k ≤ e.index then some (eSolvNonfinite, k) else some (e.kind, e.index)
    | some e, none => some (e.kind, e.index)
    | none, some k => some (eSolvNonfinite, k)
    | none, none => none
  let s5 := match code with
    | some (c, k) => s4.raise tySolv r.lead c k (r.id + min ev.length 0xFFFFFF * 256)
    | none => s4
  ({ s5 with factors := s5.factors.filter fun y => y.solver ≠ r.id }).solvDone r 1

/-- A task completes, after cycles of the array of which no rule gives the number; with the last one the factorisation ends
(R108, log entry 41). -/
def State.taskDone (s : State) (v : Solver) (run : FactorRun) (i e : Nat) : State :=
  let run' := { run with done := i :: run.done }
  let s1 := ((s.setRun run').bump rSolvTaskDone 1 e).bumpFree rSolvBusyCyc 52 e
  if run'.done.length = v.sched.tasks.length then s1.factorEnd v run' else s1

/-- EXTADD: the engine's ready task of lowest index, where it is one (R108). -/
def execExtadd (e : Fin 4) (s : State) : Outcome :=
  match s.taskNext e.val 1 with
  | some (v, run, i, t, n) =>
    match v.sched.nodes[t.child]? with
    | some child =>
      let m := extAdd child n (s.frontOf v run t.child child) (s.frontOf v run t.sn n)
      .next (s.taskDone v (run.setFront t.sn m) i e.val)
    | none => .next s
  | none => .next s

/-- PANEL: the engine's ready task of lowest index, where it is one (R108, R111). -/
def execPanel (e : Fin 4) (s : State) : Outcome :=
  match s.taskNext e.val 2 with
  | some (v, run, i, t, n) =>
    let r := v.record
    let x := (upTo n.ncol).foldl (panelColumn n run.scales (s.patternOf r).perm r) (s.frontOf v run t.sn n, [], [])
    let count := fun k => (x.2.1.filter fun y => y.kind = k).length
    let s1 := s.writePanels r n x.1
    let s2 := ((s1.bump rSolvPivTiny (count ePivotTiny) r.lead).bump rSolvPivZero (count ePivotZero) r.lead).bump
      rSolvPivGrowth (count eGrowth) r.lead
    let s3 := s2.bump rSolvNonfinite x.2.2.length r.lead
    let run1 := run.setFront t.sn x.1
    .next (s3.taskDone v { run1 with events := run1.events ++ x.2.1, nonfinite := run1.nonfinite ++ x.2.2 } i e.val)
  | none => .next s

/-- UPDATE: the engine's ready task of lowest index, where it is one (R108, R109). -/
def execUpdate (e : Fin 4) (s : State) : Outcome :=
  match s.taskNext e.val 3 with
  | some (v, run, i, t, n) =>
    let m := s.frontOf v run t.sn n
    let x := if n.offload then s.updateWalnut v n m else (updateNative n m, s)
    let run1 := run.setFront t.sn x.1
    .next (x.2.taskDone v { run1 with fastUsed := run1.fastUsed || (n.offload && v.record.wnFast) } i e.val)
  | none => .next s

/-! ### Solves and refinement (R114 to R118) -/

/-- Solve L U x = b in elimination order (R115). -/
def State.luSolve (s : State) (v : Solver) (b : List Nat) : List Nat :=
  let r := v.record
  let l := fun (n : Supernode) i k => s.roleGet r 9 (n.factPos / 8 + i * n.ncol + k)
  let u := fun (n : Supernode) k j =>
    if j < n.ncol then l n k j else s.roleGet r 9 (n.factPos / 8 + n.indices.length * n.ncol + k * n.rows.length + (j - n.ncol))
  let forward := v.sched.nodes.foldl (fun (y : List Nat) n =>
    (upTo n.ncol).foldl (fun (y : List Nat) k =>
      let yk := y.getD (n.first + k) 0
      ((upTo n.indices.length).filter fun i => k < i).foldl (fun (y : List Nat) i =>
        let g := n.indices.getD i 0
        y.set g (fnmaF (l n i k) yk (y.getD g 0))) y) y) b
  v.sched.nodes.reverse.foldl (fun (x : List Nat) n =>
    (upTo n.ncol).reverse.foldl (fun (x : List Nat) k =>
      let acc := ((upTo n.indices.length).filter fun j => k < j).foldl (fun a j =>
        fnmaF (u n k j) (x.getD (n.indices.getD j 0) 0) a) (x.getD (n.first + k) 0)
      x.set (n.first + k) (divF acc (l n k k))) x) forward

/-- Solve for every right-hand side of a source field and hand each result, by original index, to a writer. -/
def State.solveInto (s : State) (v : Solver) (src : Nat) (write : State → Nat → Nat → State) : State :=
  let r := v.record
  let perm := (s.patternOf r).perm
  (upTo r.nrhs).foldl (fun t h =>
    let b := perm.map fun i => s.roleGet r src (h * r.n + i)
    let x := s.luSolve v b
    (upTo r.n).foldl (fun t k => write t (h * r.n + perm.getD k 0) (x.getD k 0)) t) s

/-- SOLVE: start a solve, from a warm guess or from the factor (R115, R118). -/
def execSolve (id : Fin 16) (s : State) : Outcome :=
  match s.solvReady id.val 2 with
  | none => .next s
  | some (v, c) =>
    let r := v.record
    let s1 := (upTo 4).foldl (fun t b => t.scbFlag r b false) (s.rolePut4 r scb 2 0 0)
    let s2 := (s1.rolePut r scb 3 infF64).rolePut r scb 4 infF64
    let warm := decide (s2.roleGet r scb 1 = s2.roleGet r scb 0)
    let s3 :=
      if c.guess ∧ warm then s2.scbFlag r 2 true
      else
        let t := (if c.guess then (s2.scbFlag r 3 true).warmReject r 2 else s2).noteCommand v
          [(4, r.n * r.nrhs), (9, v.factorLen), (8, v.schedLen)]
        (t.solveInto v 4 (fun u i x => u.rolePut r 5 i x)).rolePut r scb 1 (t.roleGet r scb 0)
    .next (s3.solvDone r 2)

/-- RESID: the residual, the norms and the convergence test (R116). -/
def execResid (id : Fin 16) (s : State) : Outcome :=
  match s.solvReady id.val 3 with
  | none => .next s
  | some (v, _) =>
    let r := v.record
    let p := s.patternOf r
    let cells := (upTo r.nrhs).flatMap fun h => (upTo r.n).map fun i =>
      (h * r.n + i, (s.rowVals r p i).foldl (fun t e => fnmaF e.2 (s.roleGet r 5 (h * r.n + e.1)) t) (s.roleGet r 4 (h * r.n + i)))
    let s0 := s.noteCommand v [(3, p.rowptr.getD p.n 0), (4, r.n * r.nrhs), (5, r.n * r.nrhs)]
    let s1 := cells.foldl (fun t x => t.rolePut r 6 x.1 x.2) s0
    let top := fun k => (upTo (r.nrhs * r.n)).foldl (fun m i => maxF m (absF (s.roleGet r k i))) 0
    let an := s.anorm r p
    let bn := top 4
    let xn := top 5
    let rho := cells.foldl (fun m x => maxF m (absF x.2)) 0
    let prev := s.roleGet r scb 3
    let tol := ldexpF (addF (mulF an xn) bn) r.tolExp
    let conv := !(decodeFmt .fp64 rho).isNan && !(decodeFmt .fp64 tol).isNan && !ltF tol rho
    let stag := ltF (ldexpF prev (-1)) rho
    let ws := [(3, rho), (4, prev), (5, an), (6, xn), (7, bn)]
    let s2 := ws.foldl (fun t x => t.rolePut r scb x.1 x.2) s1
    let s3 := if conv then s2.scbFlag r 0 true else s2
    let s4 := if stag then s3.scbFlag r 1 true else s3
    .next (s4.solvDone r 3)

/-- CORR: one refinement sweep, or a skipped one (R117). -/
def execCorr (id : Fin 16) (s : State) : Outcome :=
  match s.solvReady id.val 4 with
  | none => .next s
  | some (v, c) =>
    let r := v.record
    let st := s.scbState r
    let sweep := s.roleGet r scb 2 % 2 ^ 32
    let limit := min 16 (s.roleGet r scb 8 % 2 ^ 32)
    if bitOf st 0 ∨ bitOf st 1 ∨ limit ≤ sweep then
      let s1 := (upTo (r.nrhs * r.n)).foldl (fun t i => t.rolePut r 7 i 0) s
      .next ((s1.bump rSolvSkipped 1 r.lead).solvDone r 4)
    else
      let s0 := s.noteCommand v
        ([(6, r.n * r.nrhs), (9, v.factorLen), (8, v.schedLen)] ++ if c.update then [(5, r.n * r.nrhs)] else [])
      let s1 := s0.solveInto v 6 (fun t i d => t.rolePut r 7 i d)
      let s2 := s1.rolePut4 r scb 2 0 (sweep + 1)
      let s3 :=
        if c.update then
          ((upTo (r.nrhs * r.n)).foldl (fun t i => t.rolePut r 5 i (addF (t.roleGet r 5 i) (t.roleGet r 7 i))) s2).rolePut r scb 1
            (s2.roleGet r scb 0)
        else s2
      .next (s3.solvDone r 4)

end Sys2Proof.Machine
end

