-- ==== Sys2Proof/Machine/ImageCheck.lean ====
section
/-!
DEFINITION. The checks of an image that relate records to one another: written before read, rectangles, alignment sources, fill
order, byte overlaps, access lists, solver streams and patterns; and the loaded job (R19, R58, R62, R83, R85, R88, R91, R93,
R97 to R100, R105, R107, R109).
-/

namespace Sys2Proof.Machine

/-! ### Bytes of accesses -/

/-- The byte ranges of a rectangle of elements: `c` along dimension 0 and `r` along dimension 1 from a start, with planes and
scale bytes. -/
def rectBytes (f : Field) (start : Idx) (c r : Nat) : List (Nat × Nat) :=
  if c = 0 then []
  else
    (upTo r).flatMap fun j =>
      let a := idxAdd start 1 j
      let b := idxAdd a 0 (c - 1)
      let line := fun (a b : Idx) => (f.bitAddr a / 8, (f.bitAddr b + f.fmt.bits + 7) / 8)
      (if f.fmt = .w64s then (upTo 8).map fun p => line (a.set 3 p) (b.set 3 p) else [line a b]) ++
      (if f.scaleLen = 0 then [] else [(f.scaleAddr a, f.scaleAddr b + 1)])

/-- The bytes that an operand of a tile reads. -/
def opBytes (fs : List Field) (d : OpDesc) (rows k : Nat) (walnut : Bool) : List (Nat × Nat) :=
  match fs[d.field]? with
  | none => []
  | some f =>
    let st := [if d.orient then d.startR else d.startK, if d.orient then d.startK else d.startR, d.start2, d.start3]
    rectBytes f st (if d.orient then rows else k) (if d.orient then k else rows) ++
    (if walnut ∧ d.align = 2 then
      match fs[d.expField]? with
      | some e => (upTo rows).map fun r => let a := e.bitAddr (e.ofLinear (d.expStart + r)) / 8; (a, a + 2)
      | none => []
     else [])

/-- The bytes that a tile command reads of fields, and those it writes. -/
def TileCmd.bytes (fs : List Field) (c : TileCmd) : List (Nat × Nat) × List (Nat × Nat) :=
  if c.opcode = 1 then (opBytes fs c.a c.m c.k (walnutCode c.aFmt), [])
  else if c.opcode = 2 ∨ c.opcode = 3 then
    ((if c.aStream then opBytes fs c.a c.m c.k (walnutCode c.aFmt) else []) ++
      (if c.bStream then opBytes fs c.b c.n c.k (walnutCode c.bFmt) else []), [])
  else if c.opcode = 4 then
    (([] : List (Nat × Nat)), if c.r.route ≠ 0 then [] else
      match fs[c.r.field]? with
      | none => []
      | some f =>
        let n := (if c.r.raw then 4 else 1) * (if c.r.orient then c.m else c.n)
        rectBytes f c.r.start n (if c.r.orient then c.n else c.m))
  else if c.opcode = 5 then
    ((match fs[c.rOp.field]? with
      | none => []
      | some f =>
        let o := c.rOp.orient
        let st := [if o then c.rOp.startR else c.rOp.startK, if o then c.rOp.startK else c.rOp.startR, c.rOp.start2, c.rOp.start3]
        rectBytes f st (4 * (if o then c.m else c.n)) (if o then c.n else c.m)), [])
  else ([], [])

/-- Some pair of streams conflicts: the offsets of the later one. -/
def conflicts (bad : List (Nat × Nat) × List (Nat × Nat) → List (Nat × Nat) × List (Nat × Nat) → Bool) :
    List (Nat × List (Nat × Nat) × List (Nat × Nat)) → Bad
  | [] => []
  | x :: xs => (xs.filter fun y => bad x.2 y.2 || bad y.2 x.2).map (·.1) ++ conflicts bad xs

/-! ### Tile streams (R58, R62) -/

/-- What the check knows of a slot: what was last fetched into it, and under which alignment source. -/
structure SlotSim where
  info : SlotInfo
  src : List Nat
  deriving DecidableEq, Repr

/-- What the check of a tile stream has seen: the slots, the written rectangles of the banks (bank, rows, columns, INT32), and
the rectangle of the long store with the sources of its last WMMA. -/
structure TileSim where
  slots : List (Nat × SlotSim) := []
  banks : List (Nat × Nat × Nat × Bool) := []
  long : Option (Nat × Nat) := none
  src : Option (List (List Nat) × List (List Nat)) := none
  bad : Bad := []

/-- The alignment source that a descriptor names (R70). -/
def OpDesc.source (d : OpDesc) : List Nat := if d.align = 2 then [2, d.expField, d.expStart] else [d.align]

/-- The sources of an array operand: the descriptor's when streamed, else those of the slots that its rows lie in; none where
one of these was not written, or holds another format, or the rows overrun slot 7 (R58). -/
def TileSim.operand (t : TileSim) (stream : Bool) (slot fmt : Nat) (mx : Bool) (d : OpDesc) (rows k : Nat) :
    Option (List (List Nat)) :=
  let at_ := fun q => (t.slots.find? fun x => x.1 = q).map (·.2)
  if stream then some [d.source]
  else
    (at_ slot).bind fun base =>
      let used := slotsRead slot base.info.kw fmt rows k
      if decide (cellAddr slot base.info.kw fmt (rows - 1) k ≤ 8 * slotNibbles) &&
        used.all (fun q => (at_ q).elim false fun x => decide (x.info.fmt = fmt) && x.info.mx == mx) then
        some ((used.filterMap fun q => (at_ q).map (·.src)).eraseDups)
      else none

/-- One command of a tile stream: what it adds to the check. A bad descriptor is reported at its own offset, everything else at
the command's. -/
def TileSim.step (img : List Byte) (fs : List Field) (dcount dof : Nat) (t : TileSim) (o : Nat) : TileSim :=
  let c := parseTileCmd img dof o
  let fl := fieldLE img (o + 1) 1
  let ad := fieldLE img (o + 0x10) 2
  let bd := fieldLE img (o + 0x12) 2
  let rd := fieldLE img (o + 0x14) 2
  let desc := fun (n rows : Nat) => if n < dcount then need (opOk img fs (dof + 32 * n) rows) (dof + 32 * n) else [o]
  let base := decide (fl < 8) && decide (fieldLE img (o + 2) 1 < 64) && decide (fieldLE img (o + 3) 1 < 64) &&
    decide (fieldLE img (o + 0xC) 1 < 4) && decide (bitsOf (fieldLE img (o + 0xD) 1) 6 3 = 0) &&
    decide (bitsOf (fieldLE img (o + 0xE) 1) 6 3 = 0) && decide (fieldLE img (o + 0xF) 1 = 0) &&
    decide (fieldLE img (o + 0x16) 2 = 0) && decide (fieldLE img (o + 0x1C) 4 = 0)
  let kOk := decide (1 ≤ c.k) && decide (c.k ≤ 65536)
  let mn := decide (1 ≤ c.m) && decide (c.m ≤ 64) && decide (1 ≤ c.n) && decide (c.n ≤ 128)
  let inside := fun (w : Option (Nat × Nat)) => match w with
    | some (m, n) => decide (c.m ≤ m) && decide (c.n ≤ n)
    | none => false
  let bank := t.banks.find? fun b => b.1 = c.bank
  let bankRect := bank.map fun b => (b.2.1, b.2.2.1)
  if c.opcode = 1 then
    let slots := slotCount c.aFmt c.aMx c.m c.n
    let ok := base && fmtOk c.aFmt c.aMx && decide (1 ≤ c.m) && decide (c.m ≤ 128) && decide (1 ≤ c.n) && kOk &&
      decide (c.slotOff + c.k ≤ c.n) && decide (c.aSrc + slots ≤ 8) && opDelivers fs c.a c.aFmt c.aMx
    let mine := (upTo (min 8 slots)).map fun q => (c.aSrc + q, (⟨⟨c.n, c.aFmt, c.aMx⟩, c.a.source⟩ : SlotSim))
    { t with
      slots := mine ++ (t.slots.filter fun x => !(mine.map (·.1)).contains x.1),
      bad := t.bad ++ desc ad c.m ++ need ok o }
  else if c.opcode = 2 ∨ c.opcode = 3 then
    let a := t.operand c.aStream c.aSrc c.aFmt c.aMx c.a c.m c.k
    let b := t.operand c.bStream c.bSrc c.bFmt c.bMx c.b c.n c.k
    let pair := if c.opcode = 2 then pairOk c.aFmt c.bFmt c.aMx c.bMx
      else walnutCode c.aFmt && walnutCode c.bFmt && !c.aMx && !c.bMx
    let rect := if c.opcode = 2 then bankRect else t.long
    let isInt := decide (c.aFmt = 12 ∨ c.aFmt = 13) && !c.aMx
    let src := some (a.getD [], b.getD [])
    let ok := base && mn && kOk && fmtOk c.aFmt c.aMx && fmtOk c.bFmt c.bMx && pair && a.isSome && b.isSome &&
      (!c.aStream || opDelivers fs c.a c.aFmt c.aMx) && (!c.bStream || opDelivers fs c.b c.bFmt c.bMx) &&
      (!c.accIn || inside rect) && (decide (c.opcode = 2) || !c.accIn || decide (t.src = src))
    let t1 := { t with
      bad := t.bad ++ (if c.aStream then desc ad c.m else []) ++ (if c.bStream then desc bd c.n else []) ++ need ok o }
    if c.opcode = 2 then
      let r := match c.accIn, bankRect with
        | true, some (m, n) => (m, n)
        | _, _ => (c.m, c.n)
      { t1 with banks := (c.bank, r.1, r.2, isInt) :: t.banks.filter fun x => x.1 ≠ c.bank }
    else if c.accIn then t1 else { t1 with long := some (c.m, c.n), src := src }
  else if c.opcode = 4 then
    let ro := dof + 32 * rd
    let r := c.r
    let form := decide (fieldLE img ro 2 < 4096) && decide (fieldLE img (ro + 2) 1 < 16) && decide (r.route < 2) &&
      decide (fieldLE img (ro + 3) 1 < 8) && decide (fieldLE img (ro + 4) 4 = 0) && decide (fieldLE img (ro + 0x18) 8 = 0) &&
      (if r.route = 1 then decide (fieldLE img ro 2 = 0) else decide (r.field < fs.length))
    let dst := if r.route = 1 then !r.raw && !c.long
      else match fs[r.field]? with
        | none => false
        | some f =>
          if r.raw then c.long && decide (f.fmt = .int64) && !f.mx
          else destOk f r.orient (r.start.getD 0 0) c.n && (f.fmt != .w64s || c.long || bank.elim false fun b => !b.2.2.2)
    { t with
      bad := t.bad ++ (if rd < dcount then need form ro else [o]) ++ need (base && mn && dst && inside (if c.long then t.long else bankRect)) o }
  else if c.opcode = 5 then
    let ro := dof + 32 * rd
    let d := c.rOp
    let form := opForm img ro && decide (d.cvt = 9) && decide (d.align = 0) && decide (d.prescale = 0) &&
      ((fs[d.field]?).elim false fun f => decide (f.fmt = .int64) && !f.mx)
    { t with bad := t.bad ++ (if rd < dcount then need form ro else [o]) ++ need (base && mn && inside t.long) o }
  else { t with bad := t.bad ++ [o] }

/-- A tile stream. -/
def tileStreamBad (img : List Byte) (fs : List Field) (dcount dof o : Nat) : Bad :=
  if bitOf (fieldLE img o 2) 8 then []
  else
    ((upTo (fieldLE img (o + 4) 4)).foldl (fun t j => t.step img fs dcount dof (fieldLE img (o + 8) 8 + 32 * j))
      ({} : TileSim)).bad

/-! ### Vector streams (R83, R85, R88, R91) -/

/-- The instructions of a stream in the order they run, with their position; `fuel` bounds the instructions. -/
def unroll : Nat → Nat → List VecInstr → List (Nat × VecInstr)
  | 0, _, _ => []
  | _ + 1, _, [] => []
  | fuel + 1, p, i :: rest =>
    if i.opcode = 5 then
      let l := bitsOf i.imm 39 32
      let body := (rest.take l).mapIdx fun j x => (p + 1 + j, x)
      (upTo (i.imm % 2 ^ 32)).flatMap (fun _ => body) ++ unroll fuel (p + 1 + l) (rest.drop l)
    else (p, i) :: unroll fuel (p + 1) rest

/-- The instructions that run, in order. -/
def VecStream.trace (st : VecStream) : List (Nat × VecInstr) := unroll (st.instrs.length + 1) 0 st.instrs

/-- A LOOP holds no LOOP and its body lies in the stream (R88). -/
def loopOk (is : List VecInstr) (p : Nat) : Bool :=
  match is[p]? with
  | some i =>
    if i.opcode = 5 then
      let l := bitsOf i.imm 39 32
      decide (p + 1 + l ≤ is.length) && ((is.drop (p + 1)).take l).all fun x => decide (x.opcode ≠ 5)
    else true
  | none => true

/-- The storage objects that an operand byte names: 0 to 31 for a register or broadcast vector, 32 + h for a half. -/
def storageOf (op : Nat) : List Nat :=
  if op / 32 = 0 then [op % 32]
  else if op / 32 = 1 then [32 + 2 * (op % 4), 33 + 2 * (op % 4)]
  else if op / 32 = 2 then [32 + 2 * (op % 4)]
  else if op / 32 = 3 then [33 + 2 * (op % 4)]
  else if op / 32 ≤ 5 then [op % 16]
  else []

/-- Walk a stream as it runs: storage written, halves between TAKE and REL, and the positions at which a rule breaks (R83, R91).
A register, broadcast vector or half that an instruction has written any part of counts as written (log entry 87). -/
def vecWalk (takes : List Nat) : List (Nat × VecInstr) → List Nat → List Nat → List Nat → List Nat
  | [], _, _, bad => bad
  | (p, i) :: rest, written, held, bad =>
    if i.opcode = 3 then
      let h := 32 + (halfOf i.src1).getD 0
      vecWalk takes rest (h :: written) (h :: held) (if held.contains h then p :: bad else bad)
    else if i.opcode = 4 then
      let h := 32 + (halfOf i.src1).getD 0
      vecWalk takes rest (written.filter (· ≠ h)) (held.filter (· ≠ h)) (if held.contains h then bad else p :: bad)
    else
      let reads := i.sources.flatMap storageOf
      let fresh := reads.any fun x => !written.contains x
      let out := reads.any fun x => takes.contains x && !held.contains x
      let w := match i.dest with
        | some d => storageOf d
        | none => []
      vecWalk takes rest (w ++ written) held (if fresh || out then p :: bad else bad)

/-- The field accesses of a stream in every iteration: the bytes read and written. -/
def VecStream.bytes (fs : List Field) (st : VecStream) : List (Nat × Nat) × List (Nat × Nat) :=
  let go := fun (acc : List (Nat × Nat × Nat)) (x : Nat × VecInstr) =>
    let n := (acc.filter fun y => y.1 = x.1).length
    acc ++ [(x.1, n, 0)]
  let runs := st.trace.foldl go []
  let ranges := fun (op : Nat) => runs.flatMap fun y =>
    match st.instrs[y.1]? with
    | some i =>
      if i.opcode ≠ op then []
      else match fs[i.desc.field]? with
        | some f =>
          let d := i.desc
          rectBytes f (d.startAt y.2.1) (if d.orient then d.rows else d.cols) (if d.orient then d.cols else d.rows)
        | none => []
    | none => []
  (ranges 1, ranges 2)

/-- The iterations that the instruction at a position runs: 1 outside a loop. -/
def itersAt (is : List VecInstr) (p : Nat) : Nat :=
  match (upTo p).find? fun q => match is[q]? with
    | some i => decide (i.opcode = 5) && decide (p ≤ q + bitsOf i.imm 39 32)
    | none => false with
  | some q => (is[q]?.map fun i => i.imm % 2 ^ 32).getD 1
  | none => 1

/-- An access lies in the field's extents in its first and its last iteration, and so in every one (R92); one that stores to an MX
or W64S field keeps the conditions of R93 in every iteration. -/
def accessInside (fs : List Field) (is : List VecInstr) (p : Nat) : Bool :=
  match is[p]? with
  | none => true
  | some i =>
    if i.opcode ≠ 1 ∧ i.opcode ≠ 2 then true
    else match fs[i.desc.field]? with
      | none => false
      | some f =>
        let d := i.desc
        [0, itersAt is p - 1].all fun n =>
          let st0 : Int := (d.start.getD d.advDim 0 : Nat) + d.adv * (n : Nat)
          decide (0 ≤ st0) && f.has (d.startAt n) && f.has (d.index n (d.rows - 1) (d.cols - 1)) &&
            (i.opcode = 1 || destOk f d.orient ((d.startAt n).getD 0 0) d.cols) &&
            (i.opcode = 1 || itersAt is p = 1 || d.advDim ≠ 0 || !f.mx || d.adv % 32 = 0)

/-- A vector stream. -/
def vecStreamBad (img : List Byte) (fs : List Field) (dcount dof o : Nat) : Bad :=
  let st := parseVecStream img dof o
  let off := fieldLE img (o + 8) 8
  let own := (upTo st.instrs.length).flatMap fun p =>
    need (vecInstrOk img fs dcount dof (off + 16 * p) st.modeB && loopOk st.instrs p) (off + 16 * p) ++
      vecDescBad img dcount dof (off + 16 * p) st.modeB
  if own ≠ [] then own
  else
    let takes := st.instrs.filterMap fun i => if i.opcode = 3 then (halfOf i.src1).map (32 + ·) else none
    ((vecWalk takes st.trace [] [] []).map fun p => off + 16 * p) ++
    (upTo st.instrs.length).flatMap fun p => need (accessInside fs st.instrs p) (off + 16 * p)

/-- The halves that a tile's DRAINs to its engine name, in order, with their offsets. -/
def drainsOf (img : List Byte) (d o : Nat) : List (Nat × Nat) :=
  let st := parseTileStream img d o
  (st.cmds.mapIdx fun j c => (fieldLE img (o + 8) 8 + 32 * j, c)).filterMap fun x =>
    if x.2.opcode = 4 ∧ x.2.r.route = 1 then some (x.1, 2 * x.2.r.tbuf + x.2.r.half.toNat) else none

/-! ### Assembly and solver streams against others (R62, R93) -/

/-- The bytes of the elements `lo` to `hi - 1` of a field by linear index. -/
def linearBytes (fs : List Field) (no lo hi : Nat) : List (Nat × Nat) :=
  match fs[no]? with
  | none => []
  | some f => (upTo (min hi f.size - lo)).map fun k =>
      let b := f.bitAddr (f.ofLinear (lo + k)) / 8
      (b, b + f.fmt.bits / 8)

/-- Every byte of a field. -/
def wholeField (fs : List Field) (no : Nat) : List (Nat × Nat) := (fs[no]?).elim [] (·.parts)

/-- The bytes that an assembly stream may read and write: an indexed access may reach every element of its field, and of DST
every one in the window (R101, R102). -/
def AsmStream.bytes (fs : List Field) (st : AsmStream) : List (Nat × Nat) × List (Nat × Nat) :=
  let run := fun (i : AsmInstr) no => linearBytes fs no i.start (i.start + i.count)
  let dst := fun (i : AsmInstr) =>
    if i.opcode = 1 ∨ i.directD then linearBytes fs i.dst (max i.start st.winLo) (min (i.start + i.count) st.winHi)
    else linearBytes fs i.dst st.winLo st.winHi
  (st.instrs.flatMap fun i =>
    if i.opcode = 1 then []
    else
      (if i.directS then run i i.src1 else run i i.sidx ++ wholeField fs i.src1) ++
      (if i.opcode ≠ 3 then [] else if i.directS then run i i.src2 else run i i.sidx2 ++ wholeField fs i.src2) ++
      (if i.immCoef then [] else run i i.coef) ++ (if i.directD then [] else run i i.didx) ++ (if i.acc then dst i else []),
   st.instrs.flatMap dst)

/-- The bytes that a solver stream reads and writes (Table 6-9). -/
def SolvStream.bytes (fs : List Field) (recs : List SolvRec) (st : SolvStream) : List (Nat × Nat) × List (Nat × Nat) :=
  let all := fun (pick : SolvCmd → List Nat) => st.cmds.flatMap fun c =>
    match recs.find? fun r => r.id = c.solver with
    | some r => (pick c).flatMap fun k => wholeField fs (r.fields.getD k 0)
    | none => []
  (all fun c => (solvAccess c).1, all fun c => (solvAccess c).2)

/-- The records of the solver list of a segment. -/
def solvRecs (img : List Byte) (i : Nat) : List SolvRec :=
  match listOff img i 1 with
  | some off => (recOffs img off).map (parseSolvRec img)
  | none => []

/-! ### Segments -/

/-- The parsed lists of a segment. -/
def fullSegment (img : List Byte) (i : Nat) : Segment :=
  let g := parseSegment img i
  let at_ := fun k => match listOff img i k with | some off => entries img k off | none => []
  let dof := fun k => match listOff img i k with | some off => fieldLE img (off + 0x10) 8 | none => 0
  { g with
    asm := (at_ 0).map (parseAsmStream img)
    solv := (at_ 1).map (parseSolvStream img)
    tile := (at_ 2).map (parseTileStream img (dof 2))
    vec := (at_ 3).map (parseVecStream img (dof 3))
    core := (at_ 4).map (parseThread img) }

/-- A segment names a field, for writing where asked (R98). -/
def Segment.names (g : Segment) (f : Nat) (write : Bool) : Bool := g.access.any fun x => decide (x.1 = f) && (x.2 || !write)

/-- Check each entry of a list with the numbers seen before it. -/
def eachEntry (num : Nat → Nat) (f : List Nat → Nat → Bad) (os : List Nat) : Bad :=
  (upTo os.length).flatMap fun j => f ((os.take j).map num) (os.getD j 0)

/-- The engine lists of a segment, record by record and stream by stream. -/
def listsBad (img : List Byte) (fs : List Field) (i : Nat) : Bad :=
  let g := parseSegment img i
  let ls := segLists img i
  match chainBad img ls with
  | b :: bs => b :: bs
  | [] =>
    let full := fullSegment img i
    ls.flatMap fun x =>
      let os := entries img x.1 x.2
      let dc := fieldLE img (x.2 + 4) 2
      let dof := fieldLE img (x.2 + 0x10) 8
      let num := fun m => fun o => fieldLE img o 2 % m
      let own :=
        if x.1 = 0 then eachEntry (num 4) (asmEntryBad img g.wake) os
        else if x.1 = 1 then
          (recOffs img x.2).flatMap (fun o => need (solvRecOk img fs o) o) ++
          eachEntry (num 4) (fun seen o => solvEntryBad img g.wake seen ((recOffs img x.2).map fun r => (parseSolvRec img r).id) o) os
        else if x.1 = 2 then eachEntry (num 256) (tileEntryBad img g.wake) os
        else if x.1 = 3 then eachEntry (num 16) (vecEntryBad img g.wake) os
        else eachEntry (num 512) (threadBad img) os
      if own ≠ [] then own
      else if x.1 = 0 then
        os.flatMap fun o => (upTo (fieldLE img (o + 4) 4)).flatMap fun j =>
          let c := fieldLE img (o + 8) 8 + 32 * j
          let a := parseAsmInstr img c
          match asmInstrBad img fs c with
          | [] => need (full.names a.dst true && a.reads.all fun f => full.names f false) c
          | bad => bad
      else if x.1 = 1 then
        os.flatMap fun o => (upTo (fieldLE img (o + 4) 4)).flatMap fun j =>
          let c := fieldLE img (o + 8) 8 + 16 * j
          let cmd := parseSolvCmd img c
          match (recOffs img x.2).find? fun r => (parseSolvRec img r).id = cmd.solver with
          | none => [c]
          | some r =>
            let rec_ := parseSolvRec img r
            let acc := solvAccess cmd
            need ((acc.1.all fun k => full.names (rec_.fields.getD k 0) false) &&
              (acc.2.all fun k => full.names (rec_.fields.getD k 0) true)) c
      else if x.1 = 2 then
        ((upTo dc).flatMap fun n => need (descForm img (dof + 32 * n)) (dof + 32 * n)) ++ os.flatMap (tileStreamBad img fs dc dof)
      else if x.1 = 3 then
        ((upTo dc).flatMap fun n => need (vecDescForm img fs (dof + 32 * n)) (dof + 32 * n)) ++ os.flatMap (vecStreamBad img fs dc dof)
      else []

/-- Streams of one segment against one another: DRAIN overlaps, reads of what another stream writes, windows, and the fill
order (R62, R91, R93, R100). -/
def crossBad (img : List Byte) (fs : List Field) (i : Nat) : Bad :=
  let g := fullSegment img i
  let os := fun k => match listOff img i k with | some off => entries img k off | none => []
  let dof := fun k => match listOff img i k with | some off => fieldLE img (off + 0x10) 8 | none => 0
  let tiles := (os 2).zip (g.tile.map fun st =>
    let bs := st.cmds.map (TileCmd.bytes fs)
    (bs.flatMap (·.1), bs.flatMap (·.2)))
  let vecs := (os 3).zip (g.vec.map (VecStream.bytes fs))
  let asmRw := fun (st : AsmStream) => (st.instrs.flatMap AsmInstr.sources, st.instrs.map (·.dst))
  let asms := (os 0).zip g.asm
  let asmBad := asms.flatMap fun x => asms.flatMap fun y =>
    if y.1 ≤ x.1 then []
    else
      let a := asmRw x.2
      let b := asmRw y.2
      need (!(decide (max x.2.winLo y.2.winLo < min x.2.winHi y.2.winHi) && a.2.any fun f => b.2.contains f) &&
        !(a.1.any fun f => b.2.contains f) && !(b.1.any fun f => a.2.contains f)) y.1
  let fill := (os 3).zip g.vec
  let fillBad :=
    ((os 2).flatMap fun o =>
      let t := fieldLE img o 2 % 256
      let ds := drainsOf img (dof 2) o
      match fill.find? fun x => decide (x.2.engine = vecOfTile t) && x.2.modeB with
      | none => ds.map (·.1)
      | some v =>
        let order := v.2.trace.filterMap fun y => if y.2.opcode = 3 ∧ y.2.imm % 256 = t then halfOf y.2.src1 else none
        need (decide (order = ds.map (·.2))) o) ++
    fill.flatMap fun v =>
      let named := (v.2.trace.filterMap fun y => if y.2.opcode = 3 then some (y.2.imm % 256) else none).eraseDups
      need (named.all fun t => decide (vecOfTile t = v.2.engine) && (os 2).any fun o => decide (fieldLE img o 2 % 256 = t)) v.1
  let others := g.asm.map (AsmStream.bytes fs) ++ g.solv.map (SolvStream.bytes fs (solvRecs img i))
  let tileBad := tiles.flatMap fun x => need (!(others.any fun y => anyMeet x.2.1 y.2 || anyMeet y.1 x.2.2)) x.1
  let vecBad := vecs.flatMap fun x =>
    need (!(others.any fun y => anyMeet x.2.1 y.2 || anyMeet y.1 x.2.2 || anyMeet x.2.2 y.2)) x.1
  conflicts (fun a b => anyMeet a.2 b.2 || anyMeet a.1 b.2) (tiles ++ vecs) ++ tileBad ++ vecBad ++ asmBad ++ fillBad

/-! ### Solvers across the image -/

/-- The solver lists of the image: segment and offset. -/
def solvLists (img : List Byte) : List (Nat × Nat) :=
  (upTo (segCount img)).filterMap fun i => (listOff img i 1).map fun off => (i, off)

/-- Every solver record of the image, by image offset. -/
def allRecs (img : List Byte) : List Nat := (solvLists img).flatMap fun x => recOffs img x.2

/-- The records: byte-identical for a SOLVER_ID, no list field written by an access list, and the streams of a record's
engines alike (R96, R98, R107). -/
def solversBad (img : List Byte) : Bad :=
  let bytesAt := fun o => (img.drop o).take 64
  let recs := allRecs img
  (recs.flatMap fun o => need (recs.all fun q =>
    decide ((parseSolvRec img q).id ≠ (parseSolvRec img o).id) || decide (o ≤ q) || decide (bytesAt q = bytesAt o)) o) ++
  ((upTo (segCount img)).flatMap fun i =>
    let so := segOff img + 32 * i
    let acc := fieldLE img (so + 0x18) 8
    (upTo (fieldLE img (so + 0x12) 2)).flatMap fun k =>
      let e := fieldLE img (acc + 2 * k) 2
      need (!bitOf e 15 || recs.all fun o => [0, 1, 2, 8].all fun r => decide ((parseSolvRec img o).fields.getD r 0 ≠ e % 4096))
        (acc + 2 * k)) ++
  ((solvLists img).flatMap fun x =>
    let sts := (entries img 1 x.2).map fun o => (o, parseSolvStream img o)
    sts.flatMap fun y =>
      (upTo y.2.cmds.length).flatMap fun j =>
        match y.2.cmds[j]? with
        | none => []
        | some c =>
          match (recOffs img x.2).find? fun o => (parseSolvRec img o).id = c.solver with
          | none => []
          | some o =>
            need ((parseSolvRec img o).engines.contains y.2.engine && (parseSolvRec img o).engines.all fun e =>
              match sts.find? fun z => z.2.engine = e with
              | some z => decide (z.2.cmds = y.2.cmds)
              | none => false) (fieldLE img (y.1 + 8) 8 + 16 * j))

/-- Every check that R19 reports as E_BADCMD with an image offset, after the header. -/
def tablesBad (img : List Byte) : Bad :=
  let fs := (upTo (fieldCount img)).map (parseField img)
  let segs := upTo (segCount img)
  let first := segs.flatMap (segmentBad img) ++ (upTo (fieldCount img)).flatMap (fieldBad img) ++ nodesBad img
  if first ≠ [] then first
  else
    match segs.flatMap (listsBad img fs) with
    | [] => segs.flatMap (crossBad img fs) ++ solversBad img
    | bad => bad

/-! ### The job -/

/-- The records of the job, one for each SOLVER_ID, with the image offset of the first. -/
def jobRecs (img : List Byte) : List (Nat × SolvRec) :=
  (allRecs img).foldl (fun acc o =>
    if acc.any fun x => x.2.id = (parseSolvRec img o).id then acc else acc ++ [(o, parseSolvRec img o)]) []

/-- The job of an image without its solvers. -/
def baseJob (img : List Byte) (base sess : Nat) : Job :=
  { base := base, len := img.length, sess := sess, collCount := collCountOf img, fprint := fieldLE img 0x10 8
    partCount := partCountOf img, nodes := parseNodes img
    fields := (upTo (fieldCount img)).map (parseField img)
    segs := (upTo (segCount img)).map (fullSegment img) }

/-- The bytes that a role needs, in elements of its format (Table 6-2), from a compiled pattern. -/
def roleNeed (r : SolvRec) (c : Schedule) (nnz k : Nat) : Nat :=
  if k = 0 then r.n + 1 else if k = 1 ∨ k = 3 then nnz else if k = 2 then r.n
  else if k = 8 then (c.bytes r.n r.engines).length / 8 + (if (c.bytes r.n r.engines).length % 8 = 0 then 0 else 1)
  else if k = 9 then (c.factorBytes + 7) / 8
  else if k = 10 then 4 else if k = 11 then 16 else r.n * r.nrhs

/-- One solver record against memory: sizes, pattern and limits (R96, R97, R99, R105). COLIDX and VAL hold exactly NNZ elements
(Table 6-2). The state holds the job. -/
def State.solverErr (s : State) (o : Nat) (r : SolvRec) : Option LoadErr :=
  let sizeErr := fun (k need_ : Nat) => (s.role r k).bind fun f =>
    if f.size < need_ then some (⟨eRange, f.no, (need_ * f.fmt.bits / 8 + 1023) / 1024⟩ : LoadErr) else none
  match sizeErr 0 (r.n + 1) with
  | some e => some e
  | none =>
    let rp := s.elems (r.fields.getD 0 0) (r.n + 1)
    let held := fun k => (s.role r k).elim 0 (·.size)
    match rowptrBreak r.n rp with
    | some k =>
      -- only rows before the broken one, as far as COLIDX holds them, can be judged
      let rows := ((upTo k).takeWhile fun i => decide (rp.getD (i + 1) 0 ≤ held 1)).length
      let p : Pattern := ⟨r.n, rp, s.elems (r.fields.getD 1 0) (rp.getD rows 0), s.elems (r.fields.getD 2 0) (min r.n (held 2))⟩
      some ⟨eBadcmd, o, (p.broken rows).getD k⟩
    | none =>
      let nnz := rp.getD r.n 0
      match [1, 2, 3].findSome? fun k => sizeErr k (if k = 2 then r.n else nnz) with
      | some e => some e
      | none =>
        if nnz < held 1 ∨ nnz < held 3 then some ⟨eBadcmd, o, 0⟩
        else
          let p := s.patternOf r
          match p.broken r.n with
          | some row => some ⟨eBadcmd, o, row⟩
          | none =>
            let c := compilePattern p r.engines r.minCb
            if 32768 < c.maxFront then some ⟨eRange, o, c.maxFront⟩
            else if 2 ^ 24 < c.tasks.length then some ⟨eRange, o, c.tasks.length⟩
            else [4, 5, 6, 7, 8, 9, 10, 11].findSome? fun k => sizeErr k (roleNeed r c nnz k)

/-- FACTOR of a record with OFFLOAD supernodes needs FEED streams on the dies of their engines, and only there (R109). -/
def Job.feedErr (j : Job) (img : List Byte) (v : Solver) : Option LoadErr :=
  (upTo j.segs.length).findSome? fun i =>
    match j.segs[i]? with
    | none => none
    | some g =>
      let owners := (v.sched.nodes.filter (·.offload)).map (·.engine)
      let feeds := g.tile.filter (·.feed)
      if g.solv.any fun st => st.cmds.any fun c => decide (c.opcode = 1) && decide (c.solver = v.record.id) then
        if owners.any fun e => !(feeds.any fun t => decide (t.tile / 64 = e)) then
          (listOff img i 1).map fun off => ⟨eBadcmd, off + 32, 0⟩
        else none
      else none

/-- A FEED stream on a die whose engine holds no OFFLOAD supernode of a FACTOR of its segment (R109): its entry's offset. -/
def Job.feedBad (j : Job) (img : List Byte) : Bad :=
  (upTo j.segs.length).flatMap fun i =>
    match j.segs[i]?, listOff img i 2 with
    | some g, some off =>
      (upTo g.tile.length).flatMap fun k =>
        match g.tile[k]? with
        | some t =>
          need (!t.feed || j.solvers.any fun v =>
            (g.solv.any fun st => st.cmds.any fun c => decide (c.opcode = 1) && decide (c.solver = v.record.id)) &&
            v.sched.nodes.any fun n => n.offload && decide (n.engine = t.tile / 64)) (off + 32 + 16 * k)
        | none => []
    | _, _ => []

/-- Check an image and build the job, or the refusal: header, tables and lists, R22, the node set, the placement, then the
solvers (R19). The order of the classes of checks is in log entry 16. -/
def State.parseImage (s : State) (img : List Byte) (base sess : Nat) : LoadErr ⊕ Job :=
  match headerBad img with
  | o :: _ => .inl ⟨eBadcmd, o, 0⟩
  | [] =>
    match refuseBad (tablesBad img) with
    | some e => .inl e
    | none =>
      let j := baseJob img base sess
      match raceErr j.segs with
      | some e => .inl e
      | none =>
        if !j.nodes.contains s.nodeId then .inl ⟨eRange, s.nodeId, 0⟩
        else
          match s.placementErr j.fields with
          | some e => .inl e
          | none =>
            let s1 := { s with job := some j }
            match (jobRecs img).findSome? fun x => s1.solverErr x.1 x.2 with
            | some e => .inl e
            | none =>
              let vs := (jobRecs img).map fun x => (⟨x.2, compilePattern (s1.patternOf x.2) x.2.engines x.2.minCb⟩ : Solver)
              let j1 := { j with solvers := vs }
              match vs.findSome? (j1.feedErr img), refuseBad (j1.feedBad img) with
              | some e, _ => .inl e
              | none, some e => .inl e
              | none, none => .inr j1

end Sys2Proof.Machine
end

