-- ==== Sys2Proof/Machine/Ledger.lean ====
section
/-!
DEFINITION. The target side of the transaction engine: answers, the ledger and the input hold (R204 to R206).
-/

namespace Sys2Proof

/-- FLAGS.KEYED (Table 10-2). -/
def Req.keyed (q : Req) : Bool := Machine.bitOf q.flags.toNat 0

/-- The key of a keyed payload. -/
def Req.key (q : Req) : Nat := Machine.fieldLE q.payload 0 8 % 2 ^ 40

/-- The payload without its key. -/
def Req.body (q : Req) : List Byte := if q.keyed then q.payload.drop 8 else q.payload

end Sys2Proof

namespace Sys2Proof.Machine

/-- Ledger entries (R204). -/
abbrev ledgerSize : Nat := 262144

/-- TYPE of the answer to a request: RSP_ERR, RSP_DATA where the request returns data, RSP_ACK otherwise (Table 10-3). -/
def rspCode (typ : ReqType) (err : Nat) : Nat :=
  if err ≠ 0 then 0x12
  else
    match typ with
    | .load | .atomic | .objGet => 0x10
    | .store | .atomicP | .blockAdd | .mcast | .coll | .objPut | .floorUpd | .nodeReport => 0x11

/-- Send a response (Table 10-4): TAG and SEQ echoed, AGE 0 at the send. -/
def State.respond (s : State) (code : Nat) (q : Req) (err : Nat) (dup : Bool) (data : List Byte) : State :=
  s.inject (q.src.toNat % 2 ^ 14) (.response (BitVec.ofNat 8 code)
    { err := BitVec.ofNat 8 err, flags := BitVec.ofNat 8 dup.toNat, src := BitVec.ofNat 16 s.nodeId, dst := q.src
      tag := q.tag, age := 0, seq := q.seq, data := if err = 0 then data else [] })

/-- Answer a request. -/
def State.answer (s : State) (typ : ReqType) (q : Req) (err : Nat) (dup : Bool) (data : List Byte) : State :=
  s.respond (rspCode typ err) q err dup data

/-- The request is of the system stream (R196). -/
def reqSys (q : Req) : Bool := decide (2 ≤ q.orig.toNat % 8)

/-- The key of the stream a request arrived on. -/
def reqStream (q : Req) : Nat := streamKey (q.src.toNat % 2 ^ 14) (reqSys q)

/-- The ledger entry of a request's source, stream and sequence. -/
def State.ledgerFind (s : State) (q : Req) : Option LedgerEntry :=
  s.fxp.ledger.find? fun e => decide (e.src = q.src.toNat % 2 ^ 14) && decide (e.sys = reqSys q) && decide (e.seq = q.seq.toNat)

/-- The ledger has no room. -/
def State.ledgerFull (s : State) : Bool := decide (ledgerSize ≤ s.ledgerUsed)

/-- Two requests are copies of one another. -/
def sameReq (p q : Req) : Bool := decide (reqStream p = reqStream q) && decide (p.seq = q.seq)

/-- A copy of a request already answered is dropped, or answered from the ledger; none for any other request (R204). -/
def State.served (s : State) (typ : ReqType) (q : Req) : Option State :=
  if seqLt q.seq.toNat (SMap.get 0 s.fxp.floors (reqStream q)) then some (s.bump rFxpDupDrop)
  else
    match s.ledgerFind q with
    | some e => some ((s.bump rFxpDupHit).answer typ q e.err true e.result)
    | none => none

/-- Enter the result of a performed request and answer it (R204); an error is kept with its code, so that a copy is refused
again. -/
def State.finish (s : State) (typ : ReqType) (q : Req) (err : Nat) (data : List Byte) : State :=
  let e : LedgerEntry := ⟨q.src.toNat % 2 ^ 14, reqSys q, q.seq.toNat, s.now, err, data⟩
  ({ s with fxp := { s.fxp with ledger := s.fxp.ledger ++ [e] } }).answer typ q err false data

/-- The bytes of the input hold in use, and its size (R206). -/
def State.holdBytes (s : State) : Nat := (s.fxp.hold.map fun h => 32 + h.req.payload.length).sum
abbrev holdSize : Nat := 0x100000

/-- The input hold has no room for another request, so that the request channels of the ports stop (R206). -/
def State.holdFull (s : State) : Bool := decide (holdSize < s.holdBytes + 32 + 4096)

/-- Hold a request in the input hold (R206, R256, R258); a hold for want of a ledger entry is counted. -/
def State.holdReq (s : State) (typ : ReqType) (q : Req) (forHome : Bool) : State :=
  let s1 := { s with fxp := { s.fxp with hold := s.fxp.hold ++ [⟨typ, q, s.now, forHome⟩] } }
  if forHome then s1
  else
    let s2 := if s1.rd rFxpLedgerFull = 0 then s1.raise tyFxp 0 eLedger (q.src.toNat % 2 ^ 14) 0 else s1
    s2.bump rFxpLedgerFull

end Sys2Proof.Machine
end

