-- ==== Sys2Proof/Machine/Notify.lean ====
section
/-!
DEFINITION. Node reports and scheduler events (R37, R38, R221, R246).
-/

namespace Sys2Proof.Machine

/-! ### Reports (R221, R246) -/

/-- Send a report. -/
def State.sendReport (s : State) (b : List Byte) : State := (s.postReport b).pump

/-- Report an event of this node. -/
def State.report (s : State) (kind err subject : Nat) : State := s.sendReport (s.reportBytes kind err subject)

/-! ### Scheduler events (R37, R38) -/

/-- Set EVT of the SCH page: a change from clear sends an EVENT report (R246). -/
def State.evtInt (s : State) : State :=
  let s1 := s.setInt tySch 0 iEvt
  if bitOf (s.hdr tySch 0 hIntStat) 1 then s1 else s1.report 0x10 0 (s.nodeId % 32)

/-- Keep COUNT of SCH_EVT_STAT equal to the queue's length. -/
def State.setEvents (s : State) (es : List EventRec) : State :=
  ({ s with sched := { s.sched with events := es } }).setFld rSchEvtStat 5 0 es.length

/-- Drop the oldest STEP_DONE record, or the oldest record. -/
def dropEvent (es : List EventRec) : List EventRec :=
  match es.find? fun e => e.kind = 1 with
  | some e => es.erase e
  | none => es.drop 1

/-- Post an event record (R37); a full queue discards one first (R38). -/
def State.postEvent (s : State) (kind reason err : Nat) : State :=
  let seq := (s.sched.evtSeq + 1) % 2 ^ 32
  let e : EventRec := ⟨kind, reason, err, seq, s.rd rSchStep⟩
  let full := decide (32 ≤ s.sched.events.length)
  let es := if full then dropEvent s.sched.events else s.sched.events
  let s1 := { s with sched := { s.sched with evtSeq := seq } }
  let s2 :=
    if full then
      (s1.setFld rSchEvtStat 31 16 (min (s1.fld rSchEvtStat 31 16 + 1) 0xFFFF)).setFlag rSchEvtStat 6 true
    else s1
  (s2.setEvents (es ++ [e])).evtInt

/-- The bytes of an event record (R37). -/
def EventRec.bytes (e : EventRec) : List Byte :=
  bytesLE 1 e.kind ++ bytesLE 1 e.reason ++ bytesLE 1 e.err ++ [0] ++ bytesLE 4 e.seq ++ bytesLE 8 e.step

end Sys2Proof.Machine
end

