-- ==== Sys2Proof/Machine/Roundabout.lean ====
section
/-!
DEFINITION. The Roundabout's planning, quantum by quantum, and LOADSTEP_N (R302, R303, R305, R306, R307).
-/

namespace Sys2Proof.Machine

/-! ### Planning (R303, R305, R307) -/

/-- A rail has no room: a LOADSTEP bit of its mask rose less than 1 us ago (R307). -/
def Power.blocked (p : Power) (r : Nat) : Bool :=
  let m := p.masks.getD r 0
  (upTo 4).any fun i =>
    let rose := SMap.get 0 p.rise i
    bitOf m i && decide (rose ≠ 0) && decide (p.quantum < rose - 1 + 4)

/-- The step budgets in uA. -/
def State.budgets (s : State) : List Nat := (upTo 14).map fun r => bitsOf (s.rd rPwrBudget 0 (4 * r)) 15 0 * 100000

/-- Count a deferral (R305). -/
def State.deferWake (s : State) (d n : Nat) : State :=
  let s1 := s.bump rPwrWakeDefer
  let s2 := s1.wr rPwrDeferMax (max (s1.rd rPwrDeferMax) n)
  let s2 := s2.fwLog 0 2 0x020 d n true
  if s2.power.deferSeen then s2
  else ({ s2 with power := { s2.power with deferSeen := true } }).raise tyPwr 0 eWakeDefer d n

/-- Plan the units of one waiting request into a quantum while they fit; `room` is what each rail has left, and the answer
carries it on. -/
def State.planOne (s : State) (w : WakeReq) (room : List Int) : Nat → State × WakeReq × List Int
  | 0 => (s, w, room)
  | fuel + 1 =>
    if w.left = 0 then (s, w, room)
    else
      let p := s.power
      let t := p.quantum + 8
      let have_ := p.projected w.dom
      let u := if w.up then have_ else have_ - 1
      let pred := p.predictAll w.dom u
      let bud := s.budgets
      let first := decide (w.left = w.units)
      if (upTo 14).any fun r => decide (0 < pred.getD r 0) && p.blocked r then
        (s, { w with held := w.held || (first && decide (w.earliest ≤ t)) }, room)
      else
        let fits := (upTo 14).all fun r => decide (bud.getD r 0 = 0) || decide ((pred.getD r 0 : Int) ≤ room.getD r 0)
        let alone := !(p.plan.any fun x => x.quantum = t)
        if !fits && !alone then (s, w, room)
        else
          let room' := (upTo 14).map fun r => room.getD r 0 - (pred.getD r 0 : Int)
          let s1 := { s with power := { p with plan := p.plan ++ [(⟨t, w.dom, u, w.up, pred⟩ : PlannedUnit)] } }
          let s2 := if first && decide (w.earliest < t) && (w.up || w.held) then s1.deferWake w.dom (t - w.earliest) else s1
          s2.planOne { w with left := w.left - 1 } room' fuel

/-- Plan every waiting request in queue order. -/
def State.planQueue (s : State) (room : List Int) : List WakeReq → State × List WakeReq
  | [] => (s, [])
  | w :: ws =>
    let (s1, w1, room1) := s.planOne w room 64
    let (s2, rest) := s1.planQueue room1 ws
    (s2, if w1.left = 0 then rest else w1 :: rest)

/-- LOADSTEP bits that some planned step of the quanta from the present one on asserts. -/
def Power.announced (p : Power) : Nat :=
  p.plan.foldl (fun m x =>
    if p.quantum ≤ x.quantum then
      (upTo 14).foldl (fun k r => if 0 < x.pred.getD r 0 then k ||| p.masks.getD r 0 else k) m
    else m) 0

/-- Drive LOADSTEP_N and PWR_STAT.LOADSTEP; a bit that rises is remembered (R307). -/
def State.driveLoadstep (s : State) (low : Nat) : State :=
  let old := s.pins.loadstep
  let rise := (upTo 4).foldl (fun m i =>
    if bitOf old i && !bitOf low i then SMap.set 0 m i (s.power.quantum + 1) else m) s.power.rise
  ({ s with pins := { s.pins with loadstep := low }, power := { s.power with rise := rise } }).setFld rPwrStat 27 24 low

/-- The measured share of one ungated unit on a rail: the rail's rise shared in proportion to the predictions (R302). -/
def shareOf (rise : Int) (pred total : Nat) : Nat := if total = 0 then 0 else rise.toNat * pred / total

/-- Take the measurements of the quantum that ends: the rise of each rail is shared among the units ungated in it (R302). -/
def State.measure (s : State) (rises : List Int) (ended : List PlannedUnit) : State :=
  let ups := ended.filter fun x => x.up && !s.power.dead.contains x.dom
  ups.foldl (fun t x =>
    let shares := (upTo 14).filterMap fun r =>
      let pr := x.pred.getD r 0
      if pr = 0 then none
      else some (r, pr, shareOf (rises.getD r 0) pr ((ups.map fun y => y.pred.getD r 0).foldl (· + ·) 0))
    let hist := shares.foldl (fun h y =>
      SMap.set [] h (16 * x.dom + y.1) ((y.2.2 :: SMap.get [] h (16 * x.dom + y.1)).take 4)) t.power.hist
    let miss := shares.any fun y => decide (9 * y.2.1 < 8 * y.2.2)
    let t1 := { t with power := { t.power with hist := hist } }
    if miss then t1.bump rPwrPredMiss else t1) s

/-- The start of a quantum: the last one's measurements, the units gated and ungated now, the rises of LOADSTEP_N, and the
plan of the quantum that begins 2 us later (R302, R303, R306, R307). -/
def State.quantum (s : State) (rises : List Int) : State :=
  let q := s.power.quantum + 1
  let ended := s.power.plan.filter fun x => x.quantum < q
  let s1 := s.measure rises ended
  let now := s1.power.plan.filter fun x => x.quantum = q && !s1.power.dead.contains x.dom
  let up := now.foldl (fun m x =>
    let n := SMap.get 0 m x.dom
    SMap.set 0 m x.dom (if x.up then n + 1 else n - 1)) s1.power.up
  let s2 := { s1 with now := s1.now + 250, power := { s1.power with
    quantum := q, up := up, plan := s1.power.plan.filter fun x => q ≤ x.quantum } }
  let s3 := s2.driveLoadstep (s2.pins.loadstep &&& s2.power.announced)
  let (s4, queue) := s3.planQueue (s3.budgets.map Int.ofNat) s3.power.queue
  let s5 := { s4 with power := { s4.power with queue := queue } }
  (s5.driveLoadstep s5.power.announced).syncClk

end Sys2Proof.Machine
end

