-- ==== Sys2Proof/Machine/SecBase.lean ====
section
/-!
DEFINITION. The enclave's message buffer and command response, the fine telemetry and its readout (R323, R332, R333, R345).
-/

namespace Sys2Proof.Machine

/-- Bytes of the message buffer (R323). -/
def State.msgBytes (s : State) (off n : Nat) : List Byte := (upTo n).map fun i => SMap.get 0 s.sec.msg (off + i)

/-- Write bytes of the message buffer; bytes past its end are dropped. -/
def State.putMsg (s : State) (off : Nat) (bs : List Byte) : State :=
  let m := (bs.zip (upTo bs.length)).foldl (fun m x => if off + x.2 < 16384 then SMap.set 0 m (off + x.2) x.1 else m) s.sec.msg
  { s with sec := { s.sec with msg := m } }

/-- A SEC command completes (R345, Table 16-10). -/
def State.secDone (s : State) (err : Nat) : State :=
  ((s.wr rSecRsp (err * 256 + 2)).setFlag rHifStat 1 false).setInt tySec 0 iDone

/-! ### Fine telemetry (R332) -/

/-- The sum of a step counter over the instances of its type. -/
def State.stepSum (s : State) (r : Nat × Nat) : Nat :=
  (upTo (instCount r.1)).foldl (fun acc i => acc + (s.regView r.1 i r.2).toNat) 0

/-- The end of a step: the values that the coarse view adds up (R332). -/
def State.stepEnd (s : State) : State :=
  let sums := stepRegs.foldl (fun m r => SMap.set 0 m (4096 * r.1 + r.2) (s.stepSum r)) s.tele.sums
  { s with tele := { s.tele with sums := sums }, fresh := s.fresh + 1 }

/-- The fine telemetry by block type, instance and offset (R332). -/
def State.fineEntries (s : State) : List (Nat × Nat × Nat × Nat) :=
  (stepRegs.flatMap fun r => (upTo (instCount r.1)).map fun i => (r.1, i, r.2, (s.regView r.1 i r.2).toNat)) ++
  [(tyPwr, 0, 0x88, s.rd rPwrNodePower)] ++
  ((upTo 14).map fun k => (tyPwr, 0, 0x100 + 8 * k, bitsOf (s.rd rPwrRail 0 (8 * k)) 31 16 * 2 ^ 16)) ++
  [(tyThm, 0, 0x84, s.rd rThmTmax), (tyThm, 0, 0x90, s.rd rThmHbmMax)] ++
  ((upTo 32).map fun k => (tyThm, 0, 0x100 + 4 * k, s.rd rThmSensor 0 (4 * k)))

/-- READOUT: the snapshot, sealed under KN, in the message buffer (R333; the layout of header and entry inside their stated
sizes is in log entry 15). -/
def State.readout (s : State) : State :=
  let es := s.fineEntries
  let no := s.rd rSecReadoutNo
  let header := bytesLE 4 0x444C4554 ++ bytesLE 2 (s.fld rSecStat 31 16) ++ bytesLE 2 0 ++ bytesLE 8 (s.rd rSchStep) ++
    bytesLE 4 es.length ++ List.replicate 12 0
  let body := es.flatMap fun e => bytesLE 2 (e.1 * 512 + e.2.1) ++ bytesLE 2 e.2.2.1 ++ bytesLE 8 e.2.2.2
  let sealed_ := gcmSeal s.sec.kn (List.replicate 8 0xFF ++ bytesLE 4 no) [] (header ++ body)
  let s1 := s.putMsg 0 sealed_
  (({ s1 with sec := { s1.sec with readoutDue := false } }).wr rSecReadoutNo (no + 1)).secDone eNone

/-- A READOUT that waits for the step boundary (R333). -/
def State.readoutAtBoundary (s : State) : State := if s.sec.readoutDue then s.readout else s

end Sys2Proof.Machine
end

