-- ==== Sys2Proof/Machine/SchedBase.lean ====
section
/-!
DEFINITION. The scheduler's shared operations: host command completion, segments, dispatch, hold, the end of a job (R21 to R24,
R28 to R36, R345).
-/

namespace Sys2Proof.Machine

/-! ### Small operations -/

/-- Put registers of every page of a type back to their reset values. -/
def State.clearRegs (s : State) (ty : Nat) (offs : List Nat) : State :=
  { s with regs := s.regs.filter fun e => decide (e.1 / 4096 / 512 ≠ ty) || !offs.contains (e.1 % 4096) }

/-- Put the page headers' error registers of a type back to 0 where they hold a code that is first in a job (R356); `ctr` says
whether the page has met the event in this job. -/
def State.clearFirst (s : State) (ty : Nat) (codes : List Nat) (ctr : State → Nat → Bool := fun _ _ => true) : State :=
  (upTo (instCount ty)).foldl (fun t i =>
    if codes.contains (t.hdr ty i hErrCode) && ctr t i then
      ((t.setHdr ty i hErrCode 0).setHdr ty i hErrInfo0 0).setHdr ty i hErrInfo1 0
    else t) s

/-- The node set of the loaded job. -/
def State.nodeSet (s : State) : List Nat :=
  match s.job with
  | some j => j.nodes
  | none => []

/-- A HIF command completes: ERR, SEQ, DONE, and the HIF_DONE report (R345, R346, R357). -/
def State.hifDone (s : State) (seq err : Nat) : State :=
  ((((s.wr rHifRsp (seq % 2 ^ 16 * 2 ^ 16 + err * 256 + 2)).setFlag rHifStat 0 false).setInt tyHif 0 iDone)).report 0x11 0
    (s.nodeId % 32)

/-- Restart the heartbeat timer (R35). -/
def State.heartbeat (s : State) : State := { s with sched := { s.sched with hbStart := some s.now, lapsed := false } }

/-! ### LLM modes (R152) -/

/-- Set the scratchpad regions of a die: a region that changes is filled with zeros (Table 8-3). -/
def State.setLlmDie (s : State) (k mode : Nat) : State :=
  let old := s.rd rLlmRegMode k
  let s1 := (upTo 16).foldl (fun t r =>
    if bitOf old r = bitOf mode r then t else t.zeroRange (llmBase + k * 0x8000000 + r * 0x800000) 0x800000) s
  (s1.wr rLlmRegMode mode k).setFlag rLlmStat 1 (decide (mode % 2 ^ 16 = 0xFFFF)) k

/-- The scratchpad regions of a die that fields need. -/
def llmModeOf (fs : List Field) (k : Nat) : Nat :=
  (upTo 16).foldl (fun m r =>
    let lo := llmBase + k * 0x8000000 + r * 0x800000
    if (fs.filter (·.llm)).any fun f => f.parts.any fun p => meets p (lo, lo + 0x800000) then m ||| 2 ^ r else m) 0

/-- A die gives up its scratchpad regions at the end of a job (Table 8-3). -/
def State.dropLlmDie (s : State) (k : Nat) : State :=
  let s1 := (s.setLlmDie k 0).setFlag rLlmStat 0 false k
  { s1 with cal := { s1.cal with llmDrop := s1.cal.llmDrop.filter (· ≠ k) } }

/-- The scratchpad regions of the job that ends are given up; on a die with a channel in RETRAIN the change waits for its REPLAY, which
MODE_CHANGE shows (R152, R176). -/
def State.dropLlmModes (s : State) : State :=
  (upTo 4).foldl (fun t k =>
    if t.dieRetrains k && t.anyScratch k then
      ({ t with cal := { t.cal with llmDrop := k :: t.cal.llmDrop.filter (· ≠ k) } }).setFlag rLlmStat 0 true k
    else t.dropLlmDie k) s

/-- The LLM modes of a die change for the fields of a job, or a change is still due. -/
def State.llmDue (s : State) (fs : List Field) (k : Nat) : Bool :=
  s.cal.llmDrop.contains k || decide (llmModeOf fs k ≠ s.rd rLlmRegMode k)

/-- A change of LLM modes for the fields of a job waits for the REPLAY of a die (R176). -/
def State.llmHeld (s : State) (fs : List Field) : Bool := (upTo 4).any fun k => s.llmDue fs k && s.dieRetrains k

/-- A load is in progress: its changes of LLM modes are pending (LLM_STAT.MODE_CHANGE). -/
def State.llmPend (s : State) (fs : List Field) : State := (upTo 4).foldl (fun t k => t.setFlag rLlmStat 0 (t.llmDue fs k) k) s

/-- Set the LLM modes for the fields of a job (R152). -/
def State.setLlmModes (s : State) (fs : List Field) : State :=
  (upTo 4).foldl (fun t k =>
    let t1 := if t.cal.llmDrop.contains k then t.dropLlmDie k else t
    (t1.setLlmDie k (llmModeOf fs k)).setFlag rLlmStat 0 false k) s

/-! ### Segments (R21, R23, R24) -/

/-- The domains of a WAKE_MASK (Table 2-2). -/
def wakeDomains (mask : Nat) : List Nat := (upTo 12).filterMap fun i => if bitOf mask i then some (5 + i) else none

/-- The segments of the loaded job. -/
def State.segments (s : State) : List Segment :=
  match s.job with
  | some j => j.segs
  | none => []

/-- The state of a segment in the present step. -/
def State.segState (s : State) (i : Nat) : SegState := s.sched.segs.getD i .waiting

/-- A segment waits and its predecessors have completed. -/
def State.segReady (s : State) (i : Nat) : Bool :=
  match s.segments[i]? with
  | some g => s.sched.stepping && decide (s.segState i = .waiting) && g.preds.all fun p => decide (s.segState p = .done)
  | none => false

/-- Hold the grants of the domains that running and ready segments name, and no others (R21, R24). -/
def State.syncPhase (s : State) : State :=
  let active := (upTo s.segments.length).filter fun i => s.segReady i || decide (s.segState i = .running)
  let doms := active.flatMap fun i => wakeDomains ((s.segments[i]?).elim 0 (·.wake))
  ({ s with power := { s.power with phase := (upTo 25).filter fun d => doms.contains d } }).syncGrants

/-- Give every listed unit its stream and an empty store (R58, R83, R122). -/
def State.startStreams (s : State) (i : Nat) (g : Segment) : State :=
  let s1 := g.tile.foldl (fun t x =>
    (t.wr rTileCmdDone 0 x.tile).setTile x.tile { seg := some i, feed := x.feed, raised := (t.tile x.tile).raised }) s
  let s2 := g.vec.foldl (fun t x => (t.wr rVecInstrDone 0 x.engine).setVec x.engine { seg := some i, modeB := x.modeB }) s1
  let s3 := g.asm.foldl (fun t x => (t.wr rAsmInstrDone 0 x.unit).setAsm x.unit { seg := some i }) s2
  let s4 := g.solv.foldl (fun t x =>
    { (t.wr rSolvCmdDone 0 x.engine) with solvEngs := SMap.set {} t.solvEngs x.engine { seg := some i } }) s3
  g.core.foldl (fun t x => (t.startThread x).setFld rCoreStat 23 16 (i % 256) (x.thread / 8)) s4

/-- Every stream of a segment has completed (R61, R84, R103, R107, R122). -/
def State.streamsDone (s : State) (g : Segment) : Bool :=
  (g.tile.all fun x =>
    let t := s.tile x.tile
    if x.feed then !t.feed else decide (x.cmds.length ≤ t.pos) && t.waiting.isNone) &&
  (g.vec.all fun x => decide (x.instrs.length ≤ (s.vec x.engine).pc) && (s.vec x.engine).loop.isNone) &&
  (g.asm.all fun x => decide (x.instrs.length ≤ (s.asm x.unit).pos)) &&
  (g.solv.all fun x => decide (x.cmds.length ≤ (s.eng x.engine).pos)) &&
  g.core.all fun x => decide ((s.thread x.thread).run = .halted)

/-- Take the streams of a completed segment away; nothing of their stores is kept. -/
def State.endStreams (s : State) (g : Segment) : State :=
  let s1 := g.tile.foldl (fun t x => t.setTile x.tile { raised := (t.tile x.tile).raised }) s
  let s2 := g.vec.foldl (fun t x => t.setVec x.engine {}) s1
  let s3 := g.asm.foldl (fun t x => t.setAsm x.unit {}) s2
  let s4 := g.solv.foldl (fun t x =>
    { t with solvEngs := SMap.set {} t.solvEngs x.engine {} }) s3
  g.core.foldl (fun t x => (t.setThread x.thread {}).setFld rCoreStat 23 16 0xFF (x.thread / 8)) s4

/-! ### Hold, dispatch and the end of a job -/

/-- A hold or end target is reached (R33). -/
def State.targetReached (s : State) : Bool := s.sched.holdOn && decide (s.rd rSchHoldAt ≤ s.rd rSchStep)

/-- The lowest-numbered reason for a hold that applies after a completed step (R29, Table 2-10, R36). -/
def State.holdReason (s : State) : Option Nat :=
  let stop := s.rd rSchStopAt
  let rs :=
    (if s.targetReached then
      (if s.sched.causes = [] then [5] else s.sched.causes) ++ (if s.flag rSchState 7 then [4] else [])
     else []) ++
    (if s.sched.counted ∧ s.rd rSchRunLeft = 0 then [2] else []) ++
    (if stop ≠ 0 ∧ stop = s.rd rSchStep then [3] else [])
  rs.foldl (fun m r => some (match m with | some x => min x r | none => r)) none

/-- Enter HOLD (R32): the event and the log entry carry the reason. -/
def State.enterHold (s : State) (reason : Nat) : State :=
  let s1 := { s with sched := { s.sched with counted := false, causes := [], ckptDue := false } }
  (((s1.setJobState stHold).setFld rSchState 19 16 reason).postEvent 2 reason 0).fwLog 4 2 0x012 reason (s.rd rSchHoldAt)

/-- The step that is running is the last before a HOLD or END (DRAINING of Table 2-10). -/
def State.lastStep (s : State) : Bool :=
  s.targetReached || (s.sched.counted && decide (s.rd rSchRunLeft = 1)) ||
    (decide (s.rd rSchStopAt ≠ 0) && decide (s.rd rSchStopAt = s.rd rSchStep))

/-- Dispatch the next step (R28), or hold where the counter is exhausted. -/
def State.dispatch (s : State) : State :=
  let n := s.rd rSchStep
  if n = 2 ^ 64 - 1 then (s.raise tySch 0 eRange 0 0).enterHold 6
  else
    let s1 := stepRegs.foldl (fun t r => t.clearRegs r.1 [r.2]) (s.wr rSchStep (n + 1))
    let s2 := if s1.flag rSchBal 8 then s1.setFlag rSchJobStat 2 true else s1
    let s3 := { s2 with sched := { s2.sched with stepping := true, segs := s2.segments.map fun _ => .waiting } }
    let s4 := s3.wr rSchSegDone 0
    let s5 := s4.setJobState (if s4.lastStep then stDraining else stRunning)
    (s5.fwLog 4 3 0x010 (n + 1) s5.segments.length).syncPhase

/-- Resume after READY or HOLD: SCH_BAL applies from this dispatch (R30); a refused dispatch resumes nothing (R28). -/
def State.resume (s : State) : State :=
  let s1 := s.setFlag rSchBal 8 (s.flag rSchBal 0)
  if s.rd rSchStep = 2 ^ 64 - 1 then s1.dispatch else s1.dispatch.postEvent 3 0 0

/-- Clear the hold target and everything that belongs to it. -/
def State.clearHold (s : State) : State :=
  { s.wr rSchHoldAt 0 with
    sched := { s.sched with holdOn := false, causes := [], sent := 0, endPending := false, ckptDue := false } }

/-- The held requests of a job that has ended are refused, and the contributions of this node itself are given up (R204, R262). -/
def State.refuseHeld (s : State) : State :=
  let old := s.fxp.hold.filter fun h => !reqSys h.req
  old.foldl (fun t h => if h.req.src.toNat % 2 ^ 14 = t.nodeId then t else t.answer h.typ h.req eState false [])
    { s with fxp := { s.fxp with hold := s.fxp.hold.filter fun h => reqSys h.req } }

/-- Stop every engine, drop the job and free what it held: streams, rings, ordered regions, Piazza, LLM regions and grants (R24,
R31, R152, R157, R213, R262). -/
def State.unload (s : State) (abort : Bool) : State :=
  let s0 := if abort then s.abandonJob else s
  let s1 := { s0 with
    job := none, threads := [], tiles := [], vecs := [], solvEngs := [], asms := [], factors := [], piaz := {}
    fxp := { s0.fxp with descs := [], woken := [], active := [], quiet := s0.fxp.lastOut, lastOut := none }
    ckpt := { s0.ckpt with run := none, restore := none }
    sched := { s0.sched with
      segs := [], stepping := false, holdOn := false, causes := [], sent := 0, endPending := false, ckptDue := false
      counted := false, hbStart := none, lapsed := false, lapseDue := false, loading := false, restored := false
      boundaryDue := false, advisoryDue := false, endDue := none }
    power := { s0.power with phase := [], uses := s0.power.uses.filter fun u => u ≠ HbmUse.restore ∧ u ≠ HbmUse.ckpt } }
  let s2 := (((s1.clearRegs tyTile [0x80]).clearRegs tyVec [0x80]).clearRegs tySolv [0x80]).clearRegs tyAsm [0x80]
  let s3 := (s2.clearRegs tyCore [0x80]).clearRegs tyFxp ((upTo 64).map fun w => 0x200 + 8 * w)
  let s4 := (s3.oregClearAll).dropLlmModes
  let s5 := (((s4.setFld rSchCkptStat 1 0 0).setFlag rSchCkptStat 4 false).setFlag rSchJobStat 0 false).setFlag rSchBal 8 false
  s5.refuseHeld.syncGrants.readoutAtBoundary

/-- End the job as under ABORT, with the cause that JOB_END carries (Table 2-12); while SCH is down the end waits (Table 17-3). -/
def State.endJob (s : State) (reason err : Nat) : State :=
  if s.jobState = stIdle then s
  else if s.down 4 then { s with sched := { s.sched with endDue := s.sched.endDue <|> some (reason, err) } }
  else (((s.unload true).setJobState stIdle).postEvent 4 reason err)

/-- The END of a job: ENDING, the JOB_END event, then IDLE (R32). -/
def State.endNormal (s : State) : State :=
  (((s.setJobState stEnding).postEvent 4 0 0).unload false).setJobState stIdle

/-- Actions 5 to 7 of Table 2-6. -/
def State.afterCkpt (s : State) : State :=
  if s.sched.endPending ∧ s.targetReached then s.endNormal
  else
    match s.holdReason with
    | some r => s.enterHold r
    | none => s.dispatch

/-- A hold or end that is due at once in READY or HOLD (R34). -/
def State.finAtOnce (s : State) : State :=
  if s.sched.endPending then s.endNormal else s.enterHold (s.holdReason.getD 5)

end Sys2Proof.Machine
end

