-- ==== Sys2Proof/Machine/Ckpt.lean ====
section
/-!
DEFINITION. Checkpoints: the destination, proposals, objects and their protection, the put of pieces, and the commit (R275 to
R288).
-/

namespace Sys2Proof.Machine

/-! ### The destination (R275, Table 14-1) -/

/-- The destination record at a local address, where it keeps Table 14-1. -/
def State.readDest (s : State) (a : Nat) : Option CkptDest :=
  let b := s.peekN a 64
  let d : CkptDest :=
    { gwFirst := fieldLE b 6 1, gwCount := fieldLE b 7 1, setId := fieldLE b 8 8, atWord := fieldLE b 0x10 8
      entryBuf := fieldLE b 0x18 8, shardLog2 := fieldLE b 0x20 1 }
  if s.inOpenHbm a 64 && decide (fieldLE b 0 4 = 0x53444B43) && decide (fieldLE b 4 2 = 1) && decide (d.gwFirst < 64) &&
      decide (1 ≤ d.gwCount) && decide (d.gwFirst + d.gwCount ≤ 64) && decide (d.setId ≠ 0) && decide (d.atWord % 8 = 0) &&
      s.memOk d.atWord 8 && decide (d.entryBuf % 64 = 0) && s.memOk d.entryBuf (64 * s.nodeSet.length) &&
      decide (20 ≤ d.shardLog2) && decide (d.shardLog2 ≤ 30) && (b.drop 0x21).all (· = 0) then some d
  else none

/-- The destination that SCH_CKPT_DEST names. -/
def State.dest (s : State) : Option CkptDest := if s.rd rSchCkptDest = 0 then none else s.readDest (s.rd rSchCkptDest)

/-- The target word of this node. -/
def State.targetWord (s : State) (d : CkptDest) : Nat := natLE (s.peekN d.atWord 8)

/-- Propose a step: an ATOMIC MAX on the target word of every node of the node set (R276). -/
def State.propose (s : State) (d : CkptDest) (step : Nat) : State :=
  let s1 := (s.amoLocal .max d.atWord 8 step 0).2
  (s1.nodeSet.filter (· ≠ s1.nodeId)).foldl (fun t n => t.issue .atomic .rank n 0x16 0 d.atWord 8 (bytesLE 8 step)) s1

/-! ### Objects (R278, R281 to R285) -/

/-- What an object header says besides what the checkpoint fixes (Table 14-2). -/
structure ObjHead where
  kind : Nat
  index : Nat
  rank : Nat
  field : Nat := 0xFFFF
  fmt : Nat := 0
  off : Nat := 0
  scale : Bool := false
  deriving DecidableEq, Repr

/-- The key of an object (R284). -/
def objectKey (key salt : List Byte) (set step rank index : Nat) : List Byte :=
  hkdfExpand (hkdfExtract salt key) (ascii "MBCK" ++ bytesLE 8 set ++ bytesLE 8 step ++ bytesLE 2 rank ++ bytesLE 4 index) 32

/-- An object: header, ciphertext and tag (R278, R284); its SALT is a free value of the enclave. -/
def State.seal (s : State) (d : CkptDest) (step : Nat) (h : ObjHead) (text : List Byte) : List Byte × State :=
  let (salt, s1) := s.freeBytes 20 16
  let (keyId, key) := s.sec.ckptKey.getD (0, [])
  let head := bytesLE 4 0x424F4B43 ++ bytesLE 2 1 ++ bytesLE 1 h.kind ++ bytesLE 1 h.scale.toNat ++ bytesLE 8 d.setId ++
    bytesLE 8 step ++ bytesLE 2 s.nodeId ++ bytesLE 2 h.rank ++ bytesLE 4 h.index ++ bytesLE 2 h.field ++ bytesLE 1 h.fmt ++
    List.replicate 5 0 ++ bytesLE 8 h.off ++ bytesLE 8 text.length ++ bytesLE 8 (s.rd rNumFprint) ++ bytesLE 8 keyId ++
    salt ++ List.replicate 40 0
  (head ++ gcmSeal (objectKey key salt d.setId step h.rank h.index) (List.replicate 12 0) head text, s1)

/-- The gateway of an object (R279). -/
def gatewayOf (first count kind rank index : Nat) : Nat :=
  if kind = 5 then first else if kind = 4 then first + rank % count else first + (rank + index) % count

/-- The STATE plaintext (Table 14-4). -/
def State.stateText (s : State) (img : List Byte) : List Byte :=
  ((upTo 32).flatMap fun w => bytesLE 8 (s.rd rSchSeed 0 (8 * w))) ++ bytesLE 8 (s.rd rSchStep) ++
    bytesLE 4 (s.rd rSchSeedValid) ++ bytesLE 4 (s.rd rSchJobStat &&& 0xC) ++ bytesLE 4 (partCountOf img) ++
    bytesLE 2 (nodeCountOf img) ++ bytesLE 2 0 ++ bytesLE 4 (collCountOf img) ++ bytesLE 4 (fieldLE img 0x38 4) ++
    List.replicate 32 0

/-- The fields that a checkpoint carries: all but SCHED (R281). -/
def Job.savedFields (j : Job) : List Field :=
  j.fields.filter fun f => !(j.solvers.any fun v => decide (v.record.fields.getD 8 0 = f.no))

/-- The shards of a field: header and local range; the element part first, then the scale part (R281, log entry 18). -/
def shardsOf (log2 rank : Nat) (f : Field) : List (ObjHead × Nat × Nat) :=
  let cut := fun (scale : Bool) (p : Nat × Nat) => (pieces (2 ^ log2) 0 (p.2 - p.1)).map fun x =>
    (({ kind := 2, index := 0, rank := rank, field := f.no, fmt := f.fmt.code, off := x.1, scale := scale } : ObjHead),
      p.1 + x.1, x.2)
  match f.parts with
  | [] => []
  | p :: ps => cut false p ++ ps.flatMap (cut true)

/-- The shards of this node, in ascending INDEX: header and plaintext; reads of lines count as any read does. -/
def State.shards (s : State) (d : CkptDest) (j : Job) : List (ObjHead × List Byte) × State :=
  let rank := s.rank
  let (img, s1) := s.fetch j.base j.len
  let fields := j.savedFields.flatMap (shardsOf d.shardLog2 rank)
  let step := fun (acc : List (ObjHead × List Byte) × State) (x : ObjHead × Nat × Nat) =>
    let (b, t) := acc.2.fetch x.2.1 x.2.2
    (acc.1 ++ [({ x.1 with index := acc.1.length }, b)], t)
  fields.foldl step ([(⟨3, 0, rank, 0xFFFF, 0, 0, false⟩, s.stateText img), (⟨1, 1, rank, 0xFFFF, 0, 0, false⟩, img)], s1)

/-- Make an object to put. -/
def State.mkObj (s : State) (d : CkptDest) (step id : Nat) (h : ObjHead) (text : List Byte) : CkptObj × State :=
  let (bytes, s1) := s.seal d step h text
  ({ id := id, index := h.index, kind := h.kind, rank := h.rank
     gw := gatewayOf d.gwFirst d.gwCount h.kind h.rank h.index, bytes := bytes }, s1)

/-- The INDEX record of an object (R282). -/
def CkptObj.record (o : CkptObj) : List Byte :=
  bytesLE 4 o.index ++ bytesLE 1 o.kind ++ [0, 0, 0] ++ bytesLE 8 o.bytes.length ++ sha384 o.bytes

/-! ### Putting pieces (R279) -/

/-- The pieces of an object. -/
def CkptObj.count (o : CkptObj) : Nat := (o.bytes.length + 4063) / 4064

/-- Every piece of an object is acknowledged. -/
def CkptObj.whole (o : CkptObj) : Bool := decide (o.count ≤ o.acked.length)

/-- The object has a piece to issue now: the LAST piece waits for every other piece (R279). -/
def CkptObj.ready (o : CkptObj) : Bool :=
  decide (o.next + 1 < o.count) || (decide (o.next + 1 = o.count) && decide (o.acked.length + 1 = o.count))

/-- The transfer header (Table 14-3). -/
def transferHead (set step rank kind flags index off : Nat) : List Byte :=
  bytesLE 8 set ++ bytesLE 8 step ++ bytesLE 2 rank ++ bytesLE 1 kind ++ bytesLE 1 flags ++ bytesLE 4 index ++ bytesLE 8 off

/-- A request is a piece of a checkpoint object. -/
def OutReq.isPut (r : OutReq) : Bool :=
  match r.owner with
  | .ckpt _ _ => true
  | .thread _ | .ring _ _ _ | .homeCopy _ | .notice _ | .rank | .restore _ | .relayRead _ | .relayWrite _ | .holdAt | .report => false

/-- Issue pieces while fewer than 512 are outstanding; `fuel` bounds them. A gateway without a valid entry, or one whose fallback
has been taken, fails the checkpoint (R211, R238, R288). -/
def State.putPieces (s : State) : Nat → State
  | 0 => s
  | fuel + 1 =>
    match s.ckpt.run with
    | none => s
    | some run =>
      if run.failed.isSome ∨ 512 ≤ (s.fxp.reqs.filter OutReq.isPut).length then s
      else
        match run.objs.find? CkptObj.ready with
        | none => s
        | some o =>
          let bad := if (s.gateway o.gw).isNone then some eRange else if s.goneNode (2 ^ 15 + o.gw) then some eDeadTarget else none
          if bad.isSome then { s with ckpt := { s.ckpt with run := some { run with failed := bad } } }
          else
          let off := 4064 * o.next
          let data := (o.bytes.drop off).take 4064
          let last := decide (o.next + 1 = o.count)
          let payload := transferHead run.dest.setId run.step o.rank o.kind (2 * last.toNat) o.index off ++ data
          let objs := run.objs.map fun x => if x.id = o.id then { x with next := x.next + 1 } else x
          let s1 := { s with ckpt := { s.ckpt with run := some { run with objs := objs } } }
          let s2 := s1.bump64 rSchCkptBytes data.length
          (s2.issue .objPut (.ckpt o.id o.next) (2 ^ 15 + o.gw) 0 0 0 payload.length payload).putPieces fuel

/-- Replace the checkpoint in progress. -/
def State.setRunCkpt (s : State) (r : CkptRun) : State := { s with ckpt := { s.ckpt with run := some r } }

/-- What follows a checkpoint (R29, R34, R277). -/
def State.ckptOver (s : State) (after : CkptAfter) : State :=
  let s1 := ({ s with ckpt := { s.ckpt with run := none } }).setFld rSchCkptStat 1 0 0
  let s2 := s1.dropHbm .ckpt
  match after with
  | .nothing => s2
  | .boundary => s2.afterCkpt
  | .atOnce => s2.finAtOnce
  | .dispatch => s2.resume

/-- Post CKPT_DONE with its log entry (R286 to R288). -/
def State.ckptDone (s : State) (step err : Nat) : State := (s.postEvent 5 0 err).fwLog 4 2 0x013 step err

/-- Report a checkpoint that failed, once SCH runs (R288, Table 14-5). -/
def State.ckptSettle (s : State) : State :=
  match s.ckpt.run with
  | some run =>
    match run.failed with
    | some code =>
      if s.down 4 then s
      else (((s.bump rSchCkptFails).setFld rSchCkptStat 31 24 code).ckptDone run.step code).ckptOver run.after
    | none => s
  | none => s

/-- The pieces that wait for a tag are not sent any more. -/
def State.dropPuts (s : State) : State :=
  { s with fxp := { s.fxp with reqs := s.fxp.reqs.filter fun r => !r.isPut || r.tag.isSome } }

/-- End the checkpoint with a code: no further piece is sent and no rank entry stored (R288). -/
def State.ckptFail (s : State) (code : Nat) : State :=
  match s.ckpt.run with
  | some run => if run.failed.isSome then s else (s.dropPuts.setRunCkpt { run with failed := some code }).ckptSettle
  | none => s

/-- The objects of a phase are all acknowledged. -/
def CkptRun.allWhole (r : CkptRun) : Bool := r.objs.all CkptObj.whole

/-- Once every shard is acknowledged, the INDEX object is put (R286). -/
def State.ckptIndex (s : State) : State :=
  match s.ckpt.run with
  | some run =>
    if run.phase = .shards ∧ run.allWhole ∧ run.failed = none then
      let h : ObjHead := { kind := 4, index := 0xFFFFFFFF, rank := s.rank }
      let (o, s1) := s.mkObj run.dest run.step s.fresh h run.records
      (s1.setRunCkpt { run with phase := .index, objs := [o], indexHash := sha384 o.bytes }).putPieces 513 |>.ckptSettle
    else s
  | none => s

/-- The registers of a checkpoint that starts: the step, the bytes, the phase, the source of HBM traffic. -/
def State.ckptBegin (s : State) (after : CkptAfter) (d : CkptDest) : State :=
  let s0 := if after = .boundary then s.setJobState stCheckpoint else s
  let s1 := ((s0.wr rSchCkptLast (s.rd rSchStep)).wr rSchCkptBytes 0).setFld rSchCkptStat 3 0 1
  ({ s1 with ckpt := { s1.ckpt with lastSet := d.setId } }).useHbm .ckpt

/-- Form every object of this node's checkpoint, each under an identity of its own. -/
def State.ckptObjects (s : State) (d : CkptDest) (step : Nat) (hs : List (ObjHead × List Byte)) : List CkptObj × State :=
  hs.foldl (fun acc x =>
    let (o, t) := acc.2.mkObj d step acc.2.fresh x.1 x.2
    (acc.1 ++ [o], t)) ([], s)

/-- Start a checkpoint of the step last completed (R277, R281, R286). -/
def State.startCkpt (s : State) (after : CkptAfter) : State :=
  match s.job, s.dest with
  | some j, some d =>
    let step := s.rd rSchStep
    let s2 := s.ckptBegin after d
    let empty : CkptRun :=
      { step := step, dest := d, phase := .shards, objs := [], shards := 0, indexHash := [], records := [], since := 0
        after := after }
    match s2.sec.ckptKey with
    | none => (s2.setRunCkpt empty).ckptFail eState
    | some _ =>
      let (hs, s3) := s2.shards d j
      let (objs, s4) := s3.ckptObjects d step hs
      (s4.setRunCkpt { empty with objs := objs, shards := objs.length, records := objs.flatMap CkptObj.record }).putPieces 513 |>.ckptSettle
  | _, _ => s.ckptOver after

/-- A piece is acknowledged (R279, R286). -/
def State.ckptAck (s : State) (id piece : Nat) : State :=
  match s.ckpt.run with
  | some run =>
    let objs := run.objs.map fun o =>
      if o.id = id ∧ ¬ o.acked.contains piece then { o with acked := piece :: o.acked } else o
    (((s.setRunCkpt { run with objs := objs }).putPieces 513).ckptSettle).ckptIndex
  | none => s

/-- The coordinator, waiting for rank entries, sees its target word above its step and abandons it (R287). -/
def State.ckptWatch (s : State) : State :=
  match s.ckpt.run with
  | some run =>
    if run.phase = .waiting ∧ run.step < s.targetWord run.dest ∧ ¬ s.down 4 then
      (s.setFlag rSchCkptStat 2 true).ckptOver run.after
    else s
  | none => s

/-! ### Triggers (R276, R277) -/

/-- What action 4 of Table 2-6 does: whether to checkpoint, and whether to propose first. A hold or end that asked for a
checkpoint needs no agreement (R277). -/
def State.ckptChoice (s : State) : Option (CkptDest × Bool) :=
  match s.dest with
  | none => none
  | some d =>
    let step := s.rd rSchStep
    let w := s.targetWord d
    let last := s.rd rSchCkptLast
    if last = step ∧ s.ckpt.lastSet = d.setId then none
    else if s.sched.ckptDue ∧ s.targetReached then some (d, false)
    else if w = step ∧ w ≠ 0 then some (d, false)
    else if 0 < w ∧ w < step ∧ (last = 2 ^ 64 - 1 ∨ last < w) then some (d, true)
    else none

/-- SCH's read of its target word. -/
def State.noteTarget (s : State) : State := s.dest.elim s fun d => s.noteRange d.atWord 8

/-- Action 4 of Table 2-6, then actions 5 to 7. -/
def State.ckptAtBoundary (s0 : State) : State :=
  let s := s0.noteTarget
  match s.ckptChoice with
  | some (d, prop) => (if prop then s.propose d (s.rd rSchStep) else s).startCkpt .boundary
  | none => s.afterCkpt

/-- A trigger while SCH_CKPT_DEST is set proposes the current step (R276). -/
def State.ckptTrigger (s : State) : State :=
  match s.dest with
  | some d => s.propose d (s.rd rSchStep)
  | none => s

/-- Post a CKPT_ADVISORY event and propose (R276, Table 2-12). -/
def State.schAdvisory (s : State) : State :=
  if s.jobState = stIdle ∨ s.jobState = stLoading ∨ s.jobState = stEnding then s
  else if s.down 4 then { s with sched := { s.sched with advisoryDue := true } }
  else (s.postEvent 6 0 0).ckptTrigger

/-- A firmware processor posts a checkpoint advisory about a unit of a page it owns (R357, Table 17-9). -/
def State.advise (s : State) (fwp ty inst unit rate : Nat) : State :=
  ((s.setInt ty inst iAdvisory).fwLog fwp 1 0x014 unit rate).schAdvisory

/-! ### Commands -/

/-- CKPT_SHARDS_DURABLE: every piece of this node's objects is acknowledged: the rank entry is stored at the coordinator and
CKPT_DONE posted; the coordinator then waits (R286). -/
def execCkptShardsDurable (s : State) : Outcome :=
  match s.ckpt.run with
  | some run =>
    if run.phase = .index ∧ run.allWhole ∧ run.failed = none ∧ ¬ s.down 4 then
      let rank := s.rank
      let entry := bytesLE 2 s.nodeId ++ [0, 0] ++ bytesLE 4 run.shards ++ bytesLE 8 run.step ++ run.indexHash
      let a := run.dest.entryBuf + 64 * rank
      if rank = 0 then
        let s1 := (s.store a entry).ckptDone run.step eNone
        let s2 := (s1.setFld rSchCkptStat 1 0 2).setRunCkpt { run with phase := .waiting, objs := [], since := s.now }
        .next s2.ckptWatch
      else
        let s1 := s.issue .store .rank (s.nodeSet.headD 0) 0 0 a 64 entry
        .next ((s1.ckptDone run.step eNone).ckptOver run.after)
    else .next s
  | none => .next s

/-- The rank entries of ENTRY_BUF that carry a step: the ranks that lack one. -/
def State.missingRanks (s : State) (d : CkptDest) (step : Nat) : List Nat :=
  (upTo s.nodeSet.length).filter fun r => natLE (s.peekN (d.entryBuf + 64 * r + 8) 8) ≠ step

/-- CKPT_MANIFEST_PUT: the coordinator finds every rank entry and puts the MANIFEST (R283, R286). -/
def execCkptManifestPut (s : State) : Outcome :=
  match s.ckpt.run, s.job with
  | some run, some j =>
    if run.phase = .waiting ∧ ¬ s.down 4 ∧ s.missingRanks run.dest run.step = [] then
      let n := s.nodeSet.length
      let (entries, s1) := s.fetch run.dest.entryBuf (64 * n)
      let text := bytesLE 8 run.step ++ bytesLE 8 run.dest.setId ++ bytesLE 8 (s.rd rNumFprint) ++ bytesLE 4 j.partCount ++
        bytesLE 4 j.collCount ++ bytesLE 2 n ++ List.replicate 30 0 ++ entries
      let (o, s2) := s1.mkObj run.dest run.step s1.fresh { kind := 5, index := 0, rank := 0xFFFF } text
      .next (((s2.setFld rSchCkptStat 1 0 1).setRunCkpt { run with phase := .manifest, objs := [o] }).putPieces 513 |>.ckptSettle)
    else .next s
  | _, _ => .next s

/-- CKPT_COMMIT: the LAST piece of the manifest is acknowledged, and the step is committed (R286). -/
def execCkptCommit (s : State) : Outcome :=
  match s.ckpt.run with
  | some run =>
    if run.phase = .manifest ∧ run.allWhole ∧ run.failed = none ∧ ¬ s.down 4 then
      .next (((s.wr rSchCkptCommit run.step).ckptDone run.step eNone).ckptOver run.after)
    else .next s
  | none => .next s

/-- CKPT_TIMEOUT: SCH_CKPT_TIMEOUT passes while the coordinator waits (R287). -/
def execCkptTimeout (s : State) : Outcome :=
  match s.ckpt.run with
  | some run =>
    match run.phase, s.missingRanks run.dest run.step with
    | .waiting, r :: _ =>
      if s.down 4 then .next s
      else
        let s0 := { s with now := max s.now (run.since + s.rd rSchCkptTimeout * 1000000000) }
        let s1 := ((s0.bump rSchCkptFails).setFld rSchCkptStat 31 24 eCkptIncomplete).raise tySch 0 eCkptIncomplete r 0
        .next ((s1.ckptDone run.step eCkptIncomplete).ckptOver run.after)
    | _, _ => .next s
  | none => .next s

end Sys2Proof.Machine
end

