-- ==== Sys2Proof/Machine/Sensors.lean ====
section
/-!
DEFINITION. The PLDM sensors and their event queue (R332, R394, R395, Table 20-13).
-/

namespace Sys2Proof.Machine

/-- A register as the management paths read it: the coarse view while a TENANT session is open (R332). -/
def State.outerView (s : State) (ty inst off : Nat) : Word :=
  if s.tenantOpen then s.coarseView ty inst off else s.regView ty inst off

/-- A temperature of the THM page in 0.1 degrees, as the management paths read it. -/
def State.outerTemp (s : State) (off : Nat) : Int :=
  let v := (s.outerView tyThm 0 off).toNat % 65536
  if v < 32768 then (v : Int) else (v : Int) - 65536

/-- 0 below both thresholds, 1 from the warning, 2 from the critical one; all in 0.1 degrees. -/
def levelOf (t warn crit : Int) : Nat := if crit ≤ t then 2 else if warn ≤ t then 1 else 0

/-- The event state of a sensor of Table 20-13. -/
def State.sensorState (s : State) (k : Nat) : Nat :=
  if k = 2 then levelOf (s.outerTemp 0x84) (10 * (s.rd rThmTarget : Int)) 1030
  else if k = 3 then levelOf (s.outerTemp 0x90) 900 950
  else if k = 4 then s.sec.lifeCycle
  else if k = 5 then (bitOf s.nodeStat 8).toNat
  else if k = 6 then (s.flag rThmStat 0 || s.flag rThmStat 1).toNat
  else if k = 7 then (decide (s.fld rPwrStat 13 0 ≠ 0)).toNat
  else if k = 8 then (s.flag rPwrStat 22).toNat
  else 0

/-- The states of the event sensors, as the event queue compares them. -/
def State.sensorStates (s : State) : SMap Nat :=
  ([2, 3, 4, 5, 6, 7, 8] : List Nat).foldl (fun m k => SMap.set 0 m k (s.sensorState k)) []

/-- Queue an event for every sensor whose state has changed: sensor, previous and present state. The queue of 32 drops its
oldest; SMB_ALERT_N is low while an event is pending (R394, R395). -/
def State.noteSensors (s : State) : State :=
  let now := s.sensorStates
  let new := ([2, 3, 4, 5, 6, 7, 8] : List Nat).filterMap fun k =>
    let a := SMap.get 0 s.mgmt.last k
    let b := SMap.get 0 now k
    if a = b then none else some (k, a, b)
  let es := s.mgmt.events ++ new
  let es := es.drop (es.length - 32)
  { s with mgmt := { s.mgmt with events := es, last := now }, pins := { s.pins with smbAlertN := es.isEmpty } }

end Sys2Proof.Machine
end

