-- ==== Sys2Proof/Machine/Power.lean ====
section
/-!
DEFINITION. Voltages, throttle levels, clamps, temperatures and rail faults (R296 to R301, R308 to R313, R399).
-/

namespace Sys2Proof.Machine

/-! ### Dies, sensors and levels (Tables 15-1, 15-7, 15-9) -/

/-- Set the throttle level of a die; PWR logs a change while it runs. -/
def State.setLevel (s : State) (die l : Nat) : State :=
  if s.level die = l then s else (s.setFld rPwrThrottle (4 * die + 3) (4 * die) l).fwLog 0 2 0x021 die l true

/-- The sensors of a die. -/
def dieSensors (die : Nat) : List Nat := (upTo 8).map (· + 8 * die)

/-- The die of a junction sensor. -/
def sensorDie (sensor : Nat) : Nat := sensor / 8

/-- A signed 16-bit number. -/
def signed16 (v : Nat) : Int := if v % 65536 < 32768 then (v % 65536 : Nat) else (v % 65536 : Nat) - (65536 : Int)

/-- The 16 bits of a signed number. -/
def bits16 (v : Int) : Nat := (v % 65536).toNat

/-- The latest sample of a sensor in 0.1 degrees (THM_SENSOR0 to 63). -/
def State.sensor (s : State) (k : Nat) : Int := signed16 (s.rd rThmSensor 0 (4 * (k / 2)) / 2 ^ (16 * (k % 2)))

/-- The largest of a list of temperatures. -/
def maxOf : List Int → Int
  | [] => 0
  | t :: ts => ts.foldl max t

/-- The hottest sensor of a die. -/
def State.dieTemp (s : State) (die : Nat) : Int := maxOf ((dieSensors die).map s.sensor)

/-- The dies that a rail supplies: their logic or their SRAM (Table 15-1; log entry 31). -/
def railDies (r : Nat) : List Nat :=
  if r = 1 then [0] else if 2 ≤ r ∧ r ≤ 5 then [r - 1] else if r = 6 then [0, 1, 2, 3, 4]
  else if r = 0 ∨ r = 7 ∨ r = 8 ∨ r = 9 ∨ r = 13 then [5] else []

/-- The gated domains that a rail supplies (Tables 15-1 and 15-3; log entry 31). -/
def railDomains (r : Nat) : List Nat :=
  if r = 1 then [3, 4]
  else if 2 ≤ r ∧ r ≤ 5 then [3 + r, 7 + r, 11 + r, if r % 2 = 0 then 19 else 20, 21]
  else if r = 6 then (upTo 14).map (· + 3)
  else if r = 7 then [17, 18, 22, 23, 24]
  else if r = 8 then [18]
  else if r = 10 then [19, 20]
  else if r = 11 then [21]
  else if r = 12 then [19, 20, 21]
  else []

/-- A die is under a junction clamp or a current clamp (R310, R311). -/
def State.clamped (s : State) (die : Nat) : Bool :=
  s.power.hot.contains die || (upTo 14).any fun r => s.flag rPwrStat r && (railDies r).contains die

/-- Clamp a die: level 8; the level it had is kept for the restore of R310. -/
def State.clampDie (s : State) (die : Nat) : State :=
  let s1 :=
    if s.clamped die then s
    else { s with power := { s.power with before := SMap.set 0 s.power.before die (s.level die + 1) } }
  s1.setLevel die 8

/-! ### The one-second window of R332 -/

/-- A rounded average, to nearest with ties up. -/
def roundDiv (a b : Int) : Int := if b = 0 then 0 else (2 * a + b).fdiv (2 * b)

/-- Close the window when its end has passed. -/
def State.rollWindow (s : State) : State :=
  let t := s.tele
  if s.now < t.windowEnd then s
  else
    let temps := (upTo 64).foldl (fun m k =>
      let x := SMap.get (0, 0) t.temps k
      SMap.set 0 m k (if x.2 = 0 then roundDiv (s.sensor k) 10 else roundDiv x.1 (10 * x.2))) t.tempAvg
    { s with tele := { t with
        powerAvg := if t.powerCount = 0 then t.powerAvg else (2 * t.powerSum + 5 * t.powerCount) / (10 * t.powerCount) * 5
        powerSum := 0, powerCount := 0, temps := [], tempAvg := temps
        windowEnd := (s.now / 1000000000 + 1) * 1000000000 } }

/-! ### The PWR loop (R301, R308, R309) -/

/-- Node power in W: the sum of voltage in mV times current in 0.1 A (R308). -/
def powerOf (mv da : List Nat) : Nat := ((mv.zip da).map fun x => x.1 * x.2).foldl (· + ·) 0 / 10000

/-- The order of R308 for lowering: the A-dies by falling power, then the P-die, then the F-die; the first below level 8. -/
def State.limitDie (s : State) (mw : List Nat) : Option Nat :=
  let open_ := fun (d : Nat) => decide (s.level d < 8)
  let best := ([1, 2, 3, 4].filter open_).foldl (fun b d =>
    match b with
    | none => some d
    | some x => if mw.getD x 0 < mw.getD d 0 then some d else some x) none
  match best with
  | some d => some d
  | none => if open_ 0 then some 0 else if open_ 5 then some 5 else none

/-- The thermal part of the loop for one die, and its restoring. -/
def State.loopDie (s : State) (watts : Nat) (die : Nat) : State :=
  let t := s.dieTemp die
  let target : Int := (s.rd rThmTarget : Int) * 10
  let limit := s.rd rPwrLimit
  let calm := decide (t ≤ target - 20) && decide (100 * watts ≤ 97 * limit)
  let n := if calm then SMap.get 0 s.power.cool die + 1 else 0
  let s1 := { s with power := { s.power with cool := SMap.set 0 s.power.cool die (min n 10) } }
  if s1.clamped die then s1
  else if target < t then s1.setLevel die (min 8 (s1.level die + 1))
  else if 10 ≤ n then s1.setLevel die (s1.level die - 1)
  else s1

/-- A target moves towards the wanted voltage by at most 10 mV. -/
def moveTarget (old want : Nat) : Nat := if want ≤ old then max want (old - 10) else min want (old + 10)

/-- The temperature term of R301 in mV: 5 for each whole 10 degrees below 40. -/
def tempTerm (t : Int) : Nat := 5 * ((400 - t).toNat / 100)

/-- The die whose fused SRAM voltage is highest at the present levels (R301). -/
def State.sramDie (s : State) : Nat :=
  [1, 2, 3, 4].foldl (fun b d =>
    if Config.fusedSramMv b (s.level b) < Config.fusedSramMv d (s.level d) then d else b) 0

/-- The voltage that R301 wants on an adaptive rail. -/
def State.wantedMv (s : State) (r : Nat) : Nat :=
  let gb := SMap.get 0 s.age.gb r
  if r = 6 then
    let d := s.sramDie
    min 950 (max 750 (Config.fusedSramMv d (s.level d) + gb + tempTerm (s.dieTemp d)))
  else min 900 (max 600 (Config.fusedMv (r - 1) (s.level (r - 1)) + gb + tempTerm (s.dieTemp (r - 1))))

/-- The target of a rail in mV. -/
def State.railMv (s : State) (r : Nat) : Nat := s.rd rPwrRail 0 (8 * r) % 65536

/-- Set a rail's target. -/
def State.setRailMv (s : State) (r mv : Nat) : State :=
  s.wr rPwrRail (withBits (s.rd rPwrRail 0 (8 * r)) 15 0 mv) 0 (8 * r)

/-- Move the target of an adaptive rail towards the wanted voltage; its regulator takes a new target by VOUT_COMMAND (R299, R301). -/
def State.moveRail (s : State) (x : Nat × Nat × Nat) : State :=
  let mv := moveTarget (s.railMv x.1) (s.wantedMv x.1)
  if mv = s.railMv x.1 then s else (s.setRailMv x.1 mv).emit (.vout x.2.1 x.2.2 mv)

/-- One PWR loop (R301, R308): node power, throttle levels, then the targets of the adaptive rails that RAIL_MAP lists. -/
def State.pwrLoop (s : State) (mv da mw : List Nat) : State :=
  let watts := powerOf mv da
  let s0 := { s with now := (s.now / 1000000 + 1) * 1000000 }
  let s1 := (upTo 14).foldl (fun t r =>
    t.wr rPwrRail (withBits (t.rd rPwrRail 0 (8 * r)) 31 16 (da.getD r 0)) 0 (8 * r)) s0
  let s2 := s1.wr rPwrNodePower watts
  let s3 := { s2 with
    power := { s2.power with before := s2.power.before.filter fun e => s2.clamped e.1 }
    tele := { s2.tele with powerSum := s2.tele.powerSum + watts, powerCount := s2.tele.powerCount + 1 } }
  let s4 := (upTo 6).foldl (fun t d => t.loopDie watts d) s3
  let excess := decide (s4.rd rPwrLimit < watts)
  let s5 :=
    match (if excess then s4.limitDie mw else none) with
    | some d => s4.setLevel d (s4.level d + 1)
    | none => s4
  let s6 := s5.setFlag rPwrStat 23 (excess && (upTo 6).all fun d => decide (s5.level d = 8))
  let s7 := (s6.power.railMap.filter fun x => decide (1 ≤ x.1) && decide (x.1 ≤ 6)).foldl State.moveRail s6
  s7.rollWindow

/-- PWR is running (Table 15-5). -/
def State.pwrUp (s : State) : Bool := !s.down 0

/-! ### Faults and trips -/

/-- Stop domains for good: nothing more of them is planned or ungated (R298, R312). -/
def State.killDomains (s : State) (ds : List Nat) : State :=
  let p := s.power
  ({ s with power := { p with
      dead := p.dead ++ ds.filter fun d => !p.dead.contains d
      up := p.up.filter fun e => !ds.contains e.1
      queue := p.queue.filter fun w => !ds.contains w.dom } }).syncClk

/-- Close every optical gate: all received and sent light is gone (R225). -/
def State.closeGates (s : State) : State := { s with pins := { s.pins with gates := 0 } }

/-- THERMTRIP_N (R312, Table 15-6). -/
def State.thermTrip (s : State) (sensor : Nat) : State :=
  if !s.pins.thermtripN then s
  else
    let s1 := (s.wr rThmTripLast (2 ^ 31 + sensor)).closeGates
    let s2 := { s1 with pins := { s1.pins with thermtripN := false }, power := { s1.power with plan := [], queue := [] } }
    (s2.killDomains gatedDomains).driveLoadstep 0

/-- The views that follow from the samples: THM_TMAX, THM_HBM_MAX and the hottest sensor. -/
def State.syncThm (s : State) : State :=
  let ts := (upTo 64).map s.sensor
  let top := maxOf ts
  let hot := ((upTo 64).find? fun k => s.sensor k = top).getD 0
  ((s.wr rThmTmax (bits16 (maxOf (ts.take 48)))).wr rThmHbmMax (bits16 (maxOf (ts.drop 48)))).setFld rThmStat 13 8 hot

/-- A hardware sample of a sensor in 0.1 degrees and the clamps that act on it (R311, R312, R399). -/
def State.sample (s : State) (k : Nat) (t : Int) : State :=
  let off := 4 * (k / 2)
  let s1 := (s.wr rThmSensor (withBits (s.rd rThmSensor 0 off) (16 * (k % 2) + 15) (16 * (k % 2)) (bits16 t)) 0 off).syncThm
  let x := SMap.get (0, 0) s1.tele.temps k
  let s2 := ({ s1 with tele := { s1.tele with temps := SMap.set (0, 0) s1.tele.temps k (x.1 + t, x.2 + 1) } }).rollWindow
  let s3 :=
    if k < 48 then
      let die := sensorDie k
      if 1030 ≤ t ∧ ¬ s2.power.hot.contains die then
        let c := s2.clampDie die
        let d := { c with power := { c.power with hot := c.power.hot ++ [die] } }
        ((d.setFlag rThmStat 0 true).bump rThmClamps).raise tyThm 0 eTherm k (bits16 t)
      else s2
    else
      let st := k - 48
      if 950 ≤ t ∧ ¬ s2.power.hotStacks.contains st then
        let d := { s2 with power := { s2.power with hotStacks := s2.power.hotStacks ++ [st] } }
        (d.setFlag rThmStat 1 true).raise tyThm 0 eTherm k (bits16 t)
      else if t < 900 then
        let d := { s2 with power := { s2.power with hotStacks := s2.power.hotStacks.filter (· ≠ st) } }
        d.setFlag rThmStat 1 (!d.power.hotStacks.isEmpty)
      else s2
  if 1250 ≤ t then s3.thermTrip k else s3

/-! ### Commands -/

/-- QUANTUM: the next quantum of 250 ns starts; `rises` are the measured rises of the rails' currents over the last one, in uA
(R302, R303). -/
def execQuantum (rises : List Int) (s : State) : Outcome := .next (s.quantum rises)

/-- PWR_LOOP: measured voltage in mV and current in 0.1 A of the rails, and the power of the dies P, A0 to A3 and F in mW; with
PWR down nothing is done (Table 15-5). -/
def execPwrLoop (mv da : List (BitVec 16)) (mw : List (BitVec 32)) (s : State) : Outcome :=
  .next (if s.pwrUp then (s.pwrLoop (mv.map (·.toNat)) (da.map (·.toNat)) (mw.map (·.toNat))).noteSensors else s)

/-- RAIL_FAULT (R298): the rail's fast domains stop, FAULT_N falls, E_RAIL, and the job ends. -/
def execRailFault (rail : Fin 14) (s : State) : Outcome :=
  let s1 := s.killDomains (railDomains rail.val)
  let s2 := ({ s1 with pins := { s1.pins with faultN := false } }).setFlag rPwrStat 22 true
  .next ((s2.raise tyPwr 0 eRail rail.val 0).endJob 4 eRail).noteSensors

/-- CURRENT_CLAMP (R310): the rail's current has been above its maximum for 10 us. -/
def execCurrentClamp (rail : Fin 14) (s : State) : Outcome :=
  if s.flag rPwrStat rail.val then .next s
  else
    let s1 := (railDies rail.val).foldl State.clampDie s
    let s2 := (s1.setFlag rPwrStat rail.val true).bump rPwrClamps
    let s3 :=
      if s2.power.clampSeen then s2
      else ({ s2 with power := { s2.power with clampSeen := true } }).raise tyPwr 0 ePwrClamp rail.val 0
    .next s3.noteSensors

/-- CURRENT_CLAMP_RELEASE (R310): below 90 % of the maximum for 1 ms. -/
def execCurrentClampRelease (rail : Fin 14) (s : State) : Outcome :=
  .next (s.setFlag rPwrStat rail.val false).noteSensors

/-- CLAMP_LEVEL_RESTORE (R310): while PWR is down, each millisecond one level towards the level before the clamp. -/
def execClampLevelRestore (s : State) : Outcome :=
  if s.pwrUp then .next s
  else
    let s0 := { s with now := (s.now / 1000000 + 1) * 1000000 }
    .next ((upTo 6).foldl (fun t d =>
      let b := SMap.get 0 t.power.before d
      if b = 0 ∨ t.clamped d ∨ t.level d ≤ b - 1 then t else t.setLevel d (t.level d - 1)) s0)

/-- SENSOR_SAMPLE (R399): a junction sensor once its die has left reset, a stack's once the stack is trained. -/
def execSensorSample (sensor : Fin 64) (t : BitVec 16) (s : State) : Outcome :=
  let ready := if sensor.val < 48 then s.pins.resetN else decide (4 ≤ s.fld rAonBootStat 2 0)
  .next (if ready then (s.sample sensor.val t.toInt).noteSensors else s)

/-- THERMAL_CLAMP_RELEASE (R311): every sensor of the die has stayed below 98 degrees for 1 ms. -/
def execThermalClampRelease (die : Fin 6) (s : State) : Outcome :=
  if s.power.hot.contains die.val ∧ s.dieTemp die.val < 980 then
    let s1 := { s with power := { s.power with hot := s.power.hot.filter (· ≠ die.val) } }
    .next (s1.setFlag rThmStat 0 (!s1.power.hot.isEmpty)).noteSensors
  else .next s

end Sys2Proof.Machine
end

