-- ==== Sys2Proof/Machine/Ageing.lean ====
section
/-!
DEFINITION. Configuration flash cells, the ageing log, ageing samples and the daily evaluation (R183 to R188).
-/

namespace Sys2Proof.Machine

/-! ### The flash array (R368, R373) -/

/-- A byte of the configuration flash. -/
def State.flashByte (s : State) (a : Nat) : Byte := SMap.get 0xFF#8 s.flash a

/-- Bytes of the configuration flash. -/
def State.flashN (s : State) (a n : Nat) : List Byte := (upTo n).map fun i => s.flashByte (a + i)

/-- Program bytes: a NOR flash only clears bits (log entry 32). -/
def State.flashProgram (s : State) : Nat → List Byte → State
  | _, [] => s
  | a, b :: bs => ({ s with flash := SMap.set 0xFF#8 s.flash a (s.flashByte a &&& b) }).flashProgram (a + 1) bs

/-- Erase the 4 KiB sector at an address. -/
def State.flashErase (s : State) (a : Nat) : State :=
  let base := a / 4096 * 4096
  { s with flash := s.flash.filter fun e => decide (e.1 < base) || decide (base + 4096 ≤ e.1) }

/-! ### The ageing log (R186, R187, Tables 9-6 and 9-7) -/

/-- The first byte of the ageing log (Table 19-3). -/
abbrev ageBase : Nat := 0x400000

/-- The ageing log is frozen (AGE_STAT.LOG_FROZEN). -/
def State.logFrozen (s : State) : Bool := s.flag rAgeStat 1

/-- Freeze the log, which every AGE page shows. -/
def State.freezeLog (s : State) : State := (upTo 12).foldl (fun t i => t.setFlag rAgeStat 1 true i) s

/-- A record as its 64 bytes. -/
def ageBytes (r : AgeRec) (seq poh : Nat) : List Byte :=
  let d := (r.data ++ List.replicate 40 0).take 40
  let b := bytesLE 4 0x474F4C41 ++ bytesLE 1 r.kind ++ bytesLE 1 r.source ++ bytesLE 2 r.unit ++ bytesLE 4 seq ++
    bytesLE 4 poh ++ d ++ bytesLE 4 0
  b ++ bytesLE 4 (crc32c b).toNat

/-- The same KIND and UNIT. -/
def AgeRec.same (a b : AgeRec) : Bool := decide (a.kind = b.kind) && decide (a.unit = b.unit)

/-- The newest record of a KIND and UNIT. -/
def Age.find (g : Age) (kind unit : Nat) : Option AgeRec := g.table.find? fun r => decide (r.kind = kind) && decide (r.unit = unit)

/-- Put a record into the flash: BASELINE records into sector 0, the others into the ring, whose next sector is erased when it
is entered. -/
def State.agePut (s : State) (r : AgeRec) : State :=
  let g := s.age
  let seq := g.seq + 1
  let b := ageBytes r seq s.poh
  let table := r :: g.table.filter fun x => !x.same r
  if r.kind = 1 then
    ({ s with age := { g with seq := seq, table := table } }).flashProgram (ageBase + 64 * r.unit) b
  else
    let pos := g.next % (1023 * 64)
    let a := ageBase + 4096 + 64 * pos
    let s1 := if pos % 64 = 0 then s.flashErase a else s
    ({ s1 with age := { g with seq := seq, next := (pos + 1) % (1023 * 64), table := table } }).flashProgram a b

/-- The flash reports a failure while a record of a kind is written: the writers stop (R187). -/
def State.ageFail (s : State) (kind : Nat) : State :=
  let pos := s.age.next % (1023 * 64)
  (s.freezeLog).raise tyAge 0 eRange (if kind = 1 then 0 else 1 + pos / 64) 0

/-- Write a record, unless the log is frozen; whether the flash reports a failure of it is free (R187). -/
def State.ageTry (s : State) (r : AgeRec) : State :=
  if s.logFrozen then s
  else
    let (v, s1) := s.free 60
    if v % 2 = 0 then s1.agePut r else s1.ageFail r.kind

/-- A writer hands over a record (R186, R187): only values that differ from the newest record, through SEC; `sure` where the command
says itself whether the flash fails. -/
def State.ageWrite (s : State) (r0 : AgeRec) (sure : Bool := false) : State :=
  let r := { r0 with data := (r0.data ++ List.replicate 40 0).take 40 }
  let old := (s.age.waiting.reverse.find? r.same).or (s.age.find r.kind r.unit)
  if s.logFrozen || (decide (old.map (·.data) = some r.data) && decide (r.kind ≠ 5)) then s
  else if s.down 3 then { s with age := { s.age with waiting := s.age.waiting ++ [r] } }
  else if sure then s.agePut r
  else s.ageTry r

/-- SEC is back: write the records that waited (R186). -/
def State.ageFlush (s : State) : State :=
  s.age.waiting.foldl State.ageTry { s with age := { s.age with waiting := [] } }

/-! ### Samples and evaluation (R183 to R185) -/

/-- The guardband of each rail, in every AGE page of the rail. -/
def State.showGb (s : State) : State := (upTo 12).foldl (fun t i => t.wr rAgeGb (SMap.get 0 t.age.gb (ageRail i)) i) s

/-- Remember the smallest margin of a rail. -/
def lessMargin (m : List (Nat × Int)) (r : Nat) (x : Int) : List (Nat × Int) :=
  match m with
  | [] => [(r, x)]
  | (r', y) :: m' => if r' = r then (r, min x y) :: m' else (r', y) :: lessMargin m' r x

/-- One instance's sample: delay and margin in ps; the first in PROVISIONED is the baseline. -/
def State.ageSample (s : State) (i delay : Nat) (margin : Int) : State :=
  let r := ageRail i
  let s1 := (((s.wr rAgeDelay delay i).wr rAgeMargin (margin % 2 ^ 32).toNat i).bump rAgeSamples 1 i).setFlag rAgeStat 0 true i
  let s2 := s1.setFld rAgeStat 11 8 r i
  let s3 := { s2 with age := { s2.age with least := lessMargin s2.age.least r margin } }
  if s3.sec.lifeCycle = 1 ∧ s3.age.find 1 i = none ∧ s3.rd rAgeBase i = 0 then
    let data := bytesLE 4 delay ++ bytesLE 2 (s3.railMv r) ++ bytesLE 2 (bits16 (s3.dieTemp (if r = 7 then 5 else r - 1)))
    (s3.wr rAgeBase delay i).ageWrite ⟨1, i, 0, data⟩
  else s3

/-- The daily evaluation of one rail (R184). -/
def State.ageRailEval (s : State) (x : Nat × Int) : State :=
  let (r, m) := x
  let gb := SMap.get 0 s.age.gb r
  let first := ((upTo 12).find? fun i => ageRail i = r).getD 0
  let s1 :=
    if 20 ≤ m then s
    else if 60 ≤ gb then (s.raise tyAge first eAgeLimit 0 0).advise 0 tyAge first r 0
    else ({ s with age := { s.age with gb := SMap.set 0 s.age.gb r (gb + 5) } }).showGb
  let gb1 := SMap.get 0 s1.age.gb r
  (s1.fwLog 0 2 0x022 r gb1).ageWrite ⟨2, r, 0, bytesLE 2 gb1 ++ bytesLE 2 (bits16 m)⟩ true

/-- One entry of each unit: a unit gets at most one record in an evaluation (R187). -/
def onePerUnit (n : Nat) : List (BitVec 16 × List Byte) → List (BitVec 16 × List Byte)
  | [] => []
  | x :: xs => x :: (onePerUnit n xs).filter fun y => decide (y.1.toNat % n ≠ x.1.toNat % n)

/-- AGE_SAMPLE (R183): the delay and the signed margin in ps that each of the twelve instances measures, in order; with PWR down
the sample is skipped (Table 15-5). -/
def execAgeSample (ms : List (BitVec 16 × BitVec 16)) (s : State) : Outcome :=
  if s.pwrUp then
    .next (((upTo 12).zip ms).foldl (fun t x => t.ageSample x.1 x.2.1.toNat x.2.2.toInt) s)
  else .next s

/-- AGE_EVAL (R184, R185): the daily evaluation by PWR, MEM and FAB, each while it runs: guardbands from the smallest margins;
the new strobe targets and eye widths of channels (20 bytes each) and equaliser targets of ports (32 bytes each) that MEM and FAB
have found; `flashOk` is false where the flash reports a failure. -/
def execAgeEval (hbm links : List (BitVec 16 × List Byte)) (flashOk : Bool) (s : State) : Outcome :=
  let s1 :=
    if s.pwrUp then
      let t := s.age.least.foldl State.ageRailEval s
      { t with age := { t.age with least := [] } }
    else s
  let s2 :=
    if !s1.down 1 then
      (onePerUnit 512 hbm).foldl (fun t x =>
        let ch := x.1.toNat % 512
        let counts := bytesLE 2 (min 65535 (t.rd rHbmchRetrains ch)) ++ bytesLE 2 (min 65535 (SMap.get {} t.cal.chans ch).aborts)
        t.ageWrite ⟨3, ch, 1, (x.2 ++ List.replicate 20 0).take 20 ++ counts⟩ true) s1
    else s1
  let s3 :=
    if !s2.down 2 then
      (onePerUnit 48 links).foldl (fun t x => t.ageWrite ⟨4, x.1.toNat % 48, 2, (x.2 ++ List.replicate 32 0).take 32⟩ true) s2
    else s2
  if flashOk then .next s3
  else
    let old := { s3 with flash := s.flash, age := { s3.age with table := s.age.table, seq := s.age.seq, next := s.age.next } }
    .next (old.ageFail 2)

end Sys2Proof.Machine
end

