-- ==== Sys2Proof/Machine/Calib.lean ====
section
/-!
DEFINITION. Scrub, channel health, calibration slices, full retrains, evacuation, fencing and margin scans (R163, R164, R168 to
R182).
-/

namespace Sys2Proof.Machine

/-- Set the state and the calibration phase of a channel. -/
def State.setChan (s : State) (ch st phase : Nat) : State := (s.setFld rHbmchStat 2 0 st ch).setFld rHbmchCalStat 2 0 phase ch

/-- Replace a channel's calibration record. -/
def State.putChan (s : State) (ch : Nat) (c : Chan) : State :=
  { s with cal := { s.cal with chans := SMap.set {} s.cal.chans ch c } }

/-- MEM runs. -/
def State.memUp (s : State) : Bool := !s.down 1

/-- Every stack is out of self-refresh: the HBM domains run (R13, R168). -/
def State.hbmAwake (s : State) : Bool := s.domainsRun [19, 20, 21]

/-- MEM may start an operation (R168). -/
def State.calOk (s : State) : Bool := s.memUp && (s.job.isSome || s.ckpt.restore.isSome) && s.hbmAwake

/-- The temperature that a stack reports, in 0.1 degrees. -/
def State.stackTemp (s : State) (st : Nat) : Int := s.sensor (48 + st)

/-- Record an added latency (R169, R174). -/
def State.noteLatency (s : State) (ch ns : Nat) : State := s.wr rHbmchWaitMax (max (s.rd rHbmchWaitMax ch) ns) ch

/-! ### Failing channels (R177 to R180) -/

/-- Start the evacuations that wait on a die (R168, R178). -/
def State.startEvac (s : State) (die : Nat) : State :=
  if s.calOk && !s.dieBusy die then
    match (dieChans die).find? fun c => (s.chan c).wantEvac && decide (s.chState c = chActive) with
    | some c =>
      (((s.putChan c { s.chan c with wantEvac := false, wantRetrain := false, wantSlice := false }).setChan c chEvacuating 4).wr
        rHbmchEvacPos 0 c).useHbm (.cal c)
    | none => s
  else s

/-- The CHANNEL record of a channel (Table 9-7): 1 retired, 2 fenced. MEM makes it, and where MEM is down, when it is back (R180). -/
def State.chanRecord (s : State) (ch action : Nat) : State :=
  if s.memUp then s.ageWrite ⟨5, ch, 1, bytesLE 1 action ++ bytesLE 1 (ch / 32) ++ bytesLE 1 (s.fld rHbmcMap 4 0 (ch / 32))⟩
  else s.putChan ch { s.chan ch with recordDue := action }

/-- A change of LLM mode that waited for the REPLAY of a die is made: the scratchpad regions of a past job are given up (R152,
R176). -/
def State.llmSettle (s : State) (die : Nat) : State :=
  if s.cal.llmDrop.contains die && !s.dieRetrains die then s.dropLlmDie die else s

/-- The pinned lines of a channel are given up (R174, R175). -/
def State.unpin (s : State) (ch : Nat) : State :=
  { s with cal := { s.cal with pinned := s.cal.pinned.filter fun e => s.hbmchOf (64 * e.1) ≠ ch } }

/-- Fence a channel (R179): its pinned lines are discarded, the job ends, the loss is reported and recorded. -/
def State.fence (s : State) (ch : Nat) : State :=
  let st := ch / 32
  let s1 := s.unpin ch
  let c := { s1.chan ch with wantRetrain := false, wantEvac := false, wantSlice := false }
  let s2 := ((s1.putChan ch c).setChan ch chFenced 0).wr rHbmchAlleyLines 0 ch
  let s3 := (s2.raise tyHbmc st eChFenced (ch % 32) 0).fwLog 1 0 0x032 ch eChFenced
  ((((s3.report 2 eChFenced ch).endJob 3 eChFenced).dropHbm (.cal ch)).llmSettle (ch / 128)).chanRecord ch 2

/-- MEM judges a channel failing: it is evacuated into a free spare, as soon as R168 lets it, or fenced (R177). -/
def State.failing (s : State) (ch : Nat) : State :=
  let st := ch / 32
  if s.chState ch = chFenced ∨ s.chState ch = chRetired ∨ s.chState ch = chSpare then s
  else if (s.chan ch).wantEvac ∨ s.chState ch = chEvacuating then s
  else if s.spared ∧ s.fld rHbmcMap 17 16 st = 0 then (s.putChan ch { s.chan ch with wantEvac := true }).startEvac (st / 4)
  else s.fence ch

/-! ### Errors and rates (R162 to R164) -/

/-- A line's error is uncorrectable: the line is poisoned, where it is not already (R163). -/
def State.poisonLine (s : State) (a : Nat) : State :=
  if SMap.get false s.poison (a / 64) then s
  else
  let ch := s.hbmchOf a
  let st := s.stackOf a
  let first := (stackChans st).all fun c => decide (s.rd rHbmchUe c = 0)
  let c := s.chan ch
  let times := s.now :: c.ueTimes.filter fun t => decide (s.now < t + 3600000000000)
  let s1 := ({ s with poison := SMap.set false s.poison (a / 64) true }).bump rHbmchUe 1 ch
  let s2 := (s1.putChan ch { c with ueTimes := times }).fwLog 1 0 0x033 (a / 64 * 64) st
  if first then s2.raise tyHbmc st ePoison (a / 64 * 64 % 2 ^ 32) (a / 2 ^ 32 % 2 ^ 12) else s2

/-- MEM's judgement of a channel that poisoned 16 lines within an hour (R177). -/
def State.judgeUe (s : State) (ch : Nat) : State :=
  let hour := (s.chan ch).ueTimes.filter fun t => decide (s.now < t + 3600000000000)
  if s.memUp ∧ 16 ≤ hour.length then s.failing ch else s

/-- MEM's judgement of a channel two of whose retrains in a row have aborted (R177). -/
def State.judgeAborts (s : State) (ch : Nat) : State := if s.memUp ∧ 2 ≤ (s.chan ch).abortsInRow then s.failing ch else s

/-- The corrected errors of the last second against the limit, for one channel (R164, R177). -/
def State.evalRate (s : State) (ch : Nat) : State :=
  let c := s.chan ch
  let ce := s.rd rHbmchCe ch
  if !s.memUp then (if c.ceLast = ce then s else s.putChan ch { c with ceLast := ce })
  else
    let old := s.rd rHbmchCeRate ch
    let rate := ce - c.ceLast
    let limit := s.rd rHbmcCeLimit (ch / 32)
    let s1 := s.wr rHbmchCeRate rate ch
    if limit < rate then
      let w := c.watch.map (· + 1)
      let c1 := { c with ceLast := ce, watch := w, wantRetrain := c.wantRetrain || decide (old ≤ limit) }
      let s2 := s1.putChan ch c1
      let s3 := if old ≤ limit then s2.advise 1 tyHbmch ch ch rate else s2
      if 10 ≤ w.getD 0 then (s3.putChan ch { s3.chan ch with watch := none }).failing ch else s3
    else if c.ceLast = ce ∧ c.watch = none then s1
    else s1.putChan ch { c with ceLast := ce, watch := none }

/-! ### Retrains -/

/-- A retrain is called for by the temperature of the stack (R170). -/
def State.tempMoved (s : State) (ch : Nat) : Bool :=
  match (s.chan ch).tempAt with
  | some t => decide (80 < s.stackTemp (ch / 32) - t) || decide (s.stackTemp (ch / 32) - t < -80)
  | none => false

/-- Call for a retrain. -/
def State.callRetrain (s : State) (ch : Nat) : State := s.putChan ch { s.chan ch with wantRetrain := true }

/-- A retrain ends: the pins are released, the channel is ACTIVE, and what waited for it on the die goes on (R174 to R177). -/
def State.retrainOver (s : State) (ch : Nat) : State :=
  let c := s.chan ch
  let s2 := ((((s.unpin ch).setChan ch chActive 0).wr rHbmchAlleyLines 0 ch).bump rHbmchRetrains 1 ch).setFld rHbmchCalStat 31 24 0 ch
  let run := if c.aborted then c.abortsInRow + 1 else 0
  let s3 := s2.putChan ch { c with
    aborted := false, abortsInRow := run, aborts := c.aborts + c.aborted.toNat, watch := some 0, sliceFrom := s.now
    tempAt := some (s.stackTemp (ch / 32)) }
  let s4 := (s3.fwLog 1 2 0x031 ch (if c.aborted then eCalAbort else eNone)).dropHbm (.cal ch)
  ((s4.judgeAborts ch).llmSettle (ch / 128)).startEvac (ch / 128)

/-! ### Margin scans (R182) -/

/-- The expert level of a page is open. -/
def State.expertOpen (s : State) (ty inst : Nat) : Bool := bitOf (s.hdr ty inst hPageCtrl) 2

/-- A write starts a margin scan: E_STATE unless the channel is SPARE, or SCH is IDLE with nothing using HBM; a link scan needs
an up port. The stacks leave self-refresh for a scan of a channel. -/
def State.startScan (s : State) (ty unit : Nat) : State × Nat :=
  if ty = tyHbmch then
    let idle := decide (s.jobState = stIdle) && s.power.uses.all fun u =>
      match u with
      | .xfer | .scrub | .restore => false
      | .ckpt | .fwLoad _ | .log | .fwRestart _ | .margin _ | .cal _ => true
    if s.chState unit = chSpare ∨ idle then (s.useHbm (.margin unit), eNone) else (s, eState)
  else if s.fld rFportStat 3 0 unit = 7 then
    ({ s with cal := { s.cal with linkScans := unit :: s.cal.linkScans.filter (· ≠ unit) } }, eNone)
  else (s, eState)

/-- The bytes that a scan of a channel overwrote: no pattern is stated, so the listed ones become free values. -/
def State.scramble (s : State) (ch : Nat) : State :=
  s.mem.foldl (fun t c => if c.1 < llmBase ∧ t.hbmchOf c.1 = ch then
    let (b, t1) := t.freeBytes 9 1
    t1.pokeRaw c.1 (b.headD 0) else t) s

/-! ### Commands -/

/-- SCRUB_ACCESS: MEM reads and checks the line of a local address and finds it clean, with a correctable error, or with an
uncorrectable one (R162 to R164). -/
def execScrubAccess (a : BitVec 40) (found : Ecc) (s : State) : Outcome :=
  let line := a.toNat / 64 * 64
  let ch := s.hbmchOf line
  let st := s.stackOf line
  if s.memUp && s.flag rHbmcMap 31 && s.hbmAwake && s.inHbm line 64 &&
      (decide (s.chState ch = chActive) || decide (s.chState ch = chEvacuating)) then
    let pos := (s.rd rHbmcScrubPos st + 64) % (s.hbmSize / 16)
    let s1 := s.wr rHbmcScrubPos pos st
    match found with
    | .clean => .next s1
    | .corrected => .next (s1.bump rHbmchCe 1 ch)
    | .uncorrectable => .next ((s1.poisonLine line).judgeUe ch)
  else .next s

/-- CE_RATE_EVAL: the end of a one-second window (R164). -/
def execCeRateEval (s : State) : Outcome :=
  let s1 := { s with now := (s.now / 1000000000 + 1) * 1000000000 }
  .next ((upTo 512).foldl State.evalRate s1)

/-- SLICE_START (R168, R170, R176): the slice interval of an ACTIVE channel has passed; a start that R168 forbids waits. -/
def execSliceStart (ch : Fin 512) (s : State) : Outcome :=
  let c := ch.val
  if !s.calOk || decide (s.chState c ≠ chActive) then .next s
  else
    let x := s.chan c
    let s1 := { s with now := max s.now (x.sliceFrom + s.rd rHbmcSliceInterval (c / 32) * 1000000) }
    if (stackChans (c / 32)).any fun k => decide (s.chState k = chSlice) then .next (s1.putChan c { x with wantSlice := true })
    else .next (((s1.putChan c { x with wantSlice := false, sliceFrom := s1.now }).setChan c chSlice 0).useHbm (.cal c))

/-- SLICE_END: the largest drift that the slice measured, in PHY steps, of which it corrects at most HBMC_DRIFT_LIMIT, and the largest
latency it added, at most 500 ns (R169, R170). -/
def execSliceEnd (ch : Fin 512) (drift : BitVec 8) (waited : BitVec 16) (s : State) : Outcome :=
  let c := ch.val
  if s.chState c = chSlice then
    let limit := s.rd rHbmcDriftLimit (c / 32)
    let s1 := (((s.setChan c chActive 0).bump rHbmchSlices 1 c).setFld rHbmchCalStat 23 16 drift.toNat c).noteLatency c (min 500 waited.toNat)
    let s2 := ((s1.putChan c { s1.chan c with corrected := min limit drift.toNat }).fwLog 1 3 0x030 c drift.toNat).dropHbm (.cal c)
    let s3 := if decide (limit < drift.toNat) || s2.tempMoved c then s2.callRetrain c else s2
    .next (s3.startEvac (c / 128))
  else .next s

/-- RETRAIN_START (R168, R170, R171): a channel for which a retrain is called for moves to RETRAIN, phase DRAIN; `dirty` is the
number of its lines that the die's cache holds dirty, which are pinned now (R172); which they are is free (log entry 76). -/
def execRetrainStart (ch : Fin 512) (dirty : BitVec 20) (s : State) : Outcome :=
  let c := ch.val
  let due := (s.chan c).wantRetrain || s.tempMoved c
  if s.calOk && due && decide (s.chState c = chActive) && !s.flag rLlmStat 0 (c / 128) then
    if s.dieBusy (c / 128) then .next (s.callRetrain c)
    else
      let (v, s0) := s.free 57
      let s1 := s0.putChan c { s0.chan c with wantRetrain := false, aborted := false, dirty := v }
      let lines := if s.flag rLlmStat 1 (c / 128) then 0 else dirty.toNat
      .next ((((s1.setChan c chRetrain 1).setFld rHbmchCalStat 31 24 0 c).wr rHbmchAlleyLines lines c).useHbm (.cal c))
  else .next s

/-- RETRAIN_DRAIN_DONE (R171): the requests already issued are complete, and TRAIN begins. -/
def execRetrainDrainDone (ch : Fin 512) (s : State) : Outcome :=
  if s.chState ch.val = chRetrain ∧ s.fld rHbmchCalStat 2 0 ch.val = 1 then .next (s.setChan ch.val chRetrain 2) else .next s

/-- RETRAIN_TRAIN_DONE (R171, R174, R175): training ends within its margins, aborts with the old settings good, or aborts with
the old settings failing their read test; `waited` is the largest latency added to a request, in ns, at most 22 us (R174). -/
def execRetrainTrainDone (ch : Fin 512) (res : Trained) (waited : BitVec 16) (s : State) : Outcome :=
  let c := ch.val
  if s.chState c = chRetrain ∧ s.fld rHbmchCalStat 2 0 c = 2 then
    let s1 := (((s.setChan c chRetrain 3).setFld rHbmchCalStat 31 24 0 c)).noteLatency c (min 22000 waited.toNat)
    match res with
    | .done => .next s1
    | .aborted => .next ((s1.putChan c { s1.chan c with aborted := true }).raise tyHbmch c eCalAbort 0 0)
    | .failed => .next (((s1.raise tyHbmch c eCalAbort 0 0).fence c).startEvac (c / 128))
  else .next s

/-- RETRAIN_REPLAY_DONE (R174): the last pinned line has been written. -/
def execRetrainReplayDone (ch : Fin 512) (s : State) : Outcome :=
  if s.chState ch.val = chRetrain ∧ s.fld rHbmchCalStat 2 0 ch.val = 3 then .next (s.retrainOver ch.val) else .next s

/-- EVACUATION_DONE (R178): the spare takes over; the channel of 2 GiB has 2^22 rows of 512 bytes. A second channel of the stack that
waits for the spare has none any more and is fenced (R177). -/
def execEvacuationDone (ch : Fin 512) (s : State) : Outcome :=
  let c := ch.val
  let st := c / 32
  if s.chState c = chEvacuating then
    let spare := 32 * st + s.fld rHbmcMap 4 0 st
    let s0 := s.putChan spare { s.chan spare with sliceFrom := s.now }
    let s1 := ((s0.setChan c chRetired 0).setChan spare chActive 0).wr rHbmchEvacPos (2 ^ 22) c
    let s2 := (s1.setFld rHbmcMap 17 16 1 st).setFld rHbmcMap 12 8 (c % 32) st
    let s3 := (s2.raise tyHbmc st eChRetired (c % 32) 0).fwLog 1 0 0x032 c eChRetired
    let s4 := ((s3.advise 1 tyHbmc st c (s3.rd rHbmchCeRate c)).chanRecord c 1).dropHbm (.cal c)
    let s5 := ((stackChans st).filter fun x => (s4.chan x).wantEvac).foldl State.fence s4
    .next (s5.startEvac (st / 4))
  else .next s

/-- MARGIN_SCAN_DONE (R182): a scan of a channel, or of a port, ends with its passing width and height. -/
def execMarginScanDone (link : Bool) (unit : Fin 512) (width height : BitVec 16) (s : State) : Outcome :=
  if link then
    if s.cal.linkScans.contains unit.val then
      .next { s with cal := { s.cal with
        linkEyes := SMap.set (0, 0) s.cal.linkEyes unit.val (width.toNat, height.toNat)
        linkScans := s.cal.linkScans.filter (· ≠ unit.val) } }
    else .next s
  else if s.power.uses.contains (.margin unit.val) && s.hbmAwake then
    let s1 := (s.scramble unit.val).putChan unit.val { s.chan unit.val with eye := some (width.toNat, height.toNat) }
    .next (s1.dropHbm (.margin unit.val))
  else .next s

/-! ### Between commands -/

/-- A channel delivers data: its errors can show. -/
def State.chServes (s : State) (ch : Nat) : Bool :=
  decide (s.chState ch = chActive) || decide (s.chState ch = chSlice) || decide (s.chState ch = chRetrain) ||
    decide (s.chState ch = chEvacuating)

/-- What happens while no command waits, by free choice `v` of the kind and `w` of the place (log entry 89): a word of an LLM is
corrected in place; a dirty line of an LLM is lost and written back poisoned; a read of HBM is delivered corrected, or finds its line
uncorrectable, which poisons it; the copy engine of an evacuation moves on, and finds a line uncorrectable, which it stores poisoned
(R162, R163, R178); or nothing. -/
def State.between (s : State) (v w : Nat) : State :=
  let line := 64 * (w % (s.hbmSize / 64))
  let ch := s.hbmchOf line
  let die := ch / 128
  let live := s.flag rHbmcMap 31 && s.hbmAwake && s.chServes ch
  if v % 7 = 0 then (if s.domainsRun [13 + w % 4] then s.bump rLlmCe 1 (w % 4) else s)
  else if v % 7 = 1 then
    (if live && s.domainsRun [13 + die] && decide (s.cacheRegions die ≠ 0) then ((s.poisonLine line).bump rLlmUe 1 die).judgeUe ch else s)
  else if v % 7 = 2 then (if live then s.bump rHbmchCe 1 ch else s)
  else if v % 7 = 3 then (if live then ((s.poisonLine line).noteLine line).judgeUe ch else s)
  else if v % 7 = 4 then
    (if live && decide (s.chState ch = chEvacuating) then
      s.wr rHbmchEvacPos (min (2 ^ 22 - 1) (s.rd rHbmchEvacPos ch + 1 + w / 2 ^ 40)) ch
     else s)
  else if v % 7 = 5 then (if live && decide (s.chState ch = chEvacuating) then (s.poisonLine line).judgeUe ch else s)
  else s

/-- The idle step: one free choice of what happens between commands (log entry 89). -/
def State.idle (s : State) : State :=
  if s.boot.held then s else ((s.free 58).2.free 59).2.between (s.free 58).1 ((s.free 58).2.free 59).1

end Sys2Proof.Machine
end

