-- ==== Sys2Proof/Machine/Links.lean ====
section
/-!
DEFINITION. Ports, laser modules, frames, link training and link keys (R223 to R239, R241, R326, R340).
-/

namespace Sys2Proof.Machine

/-- FAB runs and has taken up its duties. -/
def State.fabUp (s : State) : Bool := !s.down 2

/-- SEC runs and has taken up its duties. -/
def State.secUp (s : State) : Bool := !s.down 3

/-- Record a port of a member in FSW_GROUP_UP (R239). -/
def State.noteUp (s : State) (member port : Nat) (up : Bool) : State :=
  s.wr rFswGroupUp (withBit (s.rd rFswGroupUp 0 (8 * member)) port up) 0 (8 * member)

/-- A state in which the port sends light, so that its optical gate is open (R225, Table 11-6). -/
def sendsLight (st : Nat) : Bool := (decide (poLight ≤ st) && decide (st ≤ poRetune)) || decide (st = poBoot)

/-- What a port loses when it stops carrying frames: its keys, its replay buffer and what it has queued or half received (R227,
R233; log entry 92). -/
def Port.lose (x : Port) : Port :=
  { x with keys := [], txSlot := 0, rxNext := 0, txNext := 0, naks := 0, tagFails := [], txq := [], replay := [], freed := noCredit
           rxPart := [], rxStop := [], peerRetune := false }

/-- Set the optical gate of a port to what its state asks for; THERMTRIP_N and the loss of REFCLK_FAB close every gate (R225, R312,
R386). -/
def State.setGate (s : State) (p : Nat) : State :=
  let open_ := sendsLight (s.portState p) && s.pins.thermtripN && !s.flag rClkRefStat 2
  { s with pins := { s.pins with gates := withBit s.pins.gates p open_ } }

/-- A port enters a state: FPORT_STAT, its optical gate, the count of departures from UP, the link-state record, the reports and
the log entry (R225, R233, R239). The keys, sequences and replay buffer stay only through UP and RETUNE. -/
def State.enterPort (s : State) (p st cause : Nat) : State :=
  let old := s.portState p
  let live := fun (x : Nat) => decide (x = poUp) || decide (x = poRetune)
  let s1 := ((s.setFld rFportStat 3 0 st p).setFld rFportStat 11 8 cause p).setGate p
  let s2 := s1.onPort p fun x => { x with since := s1.now, lightLost := false, exchange := none }
  let s3 := if live st then s2 else (s2.setFld rFportStat 17 16 0 p).onPort p Port.lose
  let s4 := if st < poAlign ∨ st = poFailed then s3.setFld rFportStat 31 24 0 p else s3
  let s5 := if live old ∧ ¬ live st then s4.bump rFportDowns 1 p else s4
  let s6 :=
    if (old = poUp) ≠ (st = poUp) then
      (s5.noteUp (s5.nodeId % 32) p (decide (st = poUp))).emit (.linkState p (decide (st = poUp)))
    else s5
  let s7 := s6.fwLog 2 2 0x040 p (st + 256 * cause)
  let s8 :=
    if live old ∧ ¬ live st then s7.report 0x12 cause p
    else if ¬ live old ∧ st = poUp then s7.report 0x13 0 p
    else s7
  s8.syncGrants

/-! ### Laser modules (R225) -/

/-- Bit `b` of a module's byte of FSW_LASER: 0 present, 1 enabled, 2 fault, 3 power within limits. -/
def State.laserBit (s : State) (m b : Nat) : Bool := s.flag rFswLaser (8 * m + b)

/-- Set bit `b` of a module's byte. -/
def State.setLaser (s : State) (m b : Nat) (v : Bool) : State := s.setFlag rFswLaser (8 * m + b) v

/-- The ports of a module (R223). -/
def modulePorts (m : Nat) : List Nat := (upTo 12).map (· + 12 * m)

/-- A port in DARK lights up when it is enabled and its module is (Table 11-6). -/
def State.lightPort (s : State) (p : Nat) : State :=
  if s.portState p = poDark ∧ bitOf (s.hdr tyFport p hPageCtrl) 0 ∧ s.laserBit (p / 12) 1 ∧ ¬ s.boot.held then
    s.enterPort p poLight 0
  else s

/-- Enable the module of a port after its identity has been read; other ports of it light up as they are enabled (R225). -/
def State.enableLaser (s : State) (m : Nat) : State :=
  if bitOf s.boot.validLasers m ∧ s.laserBit m 0 then (modulePorts m).foldl State.lightPort (s.setLaser m 1 true) else s

/-- A module is taken out of use: its ports fail with cause 6. -/
def State.laserDown (s : State) (m : Nat) : State :=
  (modulePorts m).foldl (fun t p => if t.portState p = poDark then t else t.enterPort p poFailed 6)
    ((s.setLaser m 1 false).setLaser m 3 false)

/-- LASER_REMOVE (R225). -/
def execLaserRemove (m : Fin 4) (s : State) : Outcome :=
  let s1 := { s with boot := { s.boot with
    lasers := withBit s.boot.lasers m.val false, validLasers := withBit s.boot.validLasers m.val false } }
  .next (((s1.laserDown m.val).setLaser m.val 0 false).setLaser m.val 2 false)

/-- The member that serves the boot port, and the boot port of this member (R340). -/
def State.bootPort (s : State) : Nat := (s.boot.bridge + 31 - s.nodeId % 32) % 32

/-- The port is the lit boot port of a member that loads its images (R340). -/
def State.isBootPort (s : State) (p : Nat) : Bool := s.boot.booting && decide (p = s.bootPort)

/-- Light the boot port: the AON boot logic enables its module after reading the module's identity, and only that port (R225,
R340). -/
def State.lightBoot (s : State) : State :=
  let p := s.bootPort
  let m := p / 12
  if s.boot.booting ∧ bitOf s.boot.validLasers m ∧ s.laserBit m 0 then
    let s1 := s.setLaser m 1 true
    if s1.portState p = poDark ∨ (s1.portState p = poFailed ∧ s1.fld rFportStat 11 8 p = 6) then s1.enterPort p poLight 0 else s1
  else s

/-- FAB brings up the ports of a module that was taken out of use (R225). -/
def State.laserBack (s : State) (m : Nat) : State :=
  if bitOf s.boot.validLasers m ∧ s.laserBit m 0 then
    ((modulePorts m).foldl (fun t p =>
      if t.portState p = poFailed ∧ t.fld rFportStat 11 8 p = 6 then t.enterPort p poLight 0 else t) s).enableLaser m
  else s

/-- LASER_INSERT: FAB reads the module's identity, enables it and brings its ports up again; before FAB runs, the boot logic does
so for the boot port (R225). -/
def execLaserInsert (m : Fin 4) (valid : Bool) (s : State) : Outcome :=
  let s1 := { s with boot := { s.boot with
    lasers := withBit s.boot.lasers m.val true, validLasers := withBit s.boot.validLasers m.val valid } }
  let s2 := (s1.setLaser m.val 0 true).setLaser m.val 2 false
  .next (if s2.fabUp then s2.laserBack m.val else s2.lightBoot)

/-- LASER_FAULT: the module's ports lose light, FSW_LASER shows the fault, and the report goes out (R225, Table 11-10). -/
def execLaserFault (m : Fin 4) (s : State) : Outcome :=
  .next (((s.laserDown m.val).setLaser m.val 2 true).report 0x14 0 m.val)

/-! ### Wiring (R234, R237) -/

/-- The partner's record agrees with the wiring: a gateway also with FPORT_EXPECT where wiring is explicit (R234). -/
def State.wiringOk (s : State) (p : Nat) (r : IdentRec) : Bool :=
  let told := decide (s.expected p = some (r.kind.toNat, r.node.toNat, r.port.toNat))
  if r.kind.toNat = 2 then
    decide (31 ≤ p) && decide (s.gatewayOn p = some r.node.toNat) && (told || !s.flag rFswRouteCtrl 1)
  else told

/-- The ports that the wiring rule or a gateway entry names. -/
def State.namedPorts (s : State) : List Nat := (upTo 48).filter fun p => (s.expected p).isSome || (s.gatewayOn p).isSome

/-! ### Training (R233 to R235) -/

/-- Link bring-up goes on: FAB runs, or the AON boot logic brings up the boot port (R235, R340). -/
def State.trains (s : State) (p : Nat) : Bool := !s.boot.held && (s.fabUp || s.isBootPort p)

/-- LIGHT_READY: the module reports power on all eight outputs. -/
def execLightReady (p : Fin 48) (s : State) : Outcome :=
  if s.portState p.val = poLight then .next ((s.setLaser (p.val / 12) 3 true).enterPort p.val poDetect 0) else .next s

/-- RX_POWER_DETECT: received power of the eight lanes in 0.01 dBm; above −10 dBm on all, DETECT goes to LOCK, and FAILED to
DETECT where light had been lost (Table 11-6). -/
def execRxPowerDetect (p : Fin 48) (power : List (BitVec 16)) (s : State) : Outcome :=
  let s1 := (upTo 8).foldl (fun t j =>
    let w := t.rd rFportRxPwr p.val (4 * (j / 2))
    t.wr rFportRxPwr (withBits w (16 * (j % 2) + 15) (16 * (j % 2)) ((power.getD j 0).toNat)) p.val (4 * (j / 2))) s
  let lit := (upTo 8).all fun j => decide (-1000 < (power.getD j 0x8000).toInt)
  if lit ∧ s1.portState p.val = poFailed ∧ (s1.port p.val).lightLost then .next (s1.enterPort p.val poDetect 0)
  else if lit ∧ s1.portState p.val = poDetect ∧ s1.trains p.val ∧ ¬ s1.flag rClkRefStat 2 then .next (s1.enterPort p.val poLock 0)
  else .next s1

/-- LANE_LOCK: clock recovery and equalisation hold on all lanes; the port goes to ALIGN. -/
def execLaneLock (p : Fin 48) (s : State) : Outcome :=
  if s.portState p.val = poLock ∧ s.trains p.val then
    .next ((s.enterPort p.val poAlign 0).setFld rFportStat 31 24 0xFF p.val)
  else .next s

/-- The receive credit that this node advertises: 64 blocks for each VC and 2,688 shared (R230). -/
def ownCredit : List (BitVec 16) := [64, 64, 64, 64, 64, 64, 2688]

/-- The identity record that this node sends (R234). -/
def State.ownIdentity (s : State) (p : Nat) (boot : Bool) : IdentRec :=
  { node := BitVec.ofNat 14 s.nodeId, port := BitVec.ofNat 6 p, kind := 1, stepping := BitVec.ofNat 8 (s.rd rNodePart % 256)
    credits := ownCredit, boot := boot }

/-- CODEWORD_LOCK: codeword lock and lane deskew; the port sends its identity record. -/
def execCodewordLock (p : Fin 48) (s : State) : Outcome :=
  if s.portState p.val = poAlign ∧ s.trains p.val then
    .next ((s.enterPort p.val poIdentify 0).emit (.identity p.val (s.ownIdentity p.val (s.isBootPort p.val))))
  else .next s

/-! ### Link keys (R231, R326) -/

/-- A private identity key: the scheme's HKDF output from the identity seed (R321). -/
def Sec.idPriv (x : Sec) (scheme : Nat) : List Byte :=
  hkdfExpand (hkdfExtract [] x.seed) (ascii (if scheme = 0 then "MBID-ED" else "MBID-MLDSA")) 32

/-- A public identity key. -/
def Sec.idPub (x : Sec) (scheme : Nat) : List Byte := Config.publicKey scheme (x.idPriv scheme)

/-- Start a key exchange on a port: fresh nonce and keys are drawn, and this node's first message is sent. -/
def State.startExchange (s : State) (p : Nat) : State :=
  let (nonce, s1) := s.freeBytes 30 32
  let (xs, s2) := s1.freeBytes 31 32
  let (ks, s3) := s2.freeBytes 32 64
  let m : KeyMsg :=
    { nonce := nonce, x25519 := Config.publicKey 2 xs, mlkem := Config.publicKey 3 ks
      idEd := s3.sec.idPub 0, idMl := s3.sec.idPub 1
      endEd := (s3.sec.endorsement.drop 4).take 64, endMl := s3.sec.endorsement.drop 68, ct := [], sigEd := [], sigMl := [] }
  (s3.onPort p fun x => { x with exchange := some (m, xs, ks) }).emit (.keyExchange p m)

/-- IDENTITY_RECORD: the partner's record is checked against the wiring (R234): KEY, or BOOT where either record is flagged, or
FAILED with cause 1. The bridge flags its own record on the port that serves a member in BOOT (R340). -/
def execIdentityRecord (p : Fin 48) (r : IdentRec) (s : State) : Outcome :=
  let take := fun (t : State) => t.onPort p.val fun x => { x with credit := (upTo 7).map fun i => (r.credits.getD i 0).toNat }
  if s.portState p.val ≠ poIdentify ∨ ¬ s.trains p.val then .next s
  else
    let s1 := s.wr rFportPartner (r.kind.toNat * 2 ^ 30 + r.port.toNat * 2 ^ 24 + r.node.toNat) p.val
    if !s1.wiringOk p.val r then
      .next ((s1.enterPort p.val poFailed 1).raise tyFport p.val eLinkFail r.node.toNat r.port.toNat)
    else if r.boot ∨ s1.isBootPort p.val then
      let s2 := if s1.isBootPort p.val then s1 else s1.emit (.identity p.val (s1.ownIdentity p.val true))
      .next (take (s2.enterPort p.val poBoot 0))
    else
      let s2 := take (s1.enterPort p.val poKey 0)
      .next (if s2.secUp then s2.startExchange p.val else s2)

end Sys2Proof.Machine

namespace Sys2Proof

/-- The first part of a party's messages. -/
def KeyMsg.offer (m : KeyMsg) : List Byte := m.nonce ++ m.x25519 ++ m.mlkem ++ m.idEd ++ m.idMl ++ m.endEd ++ m.endMl

end Sys2Proof

namespace Sys2Proof.Machine

/-- The hash of the whole exchange, the lower party first. -/
def exchangeHash (first second : KeyMsg) (ct1 ct2 : List Byte) : List Byte :=
  sha384 (first.offer ++ second.offer ++ ct1 ++ ct2)

/-- The message that an endorsement signs (R321). -/
def endorsed (node : Nat) (pubEd pubMl : List Byte) : List Byte := sha384 (ascii "MBEN" ++ bytesLE 2 node ++ pubEd ++ pubMl)

/-- The partner's identity is vouched for: a node by Falvor's endorsement, a gateway by the hash of its record (R326). -/
def State.vouched (s : State) (p : Nat) (m : KeyMsg) : Bool :=
  let w := s.rd rFportPartner p
  let node := bitsOf w 13 0
  if bitsOf w 31 30 = 2 then decide (sha384 (m.idEd ++ m.idMl) = SMap.get [] s.sw.gateKeys node)
  else
    let msg := endorsed node m.idEd m.idMl
    Config.verify 0 (Config.root 0 0) msg m.endEd && Config.verify 1 (Config.root 0 1) msg m.endMl

/-- KEY_EXCHANGE: the partner's messages are verified and answered; the key is loaded in the slot not in use. In KEY the port
goes UP; while UP its frames change to the new slot (R231, R326). -/
def execKeyExchange (p : Fin 48) (m : KeyMsg) (s : State) : Outcome :=
  let st := s.portState p.val
  match (s.port p.val).exchange with
  | some (mine, xs, ks) =>
    if (st ≠ poKey ∧ st ≠ poUp) ∨ ¬ s.secUp then .next s
    else
      let (r, s1) := s.freeBytes 33 32
      let ct := Config.encapsulate r m.mlkem
      let w := s1.rd rFportPartner p.val
      let low := decide (s1.nodeId * 64 + p.val < bitsOf w 13 0 * 64 + bitsOf w 29 24)
      let h := if low then exchangeHash mine m ct m.ct else exchangeHash m mine m.ct ct
      let good := s1.vouched p.val m && Config.verify 0 m.idEd h m.sigEd && Config.verify 1 m.idMl h m.sigMl
      if !good then
        if st = poKey then .next ((s1.enterPort p.val poFailed 3).raise tyFport p.val eSig 0 0)
        else .next ((s1.onPort p.val fun x => { x with exchange := none }).raise tyFport p.val eSig 0 0)
      else
        let kx := Config.agree 2 xs m.x25519
        let kk := if low then Config.agree 3 r m.mlkem ++ Config.agree 3 ks m.ct else Config.agree 3 ks m.ct ++ Config.agree 3 r m.mlkem
        let key := hkdfExpand (hkdfExtract h (kx ++ kk)) (ascii "MBLK") 32
        let reply := { mine with ct := ct, sigEd := Config.sign 0 (s1.sec.idPriv 0) h, sigMl := Config.sign 1 (s1.sec.idPriv 1) h }
        let s2 := s1.emit (.keyExchange p.val reply)
        let slot := if st = poKey then 0 else 1 - (s2.port p.val).txSlot
        let s3 := if st = poKey then s2.enterPort p.val poUp 0 else s2
        let s4 := s3.onPort p.val fun x => { x with txSlot := slot, keys := SMap.set [] x.keys slot key, exchange := none }
        .next (s4.setFlag rFportStat (16 + slot) true p.val)
  | none => .next s

/-- Replace the key of every up port by a fresh exchange (R231); ports in KEY start theirs. -/
def State.rekeyPorts (s : State) : State :=
  if !s.secUp then s
  else (upTo 48).foldl (fun t p =>
    if t.portState p = poUp ∨ (t.portState p = poKey ∧ (t.port p).exchange = none) then t.startExchange p else t) s

/-! ### Timeouts and loss (R233, Table 11-6) -/

/-- PORT_STATE_TIMEOUT: the time limit of a training state has passed; in KEY it counts only while SEC runs. -/
def execPortStateTimeout (p : Fin 48) (s : State) : Outcome :=
  let st := s.portState p.val
  let at_ := fun (ns : Nat) => { s with now := max s.now ((s.port p.val).since + ns) }
  if st = poLight then .next ((at_ 1000000).enterPort p.val poFailed 6)
  else if st = poLock then .next ((at_ 2000000).enterPort p.val poDetect 0)
  else if st = poAlign ∨ st = poIdentify then .next ((at_ 100000).enterPort p.val poDetect 0)
  else if st = poKey ∧ s.secUp then .next ((at_ 10000000).enterPort p.val poFailed 3)
  else .next s

/-- LOSS_OF_LIGHT: received light is lost for 100 ns: DETECT from LOCK upward, and the replay buffer is lost; FAILED remembers
it. -/
def execLossOfLight (p : Fin 48) (s : State) : Outcome :=
  let st := s.portState p.val
  if st = poFailed then .next (s.onPort p.val fun x => { x with lightLost := true })
  else if poLock ≤ st then .next (s.enterPort p.val poDetect 0)
  else .next s

/-- A write of FPORT_CTRL with RETRY set. -/
def State.portRetry (s : State) (p : Nat) : State := if s.portState p = poFailed then s.enterPort p poDetect 0 else s

/-- FPORT_RETRY: FAILED is left for DETECT (Table 11-6). -/
def execFportRetry (p : Fin 48) (s : State) : Outcome := if s.boot.held then .next s else .next (s.portRetry p.val)

/-! ### Link-state records (R239) -/

/-- LINK_STATE_RECORD: a member's port has changed state (R239). -/
def execLinkStateRecord (member : Fin 32) (port : Fin 48) (up : Bool) (s : State) : Outcome :=
  if member.val = s.nodeId % 32 then .next s else .next (s.noteUp member.val port.val up)

/-! ### Retunes (R181, R228) -/

/-- A port is the only path to a destination: to the member it leads to, to a gateway, or to a group whose other exits are down. -/
def State.onlyPath (s : State) (p : Nat) : Bool :=
  let me := s.nodeId % 32
  let s1 := s.noteUp me p false
  if p ≤ 30 then !s1.pathTo (s.nodeId / 32 * 32 + (me + p + 1) % 32) (.request 1 (s.mkReq .report 0 0 0 0 0 []))
  else
    (s.sw.gates.any fun e => decide (s.gateway e.1 = some (s.nodeId, p))) ||
    s.sw.exits.any fun e =>
      let es := s.exits e.1
      es.contains (me, p) && es.all fun x => decide (x = (me, p)) || !s.portUp x.1 x.2

/-- FEC_RATE_EVAL: the corrected symbols of the last one-second window; above the limit FAB retunes the port, one at a time on a
fibre array connector and never the only path to a destination; RETUNE in its last frame announces it (R181, R228). -/
def execFecRateEval (p : Fin 48) (s : State) : Outcome :=
  let n := s.rd rFportFecCorr p.val
  let rate := min (n - (s.port p.val).fecLast) 0xFFFFFFFF
  let s1 := (s.wr rFportFecRate rate p.val).onPort p.val fun x => { x with fecLast := n }
  let busy := (modulePorts (p.val / 12)).any fun q => decide (s1.portState q = poRetune)
  if s1.rd rFportFecLimit p.val < rate ∧ s1.portState p.val = poUp ∧ s1.fabUp ∧ ¬ busy ∧ ¬ s1.onlyPath p.val then
    let s2 := (s1.bump rFportRetunes 1 p.val).fwLog 2 2 0x041 p.val rate
    let s3 := if s2.linkRuns p.val then s2.sendFrame p.val [] flagRetune else s2
    .next (s3.enterPort p.val poRetune 0)
  else .next s1

/-- RETUNE_END: the retune completes, or 50 us have passed (Table 11-6). -/
def execRetuneEnd (p : Fin 48) (ok : Bool) (s : State) : Outcome :=
  if s.portState p.val ≠ poRetune then .next s
  else if ok then .next ((s.enterPort p.val poUp 0).portGo p.val)
  else .next (({ s with now := max s.now ((s.port p.val).since + 50000) }).enterPort p.val poDetect 0)

/-! ### FAB at start (R237, R238, R241, R340) -/

/-- The exit table of reference wiring: the first four links to each group (R237, R238). -/
def State.fillExits (s : State) : State :=
  let g1 := s.groupsLess1
  let a := s.nodeId / 32
  if s.flag rFswRouteCtrl 1 ∨ g1 = 0 then s
  else
    let links := fun (g : Nat) => (upTo (544 / g1)).map fun t => (g + g1 - a) % (g1 + 1) + g1 * t
    let entry := fun (i : Nat) => 2 ^ 15 + i / 17 * 2 ^ 8 + (31 + i % 17)
    let word := fun (g : Nat) => ((links g).take 4).zipIdx.foldl (fun w x => w + entry x.1 * 2 ^ (16 * x.2)) 0
    let exits := (upTo (g1 + 1)).foldl (fun m g => if g = a then m else SMap.set 0 m g (BitVec.ofNat 64 (word g))) s.sw.exits
    { s with sw := { s.sw with exits := exits } }

/-- FAB enables the laser modules fitted and the ports that the wiring names, where the identity record is valid. -/
def State.bringUpPorts (s : State) : State :=
  if !s.flag rNodeId 15 then s
  else
    let s1 := s.namedPorts.foldl (fun t p => t.setHdr tyFport p hPageCtrl (withBit (t.hdr tyFport p hPageCtrl) 0 true)) s
    (upTo 4).foldl State.enableLaser s1

/-- ADAPT_ENABLE: every port that the wiring rule names has been UP for 10 ms (R241). -/
def execAdaptEnable (s : State) : Outcome :=
  let ps := (upTo 48).filter fun p => (s.expected p).isSome
  if s.fabUp ∧ ps ≠ [] ∧ (ps.all fun p => decide (s.portState p = poUp)) ∧ ¬ s.flag rFswRouteCtrl 0 then
    let last := ps.foldl (fun m p => max m (s.port p).since) 0
    .next (((({ s with now := max s.now (last + 10000000) }).setFlag rFswRouteCtrl 0 true)).setFlag rFswStat 1 true)
  else .next s

/-- BOOT_PORT_RELEASE: all six processors of the member run, and FAB takes the boot port to DETECT for normal training; on the
bridge, the port that served the member loses light instead (R340). -/
def execBootPortRelease (s : State) : Outcome :=
  if s.boot.booting ∧ ((upTo 6).all s.fwRunning) ∧ s.fabUp then
    let s1 := { s with boot := { s.boot with booting := false } }
    .next (if s1.portState s1.bootPort = poBoot then s1.enterPort s1.bootPort poDetect 0 else s1)
  else .next s

/-! ### Reference clock of the fabric (R386) -/

/-- The loss of REFCLK_FAB: every port leaves its state for DETECT. -/
def State.fabClockLost (s : State) : State :=
  (upTo 48).foldl (fun t p => if t.portState p = poDark ∨ t.portState p = poFailed then t else t.enterPort p poDetect 0) s

end Sys2Proof.Machine
end

