-- ==== Sys2Proof/Machine/Reset.lean ====
section
/-!
DEFINITION. The resets of the node, the reference clocks, the pins that start and stop it, and the PCIe link (R225, R243, R244,
R312, R366 to R369, R371, R377, R386, R397).
-/

namespace Sys2Proof.Machine

/-- The resets that take the dies through power-on reset (Table 19-1). -/
inductive ResetKind where
  | aon | power | warm | lifeCycle
  deriving DecidableEq, Repr

/-- HBM stays powered. -/
def ResetKind.keepsHbm : ResetKind → Bool
  | .aon | .power => false
  | .warm | .lifeCycle => true

/-- The registers outside the AON page that only a reset that clears the AON domain clears: counters since power-up, and what the
AON domain holds for other pages (R167, R189, R247, R312, R315, R336, R347, R351, Table 20-8). -/
def aonKept : List (Nat × List Nat) :=
  [(tyClk, [0x88]), (tyPwr, [0x9C]), (tyThm, [0x8C, 0x94]), (tyLcy, [0x8C]), (tyFwp, [0xA4]), (tyDbg, [0xB8, 0xBC]),
   (tyHbr, [0x8C, 0x94]), (tyAge, [0x94]), (tyLlm, [0x98, 0x9C]), (tyHbmc, [0x98]),
   (tyHbmch, [0x84, 0x88, 0x90, 0xA4, 0xA8, 0xB0, 0xB4]), (tyMsa, [0x98]),
   (tyFport, [0x90, 0x98, 0x9C, 0xA0, 0xA4, 0xA8, 0xD0]), (tyFsw, [0x8C, 0x90, 0x94])]

/-- What a reset leaves of a register (Table 19-1). -/
def keptWord (k : ResetKind) (key : Nat) (v : Word) : Word :=
  let off := key % 4096
  let ty := key / 4096 / 512
  let d := regDefault key
  let kept := decide (k = .warm)
  if k = .aon then d
  else if off = hPageCtrl then (if kept then (d &&& ~~~6#64) ||| (v &&& 6#64) else d)
  else if off = hScratch then (if kept then v else d)
  else if ty = tyNode ∧ 0x100 ≤ off then (if kept then v else d)
  else if ty = tyAon then v
  else if ty = tyPwr ∧ off = 0x80 then (if k = .lifeCycle then v &&& 0x400000#64 else d)
  else if ty = tyDbg ∧ (off = 0x80 ∨ off = 0x88) then (if k.keepsHbm then v else d)
  else if aonKept.any fun x => x.1 = ty && x.2.contains off then v
  else d

/-- The registers after a reset. -/
def keptRegs (k : ResetKind) (m : SMap Word) : SMap Word :=
  m.filterMap fun e =>
    let v := keptWord k e.1 e.2
    if v = regDefault e.1 then none else some (e.1, v)

/-- A reset that takes every die through power-on reset (R366, Table 19-1): on-die storage, firmware memories and the enclave's
volatile keys are wiped, what the AON domain holds stays, trained stacks that stay powered go into self-refresh (R367), and the
fuses, the flash and the inputs are as they are. -/
def State.dieReset (s : State) (k : ResetKind) : State :=
  let tripped := !s.pins.thermtripN && decide (k ≠ .aon)
  let held := k.keepsHbm && decide (s.fld rAonBootStat 2 0 = 4)
  let t : State :=
    { pending := s.pending
      out := s.out
      now := s.now
      fresh := s.fresh + 1
      regs := keptRegs k s.regs
      mem := if k.keepsHbm then s.mem.filter fun c => decide (c.1 < llmBase) else []
      lineKey := if k.keepsHbm then s.lineKey else []
      poison := if k.keepsHbm then s.poison else []
      flash := s.flash
      sec := { provisioned := s.sec.provisioned, retired := s.sec.retired, toggles := s.sec.toggles, seed := s.sec.seed
               last := s.sec.last, sealClosed := s.sec.sealClosed, presence := s.sec.presence, startScrub := true }
      age := if k = .aon then {} else { table := s.age.table, pohBase := s.age.pohBase, pohAt := s.age.pohAt }
      power := { dead := if tripped then gatedDomains else if k = .lifeCycle then s.power.dead else []
                 clampSeen := k.keepsHbm && s.power.clampSeen }
      pins := { s.pins with
        gates := 0, loadstep := 0, faultN := if k = .lifeCycle then s.pins.faultN else true
        smbAlertN := if k = .lifeCycle then s.pins.smbAlertN else true }
      mgmt := if k = .lifeCycle then s.mgmt else {}
      boot := { held := true, fell := s.now, needFall := s.boot.needFall, lasers := s.boot.lasers, validLasers := s.boot.validLasers }
      fws := (upTo 6).foldl (fun m i => SMap.set {} m i { haltAt := s.now, heldAt := s.now }) []
      tap := if k = .aon then {} else s.tap
      ports := if k = .aon then [] else s.ports.foldl (fun m e => SMap.set {} m e.1 { fecLast := e.2.fecLast }) []
      tele := { windowEnd := (s.now / 1000000000 + 1) * 1000000000 } }
  if held then t.wrAll rHbmcStat 1 16 else t

/-- AON_RESET_CAUSE after a reset; bit 4 tells whether THERMTRIP_N was asserted before it (Table 19-8). -/
def State.setCause (s : State) (cause : Nat) (tripped : Bool) : State := s.wr rAonResetCause (cause + 16 * tripped.toNat)

/-- AON_RESET: VDD_AON rises, the first step of a power-up (R300, R366): RESET_N and PWROK are low. -/
def execAonReset (s : State) : Outcome :=
  let s1 := { s with boot := { s.boot with needFall := false } }.dieReset .aon
  .next { s1 with pins := { s1.pins with resetN := false, pwrok := false, thermtripN := true } }

/-- THERMTRIP_N is released once RESET_N and PWROK are both low (R312). -/
def State.releaseTrip (s : State) : State :=
  if !s.pins.resetN && !s.pins.pwrok then
    { s with pins := { s.pins with thermtripN := true }, power := { s.power with dead := [] } }
  else s

/-- POWER_ON_RESET: PWROK falls (R366, R367); during a warm reset the reset becomes this one (Table 19-7). -/
def execPowerOnReset (s : State) : Outcome :=
  if !s.pins.pwrok then .next s
  else
    let s1 := (s.dieReset .power).setCause 2 (!s.pins.thermtripN)
    .next { s1 with pins := { s1.pins with pwrok := false } }.releaseTrip

/-- WARM_RESET: RESET_N falls while PWROK is high (R366, R367). -/
def execWarmReset (s : State) : Outcome :=
  if !s.pins.pwrok ∨ !s.pins.resetN then .next s
  else
    let s1 := (s.dieReset .warm).setCause 4 (!s.pins.thermtripN)
    .next { s1 with pins := { s1.pins with resetN := false } }

/-- The reference voltages of the rails as they come up (Table 15-1, R296). -/
def bootMv : List Nat := [750, 800, 800, 800, 800, 800, 850, 750, 900, 3300, 1050, 700, 1800, 1800]

/-- The start begins: stage SETTINGS, the strap's role, the rails at their boot voltages, the domains of class Always running, a
start-up scrub pending, and the laser modules fitted (R13, R243, R296, R330, R369). -/
def State.startUp (s : State) : State :=
  let s1 := { s with boot := { s.boot with held := false, rose := s.now, needFall := false } }
  let s2 := (s1.setFld rAonBootStat 2 0 1).setFlag rHbrRole 0 (s1.flag rAonStrap 0)
  let s3 := s2.setFlag rSecStat 9 true
  let s4 := (upTo 14).foldl (fun t r => t.wr rPwrRail (bootMv.getD r 0) 0 (8 * r)) s3
  let s5 := ([1, 2, 25] : List Nat).foldl (fun t d => t.setFld rClkState (2 * d - 1) (2 * d - 2) 2) s4
  let s6 := (upTo 4).foldl (fun t m => t.setLaser m 0 (bitOf t.boot.lasers m)) s5
  { s6 with mgmt := { s6.mgmt with last := s6.sensorStates } }

/-- A TAP instruction that takes the lands is in the instruction register (R397). -/
def Tap.takesLands (t : Tap) : Bool := ([0, 3, 4, 5, 6] : List Nat).contains t.ir

/-- RESET_RELEASE: RESET_N rises, at the earliest acted on 20 us after its fall; the strap is sampled (R243, R367, R369). `refs`
says whether REFCLK_SYS and XTAL_25M are present; without them the node stays as with RESET_N low (R386). -/
def execResetRelease (strap refs : Bool) (s : State) : Outcome :=
  if !s.boot.held ∨ (s.boot.needFall ∧ s.pins.resetN) then .next s
  else
    let s1 := { s with
      now := max s.now (s.boot.fell + 20000)
      pins := { s.pins with resetN := true, pwrok := true, groupBridge := strap } }
    if !refs ∨ s1.tap.takesLands then .next { s1 with boot := { s1.boot with needFall := true } }
    else
      let s2 := (((s1.setFlag rClkRefStat 0 false).setFlag rClkRefStat 3 false).wr rAonStrap strap.toNat)
      .next ({ s2 with pins := { s2.pins with faultN := true } }).startUp

/-- The node acts as on a fall of RESET_N until RESET_N has been low and has risen again (R386, R397). -/
def State.heldDown (s : State) : State :=
  if s.boot.held then { s with boot := { s.boot with needFall := s.boot.needFall || s.pins.resetN } }
  else { s.dieReset .warm with boot := { (s.dieReset .warm).boot with needFall := true } }

/-! ### Reference clocks (R386) -/

/-- REFCLK_LOSS. -/
def execRefclkLoss (r : RefClk) (s : State) : Outcome :=
  match r with
  | .sys => .next (({ s.heldDown with pins := { s.heldDown.pins with faultN := false } }).setFlag rClkRefStat 0 true)
  | .xtal => .next (({ s.heldDown with pins := { s.heldDown.pins with faultN := false } }).setFlag rClkRefStat 3 true)
  | .fab => .next (if s.boot.held then s.setFlag rClkRefStat 2 true else (s.setFlag rClkRefStat 2 true).fabClockLost)
  | .pcie =>
    let s1 := s.setFlag rClkRefStat 1 true
    .next (if s.isBridge ∧ ¬ s.boot.held then s1.wr rHbrStat 2 else s1)

/-- REFCLK_FAB_RETURN: 1 ms after the reference returns the gates open again and the ports may leave DETECT. -/
def execRefclkFabReturn (s : State) : Outcome :=
  if s.flag rClkRefStat 2 then
    let s1 := ({ s with now := s.now + 1000000 }).setFlag rClkRefStat 2 false
    .next (if s1.boot.held then s1 else (upTo 48).foldl State.setGate s1)
  else .next s

/-- REFCLK_PCIE_RETURN. -/
def execRefclkPcieReturn (s : State) : Outcome := .next (s.setFlag rClkRefStat 1 false)

/-! ### Host bridge (R244, R371) -/

/-- The image load in progress ends, refused with a code: the processor is as it was before START (R339, R371). -/
def State.refuseLoad (s : State) (code info0 : Nat) : State :=
  match s.fwLoad with
  | none => s
  | some l =>
    let s1 := (s.setFld rFwpStat 3 0 l.prior l.inst).raise tyFwp l.inst code info0 0
    (({ s1 with fwLoad := none }).setInt tyFwp l.inst iDone).dropHbm (.fwLoad l.inst)

/-- HOST_BRIDGE_RESET: PERST_N falls. Only the bridge's link, configuration space and MSI-X state are reset, and a load in LOADING
stops. -/
def execHostBridgeReset (s : State) : Outcome :=
  if !s.pins.perstN then .next s
  else
    let s1 := { s with pins := { s.pins with perstN := false } }
    if s1.boot.held then .next s1
    else
      let s2 := { s1.wr rHbrStat 0 with hbr := { s1.hbr with msixPend := 0 } }
      match s2.fwLoad with
      | some l => .next (if l.staged then s2 else s2.refuseLoad eState 0)
      | none => .next s2

/-- The class code of the host bridge's function (R244). -/
abbrev pcieClass : Nat := 0x120000

/-- The base address registers of the function: number and bytes (Table 11-9). -/
def pcieBars : List (Nat × Nat) := [(0, 2 ^ 27), (2, 2 ^ 32), (4, 2 ^ 16)]

/-- PERST_N_RISE: the bridge leaves reset and trains its link (R244). -/
def execPerstNRise (s : State) : Outcome := .next { s with pins := { s.pins with perstN := true } }

/-- PCIE_LINK_UP: training ends on the bridge once its settings are read: the link is up in FLIT mode at x16, or NO_LINK is set
(R244, R369). -/
def execPcieLinkUp (flit x16 : Bool) (rate : BitVec 3) (s : State) : Outcome :=
  if s.boot.held ∨ !s.isBridge ∨ !s.pins.perstN ∨ s.fld rAonBootStat 2 0 < 2 ∨ s.flag rClkRefStat 1 then .next s
  else if flit ∧ x16 ∧ rate.toNat ≠ 0 ∧ rate.toNat ≠ 7 then .next (s.wr rHbrStat (1 + 16 * rate.toNat))
  else .next (s.wr rHbrStat 2)

end Sys2Proof.Machine
end

