-- ==== Sys2Proof/Machine/Load.lean ====
section
/-!
DEFINITION. Loading a job: the conditions on JOB_LOAD and RESTORE, what a load clears, and what completes it (R19, R20, R28, R35,
R48, R104, R114, R152, R316, R322, R330, R339).
-/

namespace Sys2Proof.Machine

/-- JOB_LOAD and RESTORE are accepted: IDLE, all six processors running, a valid map, not RETIRED, no scrub, and the open session
named (R31, R151, R316, R322, R330, R339). -/
def State.loadAllowed (s : State) (sess : Nat) : Bool :=
  decide (s.jobState = stIdle) && ((upTo 6).all s.fwRunning) && s.flag rHbmcMap 31 && decide (s.sec.lifeCycle ≠ 4) &&
    !s.flag rSecStat 9 && decide (s.fld rSecStat 2 0 = 2) && decide (s.fld rSecStat 31 16 = sess)

/-- SCH takes a load up (R34, R35, R37). -/
def State.beginLoad (s : State) : State :=
  let s1 := s.clearHold
  let s2 := { s1 with sched := { s1.sched with evtSeq := 0, lapseDue := false } }
  s2.heartbeat.setJobState stLoading

/-- A load fails: SCH is IDLE again. -/
def State.failLoad (s : State) : State :=
  let s1 := { s with sched := { s.sched with hbStart := none, loading := false }, ckpt := { s.ckpt with restore := none } }
  ((s1.setFlag rSchCkptStat 4 false).setJobState stIdle).dropHbm .restore

/-- Clear every counter, code and engine record that JOB_LOAD and RESTORE clear (R48, R80, R94, R119, R146, R157, R167, R196, R213,
R222, R262, R264, R295, R315, R356). -/
def State.clearJob (s : State) : State :=
  let conv := [0x1C0, 0x1C4, 0x1C8]
  let s0 := ((s.clearFirst tyTile [eWalnutRange]).clearFirst tyVec [eWalnutRange]).clearFirst tyAsm [eRange] fun t i =>
    decide (t.rd rAsmOor i ≠ 0)
  let s0 := (s0.clearFirst tyCore [eRange, eLocked, eBadcmd, eDeadTarget, eFenceTimeout, eState, eBcastRead] fun t i =>
    decide (t.rd rCoreFaults i ≠ 0)).clearFirst tyMsa [eRange] fun t i => decide (t.rd rMsaOrdFull i ≠ 0)
  let s0 := (s0.clearFirst tyFxp [eLedger, eDeadTarget]).clearFirst tyPiaz [eCollStall, ePiazzaFallback]
  let s1 := (s0.clearRegs tyTile (conv ++ [0x84, 0x1D0, 0x1D4, 0x1D8, 0x1DC, 0x1E0])).clearRegs tyVec (conv ++ [0xA0])
  let s2 := ((s1.clearRegs tySolv [0x84, 0x88, 0x90, 0x94, 0x98, 0x9C, 0xA0, 0xA4, 0xA8]).clearRegs tyAsm [0x84, 0x90, 0x94]).clearRegs tyCore
    [0x88, 0x90, 0x98, 0x9C, 0xA8]
  let s3 := (s2.clearRegs tyMsa [0x90, 0x9C]).clearRegs tyFxp
    ([0x90, 0x94, 0x98, 0x9C, 0xA0, 0xA4, 0xA8, 0xAC, 0xB0, 0xB4, 0xBC] ++ ((upTo 16).map fun w => 0xD0 + 4 * w) ++
      (upTo 64).map fun w => 0x200 + 8 * w)
  let s4 := (s3.clearRegs tyPiaz [0x90, 0x94, 0x98, 0x9C, 0xA0, 0xA8, 0xB8, 0xC0, 0xC8, 0xCC, 0xD0]).clearRegs tySch [0x208, 0x210, 0x218, 0x224, 0x228]
  let s7 := stepRegs.foldl (fun t r => t.clearRegs r.1 [r.2]) s4
  let s8 := (s7.clearFirst tyPwr [eWakeDefer]).clearPower
  let s9 := ({ s8 with threads := [], tiles := [], vecs := [], solvEngs := [], asms := [], factors := [], piaz := {} }).oregClearAll
  (s9.setFlag rSchState 6 false).resetJobStreams

/-- Put a job in place: the step counter, balancing and the status bits (R20, R28, R30). -/
def State.install (s : State) (j : Job) (step : Nat) : State :=
  let diff := decide (j.fprint ≠ 0) && decide (j.fprint ≠ s.rd rNumFprint)
  let s1 := { s with job := some j, sched := { s.sched with loading := true, counted := false, segs := [], stepping := false } }
  (((s1.wr rSchStep step).wr rSchRunLeft 0).wr rSchBal 0).wr rSchJobStat (8 * diff.toNat)

/-- Clear the Seed bank (R270). -/
def State.clearSeeds (s : State) : State := (s.clearRegs tySch ((upTo 32).map fun w => 0x100 + 8 * w)).wr rSchSeedValid 0

/-- Write the pattern of a solver into SCHED, and FACTOR and SCB as a load leaves them (R104, R110, R114). -/
def State.placeSolver (s : State) (restored : Bool) (v : Solver) : State :=
  let r := v.record
  let s1 :=
    match s.role r 8 with
    | some f => s.putWords f (v.sched.bytes r.n r.engines)
    | none => s
  let s2 := s1.rolePut4 r 9 0 1 (withBit (s1.factFlags r) 0 false)
  if restored then s2.rolePut r scb 0 v.sched.hash else s2.scbInit v

end Sys2Proof.Machine
end

