-- ==== Sys2Proof/Machine/Restore.lean ====
section
/-!
DEFINITION. Restore: the restore record, the sequence of reads from the gateways, the checks on a candidate, and its acceptance
(R289 to R292).
-/

namespace Sys2Proof.Machine

/-! ### The restore record (R289, Table 14-7) -/

/-- The restore record at a local address with its map, where it keeps Table 14-7; the new image's length is in the record. -/
def State.readRestore (s : State) (a : Nat) : Option Restore :=
  let b := s.peekN a 64
  let n := fieldLE b 0x2C 4
  let gwFirst := fieldLE b 6 1
  let gwCount := fieldLE b 7 1
  if s.memOk a 64 && decide (fieldLE b 0 4 = 0x53524B43) && decide (fieldLE b 4 2 = 1) && decide (gwFirst < 64) &&
      decide (1 ≤ gwCount) && decide (gwFirst + gwCount ≤ 64) && decide (fieldLE b 8 8 ≠ 0) && decide (n ≤ 4096) &&
      (b.drop 0x30).all (· = 0) && (decide (n = 0) || s.memOk (a + 64) (8 * n)) then
    let m := s.peekN (a + 64) (8 * n)
    some
      { dest := ⟨gwFirst, gwCount, fieldLE b 8 8, 0, 0, 0⟩, step := fieldLE b 0x10 8, image := fieldLE b 0x18 8
        imageLen := fieldLE b 0x20 8, rank := fieldLE b 0x28 2, sess := fieldLE b 0x2A 2
        map := (upTo n).map fun i => (fieldLE m (8 * i) 2, fieldLE m (8 * i + 2) 2, fieldLE m (8 * i + 4) 2) }
  else none

/-- The ranks that the node loads from. -/
def Restore.ranks (r : Restore) : List Nat := (r.rank :: r.map.map (·.1)).eraseDups

/-! ### Reading (R279, R290) -/

/-- The transfer header of a read. -/
def Restore.head (r : Restore) (step : Nat) (o : ObjName) (list : Bool) (off : Nat) : List Byte :=
  transferHead r.dest.setId step o.rank o.kind list.toNat o.index off

/-- The name of a MANIFEST (Table 14-2). -/
def manifestName : ObjName := ⟨0xFFFF, 5, 0⟩

/-- Replace the restore in progress. -/
def State.setRestore (s : State) (r : Restore) : State := { s with ckpt := { s.ckpt with restore := some r } }

/-- Issue an OBJ_GET; a gateway without a valid entry, or one whose fallback has been taken, stops the RESTORE (R211, R238,
R290). -/
def State.objGet (s : State) (gw : Nat) (head : List Byte) (off : Nat) : State :=
  let bad := if (s.gateway gw).isNone then some eRange else if s.goneNode (2 ^ 15 + gw) then some eDeadTarget else none
  match bad, s.ckpt.restore with
  | some c, some r => s.setRestore { r with stop := some c, busy := false, todo := [] }
  | _, _ => s.issue .objGet (.restore off) (2 ^ 15 + gw) 0 0 0 32 head

/-- Read on: the next bytes of the object at the front of the list, or nothing more for this candidate. -/
def State.restoreNext (s : State) : State :=
  match s.ckpt.restore with
  | none => s
  | some r =>
    match r.cur, r.todo with
    | some step, o :: _ =>
      let gw := gatewayOf r.dest.gwFirst r.dest.gwCount o.kind o.rank o.index
      (s.setRestore { r with busy := true }).objGet gw (r.head step o false r.part.length) r.part.length
    | _, _ => s.setRestore { r with busy := false }

/-- Read a page of LIST: the steps below the bound for which a MANIFEST is complete (R279). -/
def State.restoreList (s : State) (r : Restore) : State :=
  (s.setRestore { r with busy := true, cur := none, more := false }).objGet r.dest.gwFirst (r.head r.bound manifestName true 0) 0

/-- Take up the newest candidate not tried yet, or the next page of LIST. -/
def State.nextCandidate (s : State) (r : Restore) : State :=
  match r.cands with
  | c :: cs =>
    (s.setRestore { r with cands := cs, cur := some c, todo := [manifestName], got := [], missing := [], part := [] }).restoreNext
  | [] => if r.more then s.restoreList r else s.setRestore { r with cur := none, busy := false }

/-- An object that was read. -/
def Restore.find (r : Restore) (o : ObjName) : Option (List Byte) := (r.got.find? fun x => x.1 = o).map (·.2)

/-- Open an object: its plaintext under the checkpoint key, none where the tag fails (R284). -/
def State.openObject (s : State) (b : List Byte) : Option (List Byte) :=
  match s.sec.ckptKey with
  | some (_, key) =>
    let k := objectKey key ((b.drop 0x48).take 16) (fieldLE b 8 8) (fieldLE b 0x10 8) (fieldLE b 0x1A 2) (fieldLE b 0x1C 4)
    gcmOpen k (List.replicate 12 0) (b.take 128) (b.drop 128)
  | none => none

/-- The objects that follow from one that has been read: the INDEX of every rank after the MANIFEST, the shards of a rank after
its INDEX; an IMAGE shard only where the record names no new image and the rank is RANK. -/
def State.restoreMore (s : State) (r : Restore) (o : ObjName) (b : List Byte) : List ObjName :=
  if o.kind = 5 then r.ranks.map fun k => ⟨k, 4, 0xFFFFFFFF⟩
  else if o.kind = 4 then
    match s.openObject b with
    | some t => (upTo (t.length / 64)).filterMap fun i =>
        let kind := fieldLE t (64 * i + 4) 1
        if kind = 1 ∧ (r.image ≠ 0 ∨ o.rank ≠ r.rank) then none
        else if kind = 3 ∧ o.rank ≠ r.rank then none
        else some ⟨o.rank, kind, fieldLE t (64 * i) 4⟩
    | none => []
  else []

/-- A read of the restore is answered with data (R279, R290). -/
def State.restoreData (s : State) (off : Nat) (data : List Byte) : State :=
  match s.ckpt.restore with
  | none => s
  | some r =>
    match r.cur, r.todo with
    | none, _ =>
      let steps := (upTo (data.length / 8)).map fun i => fieldLE data (8 * i) 8
      s.nextCandidate { r with cands := steps, bound := steps.getLastD 0, more := decide (512 ≤ steps.length) }
    | some _, o :: rest =>
      if off ≠ r.part.length then s
      else
        let got := r.part ++ data
        let b := if 128 ≤ got.length then got.take (144 + fieldLE got 0x30 8) else got
        let full := decide (b.length < 128) || decide (b.length < 144 + fieldLE b 0x30 8)
        if full ∧ data.length = 4096 then (s.setRestore { r with part := b }).restoreNext
        else
          (s.setRestore { r with part := [], got := r.got ++ [(o, b)], todo := rest ++ s.restoreMore r o b }).restoreNext
    | some _, [] => s

/-- A read of the restore is answered with an error or fails: E_RANGE of a candidate's object reports it missing; anything else
stops the RESTORE (R290). -/
def State.restoreError (s : State) (code : Nat) : State :=
  match s.ckpt.restore with
  | none => s
  | some r =>
    match r.cur, r.todo with
    | some _, o :: rest =>
      if code = eRange then
        (s.setRestore { r with part := [], missing := o :: r.missing, todo := rest }).restoreNext
      else s.setRestore { r with stop := some code, busy := false, todo := [] }
    | _, _ => s.setRestore { r with stop := some code, busy := false }

/-! ### Checking a candidate (R290) -/

/-- The outcome of checking one object: its code, or its plaintext. -/
def State.checkObject (s : State) (r : Restore) (step : Nat) (o : ObjName) (hash : Option (List Byte)) : Nat ⊕ List Byte :=
  match r.find o with
  | none => .inl eCkptIncomplete
  | some b =>
    if fieldLE b 8 8 ≠ r.dest.setId ∨ fieldLE b 0x10 8 ≠ step then .inl eCkptMixed
    else if hash.any fun h => h ≠ sha384 b then .inl eCkptAuth
    else
      match s.openObject b with
      | some t => .inr t
      | none => .inl eCkptAuth

/-- The rank entry of a manifest plaintext (R283). -/
def rankEntry (t : List Byte) (k : Nat) : List Byte := (t.drop (64 + 64 * k)).take 64

/-- Check one rank: its entry, its INDEX and every shard of it that is read; the shards' names and plaintexts. -/
def State.checkRank (s : State) (r : Restore) (step : Nat) (man : List Byte) (k : Nat) : Nat ⊕ List (ObjName × List Byte) :=
  let e := rankEntry man k
  if fieldLE man 32 2 ≤ k ∨ e.length < 64 ∨ fieldLE e 8 8 ≠ step then .inl eCkptIncomplete
  else
    match s.checkObject r step ⟨k, 4, 0xFFFFFFFF⟩ (some (e.drop 16)) with
    | .inl c => .inl c
    | .inr t =>
      (upTo (t.length / 64)).foldl (fun acc i =>
        match acc with
        | .inl c => .inl c
        | .inr l =>
          let o : ObjName := ⟨k, fieldLE t (64 * i + 4) 1, fieldLE t (64 * i) 4⟩
          if (o.kind = 1 ∧ (r.image ≠ 0 ∨ k ≠ r.rank)) ∨ (o.kind = 3 ∧ k ≠ r.rank) then .inr l
          else
            match s.checkObject r step o (some ((t.drop (64 * i + 16)).take 48)) with
            | .inl c => .inl c
            | .inr x => .inr (l ++ [(o, x)])) (.inr [])

/-- Check a candidate: the manifest and every rank; the first code that refuses it, or its contents. -/
def State.checkCandidate (s : State) (r : Restore) (step : Nat) : Nat ⊕ (List Byte × List (ObjName × List Byte)) :=
  match s.checkObject r step manifestName none with
  | .inl c => .inl c
  | .inr man =>
    r.ranks.foldl (fun acc k =>
      match acc with
      | .inl c => .inl c
      | .inr (m, l) =>
        match s.checkRank r step man k with
        | .inl c => .inl c
        | .inr x => .inr (m, l ++ x)) (.inr (man, []))

/-! ### Accepting a candidate (R290, R292) -/

/-- The footprint of a field as a restore compares it: the lengths of its parts and its FMT (R289). -/
def Field.shape (f : Field) : List Nat × Nat := (f.parts.map fun p => p.2 - p.1, f.fmt.code)

/-- The fields of an image that a restore loads: every field but SCHED. -/
def imageFields (img : List Byte) : List Field :=
  let scheds := (jobRecs img).map fun x => x.2.fields.getD 8 0
  ((upTo (fieldCount img)).map (parseField img)).filter fun f => !scheds.contains f.no

/-- The destination of a field of a rank: with no map, the field of its own number. -/
def Restore.target (r : Restore) (rank field : Nat) : List Nat :=
  if r.map = [] then (if rank = r.rank then [field] else [])
  else (r.map.filter fun e => e.1 = rank ∧ e.2.1 = field).map (·.2.2)

/-- The index of a map entry that breaks R289 for a new image, none where the map holds: every field but SCHED appears exactly
once as DST_FIELD; 0xFFFFFFFF where a field is missing. -/
def Restore.mapBad (r : Restore) (img : List Byte) : Option Nat :=
  if r.map = [] then none
  else
    let nos := (imageFields img).map (·.no)
    match (upTo r.map.length).find? fun i =>
      let d := (r.map.getD i (0, 0, 0)).2.2
      !nos.contains d || (upTo i).any fun j => decide ((r.map.getD j (0, 0, 0)).2.2 = d) with
    | some i => some i
    | none => if nos.all fun n => r.map.any fun e => decide (e.2.2 = n) then none else some 0xFFFFFFFF

/-- The bytes that the shards of a source field hold of one part, and the FMT that their headers name. -/
def Restore.sourceShape (r : Restore) (rank field : Nat) : List Nat × Nat :=
  let heads := r.got.filterMap fun x => if x.1.rank = rank ∧ x.1.kind = 2 ∧ fieldLE x.2 0x20 2 = field then some x.2 else none
  let part := fun (scale : Nat) =>
    (heads.filter fun b => fieldLE b 7 1 % 2 = scale).foldl (fun m b => max m (fieldLE b 0x28 8 + fieldLE b 0x30 8)) 0
  (if part 1 = 0 then [part 0] else [part 0, part 1], match heads with | b :: _ => fieldLE b 0x22 1 | [] => 0xFF)

/-- The index of a map entry whose source field has another footprint length or FMT than its destination (R289); without a map
the field's own number takes the index's place. -/
def Restore.shapeBad (r : Restore) (img : List Byte) : Option Nat :=
  let fs := imageFields img
  let entries := if r.map = [] then fs.map fun f => (r.rank, f.no, f.no) else r.map
  (upTo entries.length).find? fun i =>
    let e := entries.getD i (0, 0, 0)
    match fs.find? fun f => f.no = e.2.2 with
    | some f => decide (r.sourceShape e.1 e.2.1 ≠ f.shape)
    | none => false

/-- Write the FIELD shards into the fields of the new image. -/
def State.loadFields (s : State) (r : Restore) (fs : List Field) (shards : List (ObjName × List Byte)) : State :=
  shards.foldl (fun t x =>
    if x.1.kind ≠ 2 then t
    else
      match r.find x.1 with
      | none => t
      | some b =>
        (r.target x.1.rank (fieldLE b 0x20 2)).foldl (fun u d =>
          match fs.find? fun f => f.no = d with
          | some f => u.store ((if fieldLE b 7 1 % 2 = 1 then f.scaleBase else f.base) + fieldLE b 0x28 8) x.2
          | none => u) t) s

/-- Load the Seed bank, SCH_SEED_VALID and NONDET from a STATE plaintext (R270, R290). -/
def State.loadState (s : State) (t : List Byte) : State :=
  let s1 := (upTo 32).foldl (fun u w => u.wr rSchSeed (fieldLE t (8 * w) 8) 0 (8 * w)) s
  (s1.wr rSchSeedValid (fieldLE t 0x108 4)).setFlag rSchJobStat 2 (bitOf (fieldLE t 0x10C 4) 2)

/-- End a RESTORE with an error: LOADED carries it, ERR_INFO1 the step, and SCH is IDLE (R290). -/
def State.restoreFail (s : State) (code info0 info1 : Nat) : State :=
  let s1 := (s.setFld rSchCkptStat 31 24 code).raise tySch 0 code info0 info1
  (s1.postEvent 8 0 code).failLoad

/-- The text of the shard of a kind that this rank reads, if it read one. -/
def shardText (shards : List (ObjName × List Byte)) (kind rank : Nat) : Option (List Byte) :=
  (shards.find? fun x => x.1.kind = kind ∧ x.1.rank = rank).map (·.2)

/-- The 64-byte aligned places of `n` bytes below `top` that meet none of the given ranges, as runs: the first address of each and
how many places follow it. -/
def freeRuns (used : List (Nat × Nat)) (n top : Nat) : List (Nat × Nat) :=
  (0 :: used.map (·.2)).eraseDups.filterMap fun a =>
    let lo := roundUp a 64
    let hi := (used.filter fun p => decide (lo < p.2)).foldl (fun m p => min m p.1) top
    if lo + n ≤ hi then some (lo, (hi - lo - n) / 64 + 1) else none

/-- The place of a number among the places that runs hold. -/
def placeOf : List (Nat × Nat) → Nat → Nat
  | [], _ => 0
  | (lo, n) :: rs, k => if k < n then lo + 64 * k else placeOf rs (k - n)

/-- The image of a restore and its base, none where no place is left for it. Where the record names no image, the one that the
checkpoint saved is placed where no field of it lies; which place it takes is free (R274, R290; log entry 39). -/
def State.restoreImage (s : State) (r : Restore) (shards : List (ObjName × List Byte)) : List Byte × Option Nat × State :=
  if r.image ≠ 0 then (s.peekN r.image r.imageLen, some r.image, s.noteRange r.image r.imageLen)
  else
    let img := (shardText shards 1 r.rank).getD []
    let runs := freeRuns (((upTo (fieldCount img)).map (parseField img)).flatMap Field.parts) img.length s.protBase
    let total := (runs.map (·.2)).sum
    (img, if total = 0 then none else some (placeOf runs ((s.free 21).1 % total)), (s.free 21).2)

/-- Why a checkpoint does not fit the image, if it does not: the code and ERR_INFO0 (R290). -/
def Restore.misfit (r : Restore) (img man : List Byte) : Option (Nat × Nat) :=
  let nodes := fieldLE man 32 2
  let parts := fieldLE man 24 4
  if nodeCountOf img ≠ nodes ∧ ¬ (partCountOf img = parts ∧ nodes < parts) then some (eRange, 0xFFFFFFFF)
  else
    match headerBad img, refuseBad (tablesBad img) with
    | o :: _, _ => some (eBadcmd, o)
    | [], some e => some (e.code, e.info0)
    | [], none => ((r.mapBad img).or (r.shapeBad img)).map fun i => (eRange, i)

/-- The field contents of a restore, and the image where the checkpoint supplies it. -/
def State.restoreFields (s : State) (r : Restore) (img : List Byte) (base : Nat) (shards : List (ObjName × List Byte)) : State :=
  let fs := (upTo (fieldCount img)).map (parseField img)
  let s1 := (s.clearSeeds).setLlmModes fs
  (if r.image ≠ 0 then s1 else s1.store base img).loadFields r fs shards

/-- The job of a restore is in place: its registers, and RESTORED. -/
def State.restoreJob (s : State) (j : Job) (man regs : List Byte) : State :=
  let s1 := (s.install j (fieldLE regs 0x100 8)).loadState regs
  let s2 := if fieldLE man 16 8 ≠ s1.rd rNumFprint then s1.setFlag rSchJobStat 3 true else s1
  let s3 := { s2 with ckpt := { s2.ckpt with restore := none }, sched := { s2.sched with restored := true } }
  ((s3.setFlag rSchCkptStat 4 false).dropHbm .restore).syncGrants

/-- Accept a candidate: shape, image, fields, state; the load then completes as a JOB_LOAD does (R290, R292); a change of LLM modes first waits for a REPLAY (R176). -/
def State.acceptRestore (s : State) (r : Restore) (step : Nat) (man : List Byte) (shards : List (ObjName × List Byte)) : State :=
  let (img, base, s0) := s.restoreImage r shards
  match r.misfit img man with
  | some (code, i) => s0.restoreFail code i (step % 2 ^ 32)
  | none =>
    if s.llmHeld ((upTo (fieldCount img)).map (parseField img)) then s
    else
    match base with
    | none => s0.restoreFail eRange 0xFFFFFFFF (step % 2 ^ 32)
    | some a =>
      let s1 := s0.restoreFields r img a shards
      match s1.parseImage img a r.sess with
      | .inl e => s0.restoreFail e.code e.info0 (step % 2 ^ 32)
      | .inr j => s1.restoreJob j man ((shardText shards 3 r.rank).getD [])

/-- RESTORE_READ_DONE: the reads of a candidate, or of LIST, are complete: the node accepts, refuses or stops (R290). -/
def execRestoreReadDone (s : State) : Outcome :=
  match s.ckpt.restore with
  | none => .next s
  | some r =>
    if r.busy ∨ s.down 4 then .next s
    else
      match r.stop, r.cur with
      | some code, some step => .next (s.restoreFail code 0 step)
      | some code, none => .next (s.restoreFail code 0 0xFFFFFFFF)
      | none, none =>
        match r.firstErr with
        | some (code, step) => .next (s.restoreFail code 0 step)
        | none => .next (s.restoreFail eCkptIncomplete 0 0xFFFFFFFF)
      | none, some step =>
        match s.checkCandidate r step with
        | .inr (man, shards) => .next (s.acceptRestore r step man shards)
        | .inl code =>
          .next (s.nextCandidate { r with firstErr := some (r.firstErr.getD (code, step)), got := [], todo := [], part := [] })

/-- Why a restore record is refused at once, if it is (R289). -/
def State.restoreBad (s : State) (r : Restore) : Option LoadErr :=
  if r.image = 0 then none
  else if r.imageLen < 64 ∨ ¬ s.inOpenHbm r.image r.imageLen then some ⟨eRange, 0xFFFFFFFF, 0⟩
  else
    let img := s.peekN r.image r.imageLen
    ((refuseBad (headerBad img)).or (refuseBad (tablesBad img))).or ((r.mapBad img).map fun i => ⟨eRange, i, 0⟩)

/-- The value of STEP with which the candidates come from LIST (R290). -/
abbrev noStep : Nat := 0xFFFFFFFFFFFFFFFF

/-- A JOB_LOAD or RESTORE that is refused when it is taken up. -/
def State.loadRefuse (s : State) (e : LoadErr) : State × Nat := ((s.raise tySch 0 e.code e.info0 e.info1).failLoad, e.code)

/-- RESTORE is taken up: the record is checked and the first read issued (R289, R290). -/
def State.startRestore (s0 : State) (a : Nat) : State × Nat :=
  let s := s0.noteOk a (64 + 8 * ((s0.readRestore a).elim 0 fun r => r.map.length))
  match s.readRestore a with
  | none => s.loadRefuse ⟨eRange, 0xFFFFFFFF, 0⟩
  | some r =>
    match s.restoreBad r with
    | some e => s.loadRefuse e
    | none =>
      let s1 := (s.clearJob.useHbm .restore).setFlag rSchCkptStat 4 true
      if r.step = noStep then (s1.restoreList r, eNone) else (s1.nextCandidate { r with cands := [r.step] }, eNone)

end Sys2Proof.Machine
end

