-- ==== Sys2Proof/Machine/Sched.lean ====
section
/-!
DEFINITION. The scheduler's commands: host commands, segments, boundaries, the job-wide hold, heartbeats, events and seeds
(chapter 2, R270, R345).
-/

namespace Sys2Proof.Machine

/-! ### The job-wide hold (R33, R34) -/

/-- Write the target to SCH_HOLD_AT of every other node of the node set, as multicast stores. -/
def State.sendTarget (s : State) (t : Nat) : State :=
  (byGroup (s.nodeSet.filter (· ≠ s.nodeId))).foldl (fun u ms =>
    u.issueMcast .store .holdAt ms (regWinBase + 0x08 * 2 ^ 21 + 0x090) 8 (bytesLE 8 t)) s

/-- A hold or end that is due in READY or HOLD: with its checkpoint first, where one was asked for (R34, R36). -/
def State.atOnce (s : State) : State :=
  match s.ckpt.run with
  | some run => s.setRunCkpt { run with after := .atOnce }
  | none =>
    match s.ckptChoice with
    | some _ => if s.sched.ckptDue then s.startCkpt .atOnce else s.finAtOnce
    | none => s.finAtOnce

/-- Apply the hold target: it rises to the current step, a risen target goes to every node, and the state acts on it (R33,
R34). -/
def State.applyTarget (s : State) : State :=
  if !s.sched.holdOn || s.job.isNone || s.down 4 then s
  else
    let step := s.rd rSchStep
    let t := max (s.rd rSchHoldAt) step
    let s1 := s.wr rSchHoldAt t
    let s2 := if s1.sched.sent < t then ({ s1 with sched := { s1.sched with sent := t } }).sendTarget t else s1
    let st := s2.jobState
    if st = stReady then (if t ≤ step then s2.atOnce else s2)
    else if st = stHold then
      (if step < t then (if s2.ckpt.run.isSome then s2 else s2.resume) else if s2.sched.endPending then s2.atOnce else s2)
    else if st = stRunning ∨ st = stDraining then
      (if s2.sched.stepping then s2.setJobState (if s2.lastStep then stDraining else stRunning) else s2)
    else s2

/-- Start or join a hold or end, with the hold reason it brings (R33). An armed node that a target of another node holds takes a
checkpoint at the hold boundary too (R36; log entry 84). -/
def State.startHold (s : State) (cause : Option Nat) : State :=
  let st := s.jobState
  if st = stIdle ∨ st = stEnding then s
  else
    let causes := match cause with
      | some c => if s.sched.causes.contains c then s.sched.causes else s.sched.causes ++ [c]
      | none => s.sched.causes
    let armed := decide (cause = some 5) && s.flag rSchState 6 && !(decide (st = stHold) && decide (s.rd rSchHoldAt ≤ s.rd rSchStep))
    ({ s with sched := { s.sched with holdOn := true, causes := causes, ckptDue := s.sched.ckptDue || armed } }).applyTarget

/-- A write of SCH_HOLD_AT by the host or by another node: the larger value is kept, and the hold starts (R33). A node outside
the node set is refused; the answer is the code. -/
def State.holdAtWrite (s : State) (node : Option Nat) (v : Nat) : State × Nat :=
  match node with
  | some n =>
    if s.job.isSome ∧ ¬ s.nodeSet.contains n then (s.refuse tySch 0 eLocked 0x090 2, eLocked)
    else (((s.wr rSchHoldAt (max (s.rd rSchHoldAt) v))).startHold (some 5), eNone)
  | none => (((s.wr rSchHoldAt (max (s.rd rSchHoldAt) v))).startHold (some 1), eNone)

/-- SCH_HOLD_AT: a write by the host (no node) or by a node (R33). -/
def execSchHoldAt (node : Option (BitVec 14)) (v : Word) (s : State) : Outcome :=
  .next (if s.boot.held then s else (s.holdAtWrite (node.map (·.toNat)) v.toNat).1)

/-! ### Heartbeat (R35, R36) -/

/-- SCH acts on a lapse: LAPSE, the event, and the hold, with a checkpoint while the job is armed. -/
def State.lapse (s : State) : State :=
  let st := s.jobState
  let s1 := (s.setFlag rSchState 7 true).postEvent 7 0 0
  if st = stHold ∨ st = stEnding then s1
  else
    let s2 :=
      if s1.flag rSchState 6 then ({ s1 with sched := { s1.sched with ckptDue := true } }).ckptTrigger else s1
    s2.startHold (some 4)

/-- A lapse is due: 5,000 ms have passed since the last heartbeat, and this lapse has not been acted on. -/
def State.lapseOwed (s : State) : Bool :=
  match s.sched.hbStart with
  | some t => !s.sched.lapsed && decide (t + 5000000000 ≤ s.now)
  | none => false

/-- Act on a lapse that is due; in LOADING it waits for READY, and while SCH is down for SCH. -/
def State.checkLapse (s : State) : State :=
  if !s.lapseOwed || s.down 4 then s
  else
    let s1 := { s with sched := { s.sched with lapsed := true } }
    if s.jobState = stLoading then { s1 with sched := { s1.sched with lapseDue := true } } else s1.lapse

/-- HEARTBEAT_LAPSE: SCH_HB_AGE reaches 5,000 (R35). -/
def execHeartbeatLapse (s : State) : Outcome :=
  match s.sched.hbStart with
  | none => .next s
  | some t =>
    if s.sched.lapsed then .next s else .next ({ s with now := max s.now (t + 5000000000) }).checkLapse

/-- A write of SCH_HB. -/
def State.hostBeat (s : State) : State := if s.sched.hbStart.isSome then s.heartbeat else s

/-- SCH_HB: a host heartbeat, recorded whether or not SCH runs (R35). -/
def execSchHb (s : State) : Outcome := .next s.hostBeat

/-! ### Boundaries and segments -/

/-- The actions of a step boundary (R29, Table 2-6); while SCH is down they wait. -/
def State.boundary (s : State) : State :=
  if s.down 4 then { s with sched := { s.sched with boundaryDue := true } }
  else
    let s0 := { s with sched := { s.sched with boundaryDue := false } }
    let n := s0.rd rSchStep
    let every := s0.rd rSchEvtCtrl
    let s1 := if every ≠ 0 ∧ n % every = 0 then s0.postEvent 1 0 0 else s0
    let s2 := s1.setFlag rSchBal 8 (s1.flag rSchBal 0)
    let s3 := if s2.sched.counted then s2.wr rSchRunLeft (s2.rd rSchRunLeft - 1) else s2
    s3.ckptAtBoundary

/-- SEGMENT_START: a ready segment whose domains run starts (R21). -/
def execSegmentStart (seg : Fin 256) (s : State) : Outcome :=
  match s.segments[seg.val]? with
  | none => .next s
  | some g =>
    if s.segReady seg.val ∧ s.domainsRun (wakeDomains g.wake) then
      let s1 := { s with sched := { s.sched with segs := s.sched.segs.set seg.val .running } }
      .next ((s1.startStreams seg.val g).syncPhase)
    else .next s

/-- SEGMENT_DONE: every stream of a running segment has completed; with the last segment the step is complete (R23, R24). -/
def execSegmentDone (seg : Fin 256) (s : State) : Outcome :=
  match s.segments[seg.val]? with
  | none => .next s
  | some g =>
    if s.segState seg.val = .running ∧ s.streamsDone g then
      let s1 := { s.endStreams g with sched := { s.sched with segs := s.sched.segs.set seg.val .done } }
      let n := (s1.sched.segs.filter fun x => x = SegState.done).length
      let s2 := ((s1.wr rSchSegDone n).fwLog 4 3 0x011 seg.val n).syncPhase
      if n = s2.segments.length then
        .next (({ s2 with sched := { s2.sched with stepping := false } }).stepEnd.readoutAtBoundary).boundary
      else .next s2
    else .next s

/-! ### Host commands (R31, R345, R346, Table 2-9) -/

/-- The job of the image of `n` bytes at `a`, or why it is refused. -/
def State.loadImage (s : State) (a n sess : Nat) : LoadErr ⊕ Job :=
  if n < 64 then .inl ⟨eRange, 0xFFFFFFFF, 1⟩
  else if ¬ s.inOpenHbm a n then .inl ⟨eRange, 0xFFFFFFFF, 0⟩
  else s.parseImage (s.peekN a n) a sess

/-- Run a JOB_LOAD past its quiet time: the argument checks, the image checks, and LOADING (R19). -/
def State.jobLoad (s : State) (seq : Nat) (args : List Nat) : State :=
  let s0 := (s.noteOk (args.getD 0 0) (args.getD 1 0)).beginLoad
  match s0.loadImage (args.getD 0 0) (args.getD 1 0) (args.getD 2 0 % 2 ^ 16) with
  | .inl e => ((s0.loadRefuse e).1).hifDone seq e.code
  | .inr j =>
    (((((s0.clearJob.clearSeeds).setFld rSchEvtStat 31 16 0).install j (args.getD 3 0)).llmPend j.fields).syncGrants).hifDone
      seq eNone

/-- Run a load or restore that the quiet time does not hold back. -/
def State.runLoad (s : State) (c : HifCmd) : State :=
  if c.op = 1 then s.jobLoad c.seq c.args
  else
    let (s1, code) := s.beginLoad.startRestore (c.args.getD 0 0)
    s1.hifDone c.seq code

/-- The quiet time of R212 is running. -/
def State.inQuiet (s : State) : Bool :=
  match s.fxp.quiet with
  | some t => decide (s.now < t + 4000000)
  | none => false

/-- The session that a load names: ARG2, or SESS of the restore record. -/
def State.loadSess (s : State) (c : HifCmd) : Nat :=
  if c.op = 1 then c.args.getD 2 0 % 2 ^ 16 else natLE (s.peekN (c.args.getD 0 0 + 0x2A) 2)

/-- Take up a JOB_LOAD or RESTORE (R31, R212); RETIRED refuses it in the page that received it too (R316). -/
def State.takeLoad (s : State) (c : HifCmd) : State :=
  if s.sec.lifeCycle = 4 then (s.refuse tyHif 0 eState 0x080 3).hifDone c.seq eState
  else if !s.loadAllowed (s.loadSess c) then s.hifDone c.seq eState
  else if s.inQuiet then { s with sched := { s.sched with quietCmd := some c } }
  else s.runLoad c

/-- RUN and RUN_N (R30, R31, R34): `n` is the count of RUN_N. -/
def State.runCmd (s : State) (seq : Nat) (n : Option Nat) : State :=
  let s1 := if s.jobState = stHold ∨ s.rd rSchHoldAt ≤ s.rd rSchStep then s.clearHold else s
  let s2 := ({ s1 with sched := { s1.sched with counted := n.isSome } }).wr rSchRunLeft (n.getD 0)
  let s3 := s2.hifDone seq eNone
  match s3.ckpt.run with
  | some run => s3.setRunCkpt { run with after := .dispatch }
  | none => s3.resume

/-- The destination checks of CKPT and ARM_CKPT; the answer is the code (R275, R277). -/
def State.destErr (s : State) (a : Nat) : Nat :=
  match s.readDest a with
  | none => eRange
  | some d =>
    let running := decide (s.jobState = stRunning ∨ s.jobState = stDraining ∨ s.jobState = stCheckpoint)
    let old := s.rd rSchCkptDest
    let still := decide (s.jobState = stReady ∨ s.jobState = stHold)
    if s.sec.ckptKey.isNone then eState
    else if running ∧ old ≠ 0 ∧ old ≠ a then eState
    else if still ∧ s.ckpt.run.isNone ∧ s.rd rSchCkptLast = s.rd rSchStep ∧ s.ckpt.lastSet = d.setId then eState
    else eNone

/-- CKPT (R275, R277). -/
def State.ckptCmd (s0 : State) (seq a : Nat) : State :=
  let s := s0.noteOk a 64
  let err := s.destErr a
  if err ≠ eNone then s.hifDone seq err
  else
    let s1 := ((s.wr rSchCkptDest a).ckptTrigger).hifDone seq eNone
    if (s1.jobState = stReady ∨ s1.jobState = stHold) ∧ s1.ckpt.run.isNone then s1.startCkpt .nothing else s1

/-- The check of ARM_CKPT with ARG1[0] set: as CKPT, but for the repeat of a step, which arming does not take (R275). -/
def State.armErr (s : State) (a : Nat) : Nat :=
  match s.readDest a with
  | none => eRange
  | some _ =>
    let running := decide (s.jobState = stRunning ∨ s.jobState = stDraining ∨ s.jobState = stCheckpoint)
    let old := s.rd rSchCkptDest
    if s.sec.ckptKey.isNone then eState else if running ∧ old ≠ 0 ∧ old ≠ a then eState else eNone

/-- ARM_CKPT (R275). -/
def State.armCmd (s : State) (seq a arm : Nat) : State :=
  if arm % 2 = 0 then (s.setFlag rSchState 6 false).hifDone seq eNone
  else
    let err := s.armErr a
    let s1 := s.noteOk a 64
    if err ≠ eNone then s1.hifDone seq err else ((s1.wr rSchCkptDest a).setFlag rSchState 6 true).hifDone seq eNone

/-- END (R31, R33, R275). -/
def State.endCmd (s : State) (seq a : Nat) : State :=
  if a % 2 = 1 ∧ (s.rd rSchCkptDest = 0 ∨ s.sec.ckptKey.isNone) then s.hifDone seq eState
  else
    let due := s.sched.ckptDue || decide (a % 2 = 1)
    (({ s with sched := { s.sched with endPending := true, ckptDue := due } }).hifDone seq eNone).startHold none

/-- ABORT: every segment stops and its grants are let go; ABORT_COMPLETE finishes it (R31). The heartbeat timer runs on through
ENDING (R35). -/
def State.abortCmd (s : State) : State :=
  let s1 := (s.unload true).setJobState stEnding
  { s1 with sched := { s1.sched with aborting := true, hbStart := s.sched.hbStart, lapsed := s.sched.lapsed } }

/-- The states that accept a command (Table 2-9). -/
def acceptedIn (op st : Nat) : Bool :=
  if op = 1 ∨ op = 9 then st = stIdle
  else if op = 2 ∨ op = 3 then st = stReady || st = stHold
  else if op = 4 then st = stRunning || st = stDraining || st = stCheckpoint
  else if op = 5 ∨ op = 6 ∨ op = 7 then st = stReady || st = stRunning || st = stDraining || st = stCheckpoint || st = stHold
  else if op = 10 then st != stIdle
  else true

/-- Carry out a command that SCH has taken up (R31, Table 2-9). -/
def State.hifRun (s : State) (c : HifCmd) : State :=
  let arg := fun i => c.args.getD i 0
  if c.op = 0 ∨ 10 < c.op then (s.refuse tyHif 0 eBadcmd 0x080 3).hifDone c.seq eBadcmd
  else if !acceptedIn c.op s.jobState then s.hifDone c.seq eState
  else if c.op = 1 ∨ c.op = 9 then s.takeLoad c
  else if c.op = 2 then s.runCmd c.seq none
  else if c.op = 3 then
    if arg 0 = 0 ∨ 2 ^ 32 ≤ arg 0 then s.hifDone c.seq eRange else s.runCmd c.seq (some (arg 0))
  else if c.op = 4 then (s.hifDone c.seq eNone).startHold (some 1)
  else if c.op = 5 then s.endCmd c.seq (arg 0)
  else if c.op = 6 then s.ckptCmd c.seq (arg 0)
  else if c.op = 7 then s.armCmd c.seq (arg 0) (arg 1)
  else if c.op = 8 then
    (((if s.sched.hbStart.isSome then s.heartbeat else s).setFlag rSchState 7 false).wr rHifArg (s.rd rSchStep)).hifDone c.seq eNone
  else if s.sched.aborting then s.hifDone c.seq eState
  else s.abortCmd

/-- SCH takes the pending command up (R345). -/
def State.hifTake (s : State) : State :=
  match s.sched.cmd with
  | none => s
  | some c =>
    if s.down 4 then s
    else (({ s with sched := { s.sched with cmd := none } }).setFlag rHifRsp 0 true).hifRun c

/-- A write of HIF_CMD: the arguments are copied, DONE and BUSY cleared and PENDING set; a write while PENDING or BUSY is set is
discarded (R345, R346). -/
def State.hifWrite (s : State) (v : Nat) : State :=
  if s.flag rHifStat 0 ∨ s.flag rHifRsp 0 then s.setFld rHifStat 31 16 (min (s.fld rHifStat 31 16 + 1) 0xFFFF)
  else
    let c : HifCmd := ⟨v / 2 ^ 16 % 2 ^ 16, v % 256, (upTo 8).map fun i => s.rd rHifArg 0 (8 * i)⟩
    let s1 := ((s.wr rHifCmd (v &&& 0xFFFF00FF)).setFld rHifRsp 1 0 0).setFlag rHifStat 0 true
    ({ s1 with sched := { s1.sched with cmd := some c } }).hifTake

/-- The driver writes arguments and then the command. -/
def State.hifCommand (s : State) (op : Nat) (seq : BitVec 16) (args : List (Nat × Word)) : State :=
  if s.boot.held then s
  else (args.foldl (fun t x => t.wr rHifArg x.2.toNat 0 (8 * x.1)) s).hifWrite (seq.toNat * 2 ^ 16 + op)

/-- JOB_LOAD: image address, length, session ID and initial step (R19, R28, Table 2-9). -/
def execJobLoad (seq : BitVec 16) (addr len sess step : Word) (s : State) : Outcome :=
  .next (s.hifCommand 1 seq [(0, addr), (1, len), (2, sess), (3, step)])

/-- RUN (R34). -/
def execRun (seq : BitVec 16) (s : State) : Outcome := .next (s.hifCommand 2 seq [])

/-- RUN_N (R31). -/
def execRunN (seq : BitVec 16) (n : Word) (s : State) : Outcome := .next (s.hifCommand 3 seq [(0, n)])

/-- HOLD (R33). -/
def execHold (seq : BitVec 16) (s : State) : Outcome := .next (s.hifCommand 4 seq [])

/-- END (R33). -/
def execEndJob (seq : BitVec 16) (ckpt : Word) (s : State) : Outcome := .next (s.hifCommand 5 seq [(0, ckpt)])

/-- CKPT (R275, R277). -/
def execCkpt (seq : BitVec 16) (dest : Word) (s : State) : Outcome := .next (s.hifCommand 6 seq [(0, dest)])

/-- ARM_CKPT (R275). -/
def execArmCkpt (seq : BitVec 16) (dest arm : Word) (s : State) : Outcome :=
  .next (s.hifCommand 7 seq [(0, dest), (1, arm)])

/-- ATTACH (R36, Table 2-9). -/
def execAttach (seq : BitVec 16) (driver : Word) (s : State) : Outcome := .next (s.hifCommand 8 seq [(0, driver)])

/-- RESTORE (R289). -/
def execRestore (seq : BitVec 16) (record : Word) (s : State) : Outcome := .next (s.hifCommand 9 seq [(0, record)])

/-- ABORT (R31). -/
def execAbort (seq : BitVec 16) (s : State) : Outcome := .next (s.hifCommand 10 seq [])

/-- JOB_LOAD_COMPLETE: patterns, LLM modes, READY and LOADED; then a lapse or a target that came meanwhile (R34, R35, R104, R114,
R152). -/
def execJobLoadComplete (s : State) : Outcome :=
  match s.job with
  | none => .next s
  | some j =>
    if s.jobState = stLoading ∧ s.sched.loading ∧ ¬ s.down 4 ∧ ¬ s.llmHeld j.fields then
      let restored := s.sched.restored
      let s1 := j.solvers.foldl (fun t v => t.placeSolver restored v) (s.setLlmModes j.fields)
      let s2 := { s1 with sched := { s1.sched with loading := false, restored := false } }
      let s3 := (((s2.setFlag rSchJobStat 0 true).setFlag rSchJobStat 1 restored).setJobState stReady).syncGrants
      let s4 := s3.postEvent 8 0 0
      if s4.sched.lapseDue then .next (({ s4 with sched := { s4.sched with lapseDue := false } }).lapse)
      else .next s4.applyTarget
    else .next s

/-- QUIET_END: 4 ms have passed since the last request of the old job left, and a held load proceeds (R212). -/
def execQuietEnd (s : State) : Outcome :=
  match s.fxp.quiet with
  | none => .next s
  | some t =>
    let s1 := { s with now := max s.now (t + 4000000), fxp := { s.fxp with quiet := none } }
    match s1.sched.quietCmd with
    | some c =>
      let s2 := { s1 with sched := { s1.sched with quietCmd := none } }
      .next (if s2.loadAllowed (s2.loadSess c) then s2.runLoad c else s2.hifDone c.seq eState)
    | none => .next s1

/-! ### Events and seeds -/

/-- SCH_EVT_POP: the oldest record is removed (R37). -/
def execSchEvtPop (s : State) : Outcome := .next (if s.boot.held then s else s.setEvents (s.sched.events.drop 1))

/-- A write of word `w` of the Seed bank, in READY only (R270). -/
def State.seedWrite (s : State) (w v : Nat) : State × Nat :=
  if s.jobState = stReady then ((s.wr rSchSeed v 0 (8 * w)).setFlag rSchSeedValid (w / 2) true, eNone)
  else (s.refuse tySch 0 eState (0x100 + 8 * w) 3, eState)

/-- SEED_WRITE: half `word` (0 low, 1 high) of a seed. -/
def execSeedWrite (seed : Fin 16) (word : Fin 2) (v : Word) (s : State) : Outcome :=
  .next (if s.boot.held then s else (s.seedWrite (2 * seed.val + word.val) v.toNat).1)

/-- What SCH does when it takes up its duties after a restart: an end of the job, an advisory, a failed checkpoint, a boundary
and a lapse that waited, and a hold target written meanwhile (R33, R35, R345, chapter 2). -/
def State.schBack (s : State) : State :=
  let s := match s.sched.endDue with | some (reason, err) => s.endJob reason err | none => s
  let s2 := if s.sched.advisoryDue then ({ s with sched := { s.sched with advisoryDue := false } }).schAdvisory else s
  let s3 := s2.ckptSettle.ckptWatch
  let s4 := s3.applyTarget.checkLapse
  if s4.sched.boundaryDue then s4.boundary else s4

end Sys2Proof.Machine
end

