-- ==== Sys2Proof/Machine/Security.lean ====
section
/-!
DEFINITION. The enclave's sessions, the close and its scrubs, physical presence and the life cycle (R316 to R325, R329, R330,
R333 to R335).
-/

namespace Sys2Proof.Machine

/-! ### Small operations -/

/-- SEC_STAT.STATE (Table 16-11): 0 NONE, 1 HALF_OPEN, 2 OPEN, 3 CLOSING. -/
def State.sessState (s : State) : Nat := s.fld rSecStat 2 0

/-- Change SEC_STAT.STATE, with its log entry, the grant of the SEC crypto domain and the sensors that the coarse view shows. -/
def State.setSess (s : State) (st : Nat) : State :=
  (((s.setFld rSecStat 2 0 st).fwLog 3 2 0x050 st (s.fld rSecStat 31 16)).syncGrants).noteSensors

/-- Count a command write that met PENDING or BUSY (R346). -/
def State.overrun (s : State) : State := s.setFld rHifStat 31 16 (min (s.fld rHifStat 31 16 + 1) 0xFFFF)

/-- A refusal of a SEC command that the life-cycle table, a reserved encoding or a signature causes: in ERR_CODE and in the
response (R8, R316, R324). -/
def State.secRefuse (s : State) (code : Nat) : State := (s.refuse tySec 0 code 0x084 3).secDone code

/-- SEC_XFER_NO and SEC_READOUT_NO (R336). -/
def State.setNos (s : State) (n : Nat) : State := (s.wr rSecXferNo n).wr rSecReadoutNo n

/-- Discard a half-open session; its ephemeral keys are destroyed (R324). -/
def State.dropHalf (s : State) : State :=
  if s.sessState = 1 then
    let s1 := s.setSess 0
    ((({ s1 with sec := { s1.sec with half := none } }).setFld rSecStat 5 4 0).setFld rSecStat 31 16 0)
  else s

/-! ### IDENTITY and OPEN (R321 to R324) -/

/-- The identity key exists in PROVISIONED, DEPLOYED and SERVICE (Table 16-1). -/
def Sec.hasIdentity (x : Sec) : Bool := decide (1 ≤ x.lifeCycle) && decide (x.lifeCycle ≤ 3)

/-- IDENTITY: the public keys, then the endorsement's signatures, from the buffer's start (R321). -/
def State.runIdentity (s : State) : State :=
  if s.sec.hasIdentity then (s.putMsg 0 (s.sec.idPub 0 ++ s.sec.idPub 1 ++ s.sec.endorsement.drop 4)).secDone eNone
  else s.secRefuse eState

/-- A region entry of OPEN: BASE and LIMIT words. -/
def openRegion (m : List Byte) (r : Nat) : Nat × Nat := (fieldLE m (3248 + 16 * r) 8, fieldLE m (3256 + 16 * r) 8)

/-- The bounds of a region entry; [58] is CLEAR_IN and [63] VALID. -/
def regionBounds (w : Nat × Nat) : Nat × Nat := (w.1, bitsOf w.2 55 0)

/-- The entry names a region: LIMIT above BASE. -/
def regionUsed (w : Nat × Nat) : Bool := decide ((regionBounds w).1 < (regionBounds w).2)

/-- A kind of session is allowed in a life-cycle state (R322). -/
def kindAllowed (kind lifeCycle : Nat) : Bool :=
  if kind = 1 then decide (lifeCycle = 2) else decide (1 ≤ lifeCycle) && decide (lifeCycle ≤ 3)

/-- The regions of OPEN keep R324's limits. -/
def State.regionsOk (s : State) (ws : List (Nat × Nat)) : Bool :=
  let us := (ws.filter regionUsed).map regionBounds
  (us.all fun u => decide (u.1 % 2 ^ 20 = 0) && decide (u.2 % 2 ^ 20 = 0) && decide (u.2 ≤ s.protBase)) &&
    ((upTo us.length).all fun i => (upTo i).all fun j =>
      let a := us.getD i (0, 0)
      let b := us.getD j (0, 0)
      decide (a.2 ≤ b.1) || decide (b.2 ≤ a.1))

/-- The measurements of the six images (FWP_MEASURE). -/
def State.measures (s : State) : List (List Byte) :=
  (upTo 6).map fun i => (upTo 6).flatMap fun w => bytesLE 8 (s.rd rFwpMeasure i (8 * w))

/-- The evidence of REPLY (Table 16-3). -/
def State.evidence (s : State) : List Byte :=
  bytesLE 2 s.nodeId ++ bytesLE 1 s.sec.lifeCycle ++ List.replicate 5 0 ++ bytesLE 8 (s.rd rNumFprint) ++ s.measures.flatten ++
    sha384 (s.sec.idPub 0 ++ s.sec.idPub 1) ++ List.replicate 32 0

/-- OPEN (R323, R324). -/
def State.runOpen (s : State) : State :=
  let m := s.msgBytes 0 3504
  let kind := fieldLE m 6 1
  let sess := fieldLE m 8 2
  let ws := (upTo 16).map (openRegion m)
  let slotBits := ws.any fun w => decide (bitsOf w.2 57 56 ≠ 0) || bitOf w.2 59
  if fieldLE m 0 4 ≠ 0x4E504F53 ∨ fieldLE m 4 2 ≠ 1 ∨ (kind ≠ 1 ∧ kind ≠ 2) ∨ slotBits then s.secRefuse eBadcmd
  else if !kindAllowed kind s.sec.lifeCycle then s.secRefuse eState
  else if s.sessState ≠ 0 ∨ s.flag rSecStat 9 ∨ ¬ s.flag rNodeStat 7 then s.secDone eState
  else if sess = 0 ∨ !s.regionsOk ws then s.secDone eRange
  else
    let (xs, s1) := s.freeBytes 40 32
    let (rand, s2) := s1.freeBytes 41 32
    let (nonce, s3) := s2.freeBytes 42 32
    let tx := (m.drop 48).take 32
    let tk := (m.drop 80).take 1184
    let part := bytesLE 4 0x4C505253 ++ bytesLE 2 1 ++ List.replicate 8 0 ++ bytesLE 2 sess ++ nonce ++ Config.publicKey 2 xs ++
      Config.encapsulate rand tk ++ s3.evidence
    let sigMsg := sha384 (m ++ part)
    let reply := part ++ Config.sign 0 (s3.sec.idPriv 0) sigMsg ++ Config.sign 1 (s3.sec.idPriv 1) sigMsg
    let hash := sha384 (m ++ reply)
    let okm := hkdfExpand (hkdfExtract hash (Config.agree 2 xs tx ++ Config.agree 3 rand tk)) (ascii "MBSS") 64
    let half : HalfOpen :=
      { hash := hash, kt := okm.take 32, kn := okm.drop 32, kind := kind, sess := sess, pubEd := (m.drop 1264).take 32
        pubMl := (m.drop 1296).take 1952, regions := ws, since := s3.now }
    let s4 := { s3 with sec := { s3.sec with half := some half, measured := s3.measures } }
    let s5 := ((s4.setFld rSecStat 5 4 kind).setFld rSecStat 31 16 sess).setSess 1
    (s5.putMsg 0 reply).secDone eNone

/-! ### FINISH (R323 to R325) -/

/-- Write the region table and draw the keys of the slots: each key is a fresh identity. -/
def State.openRegions (s : State) (ws : List (Nat × Nat)) : State :=
  let used := (upTo 16).filter fun r => regionUsed (ws.getD r (0, 0))
  let s1 := used.foldl (fun t r =>
    let b := regionBounds (ws.getD r (0, 0))
    (t.wr rSecRegion b.1 0 (16 * r)).wr rSecRegion (b.2 + r * 2 ^ 56 + 2 ^ 63) 0 (16 * r + 8)) s
  let keys := used.foldl (fun m r => SMap.set 0 m r (s.fresh + r + 1)) []
  let clear := used.foldl (fun v r => if bitOf (ws.getD r (0, 0)).2 58 then v + 2 ^ r else v) 0
  { s1 with fresh := s1.fresh + 17, sec := { s1.sec with keySlot := keys, clearIn := clear } }

/-- FINISH. -/
def State.runFinish (s : State) : State :=
  match s.sec.half with
  | none => s.secDone eState
  | some h =>
    let m := s.msgBytes 0 3469
    if s.sessState ≠ 1 then s.secDone eState
    else if fieldLE m 0 4 ≠ 0x4E494653 ∨ fieldLE m 4 2 ≠ 1 then s.secRefuse eBadcmd
    else
      let signed := h.kind = 2 ∨
        (Config.verify 0 h.pubEd h.hash ((m.drop 16).take 64) ∧ Config.verify 1 h.pubMl h.hash ((m.drop 80).take 3309))
      match (if signed then gcmOpen h.kt (List.replicate 12 0) [] ((m.drop 3389).take 80) else none) with
      | none => s.dropHalf.secRefuse eSig
      | some text =>
        let key := text.take 32
        let held := key.any fun b => decide (b ≠ 0)
        let s1 := s.openRegions h.regions
        let s2 := { s1 with sec := { s1.sec with
          half := none, kt := h.kt, kn := h.kn, ckptKey := if held then some (fieldLE text 32 8, key) else none } }
        let s3 := (((s2.setFlag rSecStat 8 true).setFlag rSecStat 3 held).setNos 1).setSess 2
        s3.rekeyPorts.secDone eNone

/-! ### READOUT (R333) -/

/-- READOUT. -/
def State.runReadout (s : State) : State :=
  if s.sessState ≠ 2 then s.secDone eState
  else if s.rd rSecReadoutNo = 0xFFFFFFFF then s.secDone eRange
  else if s.sched.stepping then { s with sec := { s.sec with readoutDue := true } }
  else s.readout

/-! ### The close (R329, R330, Table 16-4) -/

/-- Stage 1: SCH ends the job; its checkpoint fails (R335). -/
def State.closeJob (s : State) : State :=
  let s1 :=
    match s.ckpt.run with
    | some run => (s.setRunCkpt { run with after := .nothing }).ckptFail eState
    | none => s
  s1.endJob 2 eAborted

/-- Stage 3: on-die storage, the Seed bank and the registers of SCH that a session writes. -/
def State.scrubOnDie (s : State) : State :=
  let s1 := { s.zeroRange llmBase 0x20000000 with
    threads := [], tiles := [], vecs := [], solvEngs := [], asms := [], factors := [], piaz := {}, dir := [] }
  let s2 := s1.clearSeeds
  ((((s2.wr rSchStep 0).wr rSchRunLeft 0).wr rSchHoldAt 0).wr rSchStopAt 0).wr rSchCkptDest 0

/-- Stages 2 and 3, and the start of stage 4. -/
def State.closeKeys (s : State) : State :=
  let s1 := if s.sec.readoutDue then ({ s with sec := { s.sec with readoutDue := false } }).secDone eState else s
  let s2 := { s1 with sec := { s1.sec with
    keySlot := [], ckptKey := none, kt := [], kn := [], half := none, measured := [], closing := .scrub } }
  let s3 := ((s2.setFlag rSecStat 8 false).setFlag rSecStat 3 false).scrubOnDie
  (s3.setFlag rSecStat 9 true).useHbm .scrub

/-! ### The life-cycle transition (R319 to R321) -/

/-- The fuses that a transition blows (Table 16-2). -/
def State.blowFuses (s : State) (target : Nat) : State :=
  if target = 1 then
    let (seed, s1) := s.freeBytes 43 32
    { s1 with sec := { s1.sec with provisioned := true, seed := seed } }
  else if target = 4 then
    ({ s with sec := { s.sec with retired := true, seed := List.replicate 32 0xFF } }).flashErase 0x400000
  else { s with sec := { s.sec with toggles := s.sec.toggles + 1 } }

/-- The transition commits: fuses, LCY_LAST, the life-cycle reset and the start that follows it (R319, R366). -/
def State.doTransition (s : State) (target : Nat) : State :=
  let prev := s.sec.lifeCycle
  let s1 := (s.blowFuses target).fwLog 3 2 0x051 prev target
  let s2 := { s1 with sec := { s1.sec with last := prev + target * 16 + s1.sec.toggles * 256 } }
  (((s2.dieReset .lifeCycle).setCause 8 (!s.pins.thermtripN)).noteSensors).startUp

/-- A request of LCY_REQ is over (R345, R356). -/
def State.lcyDone (s : State) : State :=
  (({ s with sec := { s.sec with trans := none } }).setFlag rHifStat 2 false).setInt tyLcy 0 iDone

/-- Refuse a request; one without presence is logged (R317). -/
def State.lcyFail (s : State) (target code : Nat) : State :=
  let s1 := if code = ePresence then s.fwLog 3 1 0x052 target s.presenceReg else s
  (s1.refuse tyLcy 0 code 0x084 3).lcyDone

/-- The transition that has passed its checks commits once no session is open or closing. -/
def State.lcyGo (s : State) : State :=
  match s.sec.trans with
  | some t => if s.sec.closing = .none ∧ s.sessState ≠ 2 ∧ s.sessState ≠ 3 then s.doTransition t else s
  | none => s

/-- Stage 5, then what waited for the close: the command, and the transition. -/
def State.closeLast (s : State) : State :=
  let s1 := s.clearRegs tySec ((upTo 32).map fun w => 0x100 + 8 * w)
  let s2 := State.setNos { s1 with sec := { s1.sec with closing := CloseStage.none, clearIn := 0, closeCmd := false } } 0
  let s3 := ((s2.setSess 0).setFld rSecStat 5 4 0).setFld rSecStat 31 16 0
  let s4 := s3.rekeyPorts
  (if s.sec.closeCmd then s4.secDone eNone else s4).lcyGo

/-- Take the close as far as it goes now. -/
def State.advanceClose (s : State) : State :=
  match s.sec.closing with
  | .none => s.lcyGo
  | .job =>
    if s.sched.aborting ∨ (s.jobState ≠ stIdle ∧ s.down 4) then s
    else
      let s1 := if s.jobState = stIdle then s else s.closeJob
      if s1.secUp then s1.closeKeys else s1
  | .scrub => s
  | .last => if s.secUp then s.closeLast else s

/-- Begin to close the open session; a host transfer stops at its next chunk (R329, R335). -/
def State.startClose (s : State) : State :=
  if s.sessState ≠ 2 then s
  else
    let s1 := { s with sec := { s.sec with
      closing := .job, sealDue := false, xfer := s.sec.xfer.map fun (x : Xfer) => { x with stop := true } } }
    (s1.setSess 3).advanceClose

/-- A domain that segments can wake is still granted, or has not left the running state, although nothing wants it any more
(R24, R31). -/
def State.phaseHeld (s : State) : Bool :=
  (upTo 12).any fun i => !s.power.wanted.contains (5 + i) && decide (s.clkOf (5 + i) = 1 ∨ s.clkOf (5 + i) = 2)

/-- ABORT_COMPLETE: every engine has stopped and every grant held for a segment has been released (R31); a session close that waited for it goes on (Table 16-4). -/
def execAbortComplete (s : State) : Outcome :=
  if !s.sched.aborting then .next s
  else
    if s.down 4 ∨ s.phaseHeld then .next s
    else
      let s1 := (({ s with sched := { s.sched with aborting := false, hbStart := none, lapsed := false } }).setJobState stIdle).postEvent 4 1 eAborted
      .next (s1.hifDone (s1.fld rHifCmd 31 16) eNone).advanceClose

/-- CLOSE: a half-open session is discarded at once; a close already begun is joined (R329). -/
def State.runClose (s : State) : State :=
  if s.sessState = 0 then s.secDone eState
  else if s.sessState = 1 then s.dropHalf.secDone eNone
  else ({ s with sec := { s.sec with closeCmd := true } }).startClose

/-! ### SEC commands (R345, R346) -/

/-- SEC takes the pending command up. -/
def State.secTake (s : State) : State :=
  match s.sec.cmd with
  | none => s
  | some op =>
    if !s.secUp then s
    else
      let s1 := ({ s with sec := { s.sec with cmd := none } }).setFlag rSecRsp 0 true
      if op = 1 then s1.runIdentity
      else if op = 2 then s1.runOpen
      else if op = 3 then s1.runFinish
      else if op = 4 then s1.runClose
      else if op = 5 then s1.runReadout
      else s1.secRefuse eBadcmd

/-- A write of SEC_CMD. -/
def State.secWrite (s : State) (op : Nat) : State :=
  if s.boot.held then s
  else if s.flag rHifStat 1 ∨ s.flag rSecRsp 0 then s.overrun
  else
    let s1 := (s.setFld rSecRsp 1 0 0).setFlag rHifStat 1 true
    ({ s1 with sec := { s1.sec with cmd := some op } }).secTake

/-- IDENTITY. -/
def execSecIdentity (s : State) : Outcome := .next (s.secWrite 1)

/-- OPEN. -/
def execSecOpen (s : State) : Outcome := .next (s.secWrite 2)

/-- FINISH. -/
def execSecFinish (s : State) : Outcome := .next (s.secWrite 3)

/-- CLOSE. -/
def execSecClose (s : State) : Outcome := .next (s.secWrite 4)

/-- READOUT. -/
def execSecReadout (s : State) : Outcome := .next (s.secWrite 5)

/-- HALF_OPEN_TIMEOUT: 10 s after OPEN (R324). -/
def execHalfOpenTimeout (s : State) : Outcome :=
  match s.sec.half with
  | some h =>
    let s1 := { s with now := max s.now (h.since + 10000000000) }
    .next (if s.secUp then s1.dropHalf else s)
  | none => .next s

/-! ### Presence and the seal (R317, R318) -/

/-- Presence is missing from now on: requests that wait are marked, and a transition that waits for a close is refused; the
close goes on (R317, R335). -/
def State.presenceGone (s : State) : State :=
  let s1 := { s with sec := { s.sec with
    presence := false, absent := s.sec.absent || s.sec.req.isSome, cfgf := s.sec.cfgf.map fun (c : FlashCmd) => { c with absent := true } } }
  match s1.sec.trans with
  | some t => s1.lcyFail t ePresence
  | none => s1

/-- PRESENCE_LAPSE: PRESENCE_N rises; it counts under the JUMPER policy. -/
def execPresenceLapse (s : State) : Outcome :=
  let s1 := { s with pins := { s.pins with presenceN := true } }
  .next (if s.boot.policy = 2 then s1 else s1.presenceGone)

/-- The seal rule of R318: a tenant's session closes, a half-open one is discarded. -/
def State.sealAct (s : State) : State :=
  if !s.sec.sealDue then s
  else if !s.secUp then s
  else
    let s1 := { s with sec := { s.sec with sealDue := false } }
    if s1.sessState = 1 then s1.dropHalf else if s1.tenantOpen then s1.startClose else s1

/-- The seal loop opens: it counts; presence under the SEAL policy lapses; the session closes where the record says so. -/
def State.sealOpens (s : State) : State :=
  let s1 := ({ s with sec := { s.sec with sealClosed := false } }).bump rLcySealOpens
  let s2 := if s.boot.policy = 2 then s1.presenceGone else s1
  let due := s2.boot.sealCloses && (decide (s2.sessState = 1) || s2.tenantOpen)
  let s3 := { s2 with sec := { s2.sec with sealDue := s2.sec.sealDue || due } }
  s3.sealAct

/-- SEAL_OPEN. -/
def execSealOpen (s : State) : Outcome := .next s.sealOpens

/-! ### Requests of LCY_REQ (R316, R317, R319, R320) -/

/-- Why a request is refused; 0 for one that passes. -/
def Sec.lcyErr (x : Sec) (endorsed_ : Bool) (target : Nat) : Nat :=
  let st := x.lifeCycle
  if 5 ≤ target then eBadcmd
  else if target = 1 then (if st = 0 then eNone else eState)
  else if target = 4 then (if 1 ≤ st ∧ st ≤ 3 then eNone else eState)
  else if (target = 2 ∧ (st = 1 ∨ st = 3)) ∨ (target = 3 ∧ st = 2) then
    (if 255 ≤ x.toggles then eRange else if st = 1 ∧ !endorsed_ then eState else eNone)
  else eState

/-- SEC takes the pending request up. -/
def State.lcyTake (s : State) : State :=
  match s.sec.req with
  | none => s
  | some t =>
    if !s.secUp then s
    else
      let s1 := { s with sec := { s.sec with req := none, absent := false } }
      let e := s.sec.lcyErr (s.flag rLcyStat 4) t
      if e ≠ eNone then s1.lcyFail t e
      else if s.sec.absent then s1.lcyFail t ePresence
      else
        let s2 := { s1 with sec := { s1.sec with trans := some t } }
        if s2.sessState = 2 then s2.startClose else s2.lcyGo

/-- The debounced presence as an operand gives it, with the input that the policy reads it from (R317). -/
def State.setPresence (s : State) (p : Bool) : State :=
  if s.boot.policy = 2 then
    if p then { s with sec := { s.sec with presence := true, sealClosed := true } }
    else if s.sec.sealClosed then s.sealOpens
    else s.presenceGone
  else
    let s1 := { s with pins := { s.pins with presenceN := !p } }
    if p then { s1 with sec := { s1.sec with presence := true } } else s1.presenceGone

/-- A write of LCY_REQ. -/
def State.lcyWrite (s : State) (target : Nat) : State :=
  if s.boot.held then s
  else if s.flag rHifStat 2 then s.overrun
  else ({ s.setFlag rHifStat 2 true with
    sec := { s.sec with req := some target, absent := !s.sec.presence } }).lcyTake

/-- LCY_PROVISION; the operand says whether physical presence holds. -/
def execLcyProvision (present : Bool) (s : State) : Outcome := .next ((s.setPresence present).lcyWrite 1)

/-- LCY_DEPLOY. -/
def execLcyDeploy (present : Bool) (s : State) : Outcome := .next ((s.setPresence present).lcyWrite 2)

/-- LCY_SERVICE. -/
def execLcyService (present : Bool) (s : State) : Outcome := .next ((s.setPresence present).lcyWrite 3)

/-- LCY_RETIRE. -/
def execLcyRetire (present : Bool) (s : State) : Outcome := .next ((s.setPresence present).lcyWrite 4)

end Sys2Proof.Machine
end

