-- ==== Sys2Proof/Machine/HostXfer.lean ====
section
/-!
DEFINITION. The host transfers of the SEC page (R327, R328, R335).
-/

namespace Sys2Proof.Machine

/-- The bytes of one chunk. -/
abbrev chunkBytes : Nat := 65536

/-- Show the progress of a transfer: SEC_XFER_STAT's low word and the rest of the byte count. -/
def State.showXfer (s : State) (busy : Bool) (err moved : Nat) : State :=
  (s.wr rSecXferStat (busy.toNat + 2 * (!busy).toNat + 256 * err + moved % 2 ^ 16 * 2 ^ 16)).wr rSecXferBytes (moved / 2 ^ 16)

/-- A transfer ends: its number is used up while a session is open, and vector 35 fires on the bridge (R327, R336). -/
def State.xferEnd (s : State) (x : Xfer) (err : Nat) : State :=
  let s1 := (({ s with sec := { s.sec with xfer := none } }).showXfer false err x.moved).dropHbm .xfer
  let s2 := if s1.sessState = 2 ∧ x.checked then s1.wr rSecXferNo (min (s1.rd rSecXferNo + 1) 0xFFFFFFFF) else s1
  s2.msix 35

/-- The valid regions that a range of HBM meets. -/
def State.regionsMet (s : State) (a n : Nat) : List Nat :=
  (upTo 16).filter fun r =>
    let lim := s.rd rSecRegion 0 (16 * r + 8)
    bitOf lim 63 && meets (a, a + n) (bitsOf (s.rd rSecRegion 0 (16 * r)) 43 20 * 2 ^ 20, bitsOf lim 43 20 * 2 ^ 20)

/-- The limits of R328, before a byte moves: forms 0 CLEAR IN, 1 CLEAR OUT, 2 SEALED IN, 3 SEALED OUT. -/
def State.xferErr (s : State) (x : Xfer) : Nat :=
  let sealed_ := decide (2 ≤ x.form)
  let image := match s.job with
    | some j => !x.buffer && meets (x.loc, x.loc + x.len) (j.base, j.base + j.len)
    | none => false
  let outside := if x.buffer then decide (16384 < x.loc + x.len) else !s.inOpenHbm x.loc x.len
  let met := if x.buffer then [] else s.regionsMet x.loc x.len
  if x.stop ∨ (sealed_ ∧ s.sessState ≠ 2) then eState
  else if x.len = 0 ∨ 2 ^ 40 < x.len ∨ image = true ∨ outside = true then eRange
  else if sealed_ ∧ s.rd rSecXferNo = 0xFFFFFFFF then eRange
  else if x.form = 0 ∧ met.any fun r => !bitOf s.sec.clearIn r then eLocked
  else if x.form = 1 ∧ met ≠ [] then eLocked
  else eNone

/-- SEC takes a transfer up: it is refused whole, or starts. -/
def State.xferTake (s : State) : State :=
  match s.sec.xfer with
  | some x =>
    if x.checked ∨ !s.secUp then s
    else
      let e := s.xferErr x
      if e ≠ eNone then s.xferEnd x e
      else
        let s1 := { s with sec := { s.sec with xfer := some { x with checked := true } } }
        if x.buffer then s1 else s1.useHbm .xfer
  | none => s

/-- A write of SEC_XFER_CTRL: it starts a transfer, and is discarded while one runs (R327, R346). -/
def State.xferWrite (s : State) (form : Nat) (buffer : Bool) : State :=
  if s.boot.held ∨ s.sec.xfer.isSome then s
  else
    let x : Xfer :=
      { form := form, buffer := buffer, host := s.rd rSecXferHost, loc := s.rd rSecXferLocal, len := s.rd rSecXferLen }
    (({ s with sec := { s.sec with xfer := some x } }).showXfer true 0 0).xferTake

/-- The driver writes address, length and form; a length outside its range is refused and keeps its value (R7). -/
def State.hostXfer (s : State) (form : Nat) (host loc len : Nat) (buffer : Bool) : State :=
  if s.boot.held then s
  else
    let s1 := (s.wr rSecXferHost host).wr rSecXferLocal loc
    let s2 := if 1 ≤ len ∧ len ≤ 2 ^ 40 then s1.wr rSecXferLen len else s1.refuse tySec 0 eRange 0x0A0 3
    s2.xferWrite form buffer

/-- CLEAR_IN. -/
def execClearIn (host loc len : Word) (buffer : Bool) (s : State) : Outcome :=
  .next (s.hostXfer 0 host.toNat loc.toNat len.toNat buffer)

/-- CLEAR_OUT. -/
def execClearOut (host loc len : Word) (buffer : Bool) (s : State) : Outcome :=
  .next (s.hostXfer 1 host.toNat loc.toNat len.toNat buffer)

/-- SEALED_IN. -/
def execSealedIn (host loc len : Word) (buffer : Bool) (s : State) : Outcome :=
  .next (s.hostXfer 2 host.toNat loc.toNat len.toNat buffer)

/-- SEALED_OUT. -/
def execSealedOut (host loc len : Word) (buffer : Bool) (s : State) : Outcome :=
  .next (s.hostXfer 3 host.toNat loc.toNat len.toNat buffer)

/-- The nonce of a sealed chunk (R327). -/
def State.chunkNonce (s : State) (x : Xfer) : List Byte :=
  bytesLE 8 (x.moved / chunkBytes) ++ bytesLE 4 (s.rd rSecXferNo)

/-- Write bytes of a transfer to its target. -/
def State.xferPut (s : State) (x : Xfer) (bs : List Byte) : State :=
  if x.buffer then s.putMsg (x.loc + x.moved) bs else (s.store (x.loc + x.moved) bs).ckptWatch

/-- Read bytes of a transfer from its target. -/
def State.xferGet (s : State) (x : Xfer) (n : Nat) : List Byte × State :=
  if x.buffer then (s.msgBytes (x.loc + x.moved) n, s) else s.fetch (x.loc + x.moved) n

/-- A chunk of `n` bytes has moved; the last one ends the transfer. -/
def State.xferMoved (s : State) (x : Xfer) (n : Nat) : State :=
  let y := { x with moved := x.moved + n }
  if x.len ≤ y.moved then s.xferEnd y eNone
  else ({ s with sec := { s.sec with xfer := some y } }).showXfer true 0 y.moved

/-- One chunk: `data` is what the host's memory holds there, for the forms that read it. -/
def State.xferChunk (s : State) (x : Xfer) (data : List Byte) : State :=
  let n := min chunkBytes (x.len - x.moved)
  let tags := if 2 ≤ x.form then 16 else 0
  let host := x.host + x.moved + tags * (x.moved / chunkBytes)
  if x.stop then s.xferEnd x eState
  else if x.form % 2 = 0 then
    if data.length ≠ n + tags then s
    else
      let s1 := s.emit (.hostRead host (n + tags))
      match (if x.form = 0 then some data else gcmOpen s.sec.kt (s.chunkNonce x) [] data) with
      | some text => (s1.xferPut x (text.take n)).xferMoved x n
      | none => s1.xferEnd x eSig
  else
    let (bs, s1) := s.xferGet x n
    let out := if x.form = 1 then bs else gcmSeal s.sec.kn (s.chunkNonce x) [] bs
    (s1.emit (.hostWrite host out)).xferMoved x n

/-- HOST_XFER_CHUNK: the next chunk of the transfer, while SEC runs (R335); one that moves HBM bytes waits for its path (R13). -/
def execHostXferChunk (data : List Byte) (s : State) : Outcome :=
  match s.sec.xfer with
  | some x => .next (if x.checked ∧ s.secUp ∧ (x.buffer ∨ s.pathRuns) then s.xferChunk x data else s)
  | none => .next s

end Sys2Proof.Machine
end

