-- ==== Sys2Proof/Machine/Piazza.lean ====
section
/-!
DEFINITION. Collectives at their home: admission, the Piazza's fold, Kerbside, home reduction, results, failures and stalls
(R251 to R263).
-/

namespace Sys2Proof.Machine

/-! ### Messages (R251, Table 12-3) -/

/-- The payload of a COLL request. -/
def CollMsg.bytes (m : CollMsg) : List Byte :=
  bytesLE 8 m.cn ++ bytesLE 1 m.ckind ++ bytesLE 1 m.kind ++ bytesLE 1 m.etype ++ bytesLE 1 m.err ++ bytesLE 4 m.pidx ++
    bytesLE 4 m.off ++ bytesLE 4 m.len ++ bytesLE 8 m.result ++ m.data

/-- Read the payload of a COLL request. -/
def readColl (src : Nat) (b : List Byte) : Option CollMsg :=
  if b.length < 32 then none
  else some ⟨fieldLE b 0 8, fieldLE b 8 1, fieldLE b 9 1, fieldLE b 0xA 1, fieldLE b 0xB 1, fieldLE b 0xC 4, fieldLE b 0x10 4,
    fieldLE b 0x14 4, fieldLE b 0x18 8 % 2 ^ 44, src, b.drop 32⟩

/-- The 2 KiB pieces of a vector; an empty vector is one piece without data. -/
def collPieces (len : Nat) : List (Nat × Nat) := if len = 0 then [(0, 0)] else pieces 2048 0 len

/-- The pieces of a contribution: BCAST and BARRIER contributions are the header alone. -/
def contribPieces (kind len : Nat) : List (Nat × Nat) :=
  if kind = ckBcast ∨ kind = ckBarrier then [(0, 0)] else collPieces len

/-- The pieces of a result: a BARRIER's is the header alone (R261). -/
def resultPieces (kind len : Nat) : List (Nat × Nat) := if kind = ckBarrier then [(0, 0)] else collPieces len

/-! ### The fold (R253) -/

/-- Element-wise, one element of the type at a time. -/
def foldBytes (etype : Nat) (acc data : List Byte) : List Byte :=
  let n := etypeBytes etype
  (upTo (data.length / n)).flatMap fun i => bytesLE n (etypeAdd etype (fieldLE acc (i * n) n) (fieldLE data (i * n) n)).1

/-- The start value: +0 or 0; a record takes the exponents of the PIDX 0 record with SUM and FLAGS 0. -/
def startAcc (etype : Nat) (data : List Byte) : List Byte :=
  if etype = 4 then
    (upTo (data.length / 32)).flatMap fun i =>
      let r := laccOf (fieldLE data (32 * i) 32)
      bytesLE 32 ({ sum := 0, expA := r.expA, expB := r.expB, flags := 0 } : LaccRec).toNat
  else List.replicate data.length 0

/-- Fold one contribution into its piece. -/
def FoldPiece.add (p : FoldPiece) (etype : Nat) (data : List Byte) : FoldPiece :=
  { p with next := p.next + 1, acc := foldBytes etype (if p.acc = [] then startAcc etype data else p.acc) data }

/-! ### The slot table and the area (R254, R257, R258) -/

/-- Replace a collective. -/
def State.putColl (s : State) (c : Coll) : State :=
  { s with piaz := { s.piaz with colls := s.piaz.colls.map fun x => if x.cn = c.cn then c else x } }

/-- The collective of a CN at this home. -/
def State.collOf (s : State) (cn : Nat) : Option Coll := s.piaz.colls.find? fun c => c.cn = cn

/-- Replace a piece of a collective. -/
def Coll.putPiece (c : Coll) (p : FoldPiece) : Coll := { c with pieces := c.pieces.map fun x => if x.off = p.off then p else x }

/-- The area is valid in MSA_OREG15 (PIAZ_STAT.HRA_VALID). -/
def State.hraValid (s : State) : Bool := s.oregValid 15

/-- The result part and the staging part: first address and length. -/
def State.hraRes (s : State) : Nat × Nat := (bitsOf (s.rd rPiazHraBase) 43 0, s.rd rPiazHraRes * 0x100000)
def State.hraStg (s : State) : Nat × Nat :=
  (bitsOf (s.rd rPiazHraBase) 43 0 + (s.rd rPiazHraRes + s.rd rPiazHraLog) * 0x100000, s.rd rPiazHraStg * 0x100000)

/-- MEM writes the result and log parts into MSA_OREG15 while the job is loaded; without both parts the area is not valid
(R257). -/
def State.hraApply (s : State) : State :=
  if s.down 1 ∨ s.job.isNone then s
  else
    let b := bitsOf (s.rd rPiazHraBase) 43 0
    let r := s.rd rPiazHraRes * 0x100000
    let l := s.rd rPiazHraLog * 0x100000
    if r = 0 ∨ l = 0 then (if s.oregValid 15 then s.oregClear 15 else s)
    else (((s.oregPut 15 0 (b + 2 ^ 63)).oregPut 15 1 (b + r)).oregPut 15 2 (b + r)).oregPut 15 3 (b + r + l)

/-- The length that a vector takes in the area (R258). -/
def Coll.room (c : Coll) : Nat := roundUp c.len 512

/-- The first offset of a part where a number of bytes fits among those taken (log entry 34). -/
def firstFit (cap n : Nat) (taken : List (Nat × Nat)) : Option Nat :=
  let free := fun (o : Nat) => decide (o + n ≤ cap) && taken.all fun t => decide (o + n ≤ t.1) || decide (t.1 + t.2 ≤ o)
  let ok := (0 :: taken.map fun t => t.1 + t.2).filter free
  ok.foldl (fun m o => some (match m with | some x => min x o | none => o)) none

/-- A place for a collective in both parts. -/
def State.areaFor (s : State) (c : Coll) : Option (Nat × Nat) :=
  let taken := s.piaz.colls.filterMap fun x =>
    match x.place with
    | .hred r g => some (x, r, g)
    | .slot | .hredWait _ | .failed => none
  let r := firstFit s.hraRes.2 c.room (taken.map fun x => (x.2.1, x.1.room))
  let g := firstFit s.hraStg.2 (c.ncontrib * c.room) (taken.map fun x => (x.2.2, x.1.ncontrib * x.1.room))
  match r, g with
  | some a, some b => some (a, b)
  | _, _ => none

/-! ### Messages from the home (R218, R252, R261) -/

/-- Send a piece to members, each group as one multicast of COLL requests; the home's own copy is not sent. To a target whose
fallback has been taken nothing is sent, and a RESULT piece for it has failed (R211, R262). -/
def State.sendColl (s : State) (m : CollMsg) (members : List Nat) : State :=
  let b := m.bytes
  let o := if m.ckind = 3 then Owner.notice m.cn else .homeCopy m.cn
  let others := members.filter (· ≠ s.nodeId)
  let lost := (others.filter s.goneNode).length
  (byGroup (others.filter fun n => !s.goneNode n)).foldl (fun t ms => t.issueMcast .coll o ms 0 b.length b)
    (if m.ckind = 2 ∧ lost ≠ 0 then s.bump rPiazResultErr lost else s)

/-- Release a collective whose last result copy has been acknowledged: its slot, credits and area (R254). One that has failed
gives them back too, and stays known so that later contributions are discarded (R252). -/
def State.collRelease (s : State) (cn : Nat) : State :=
  match s.collOf cn with
  | some c =>
    if c.resultSent ∧ (s.fxp.reqs.all fun r => decide (r.owner ≠ .homeCopy cn)) ∧ s.piaz.batch.all (fun b => decide (b.cn ≠ cn)) then
      if c.dead then s.putColl { c with place := .failed }
      else { s with piaz := { s.piaz with colls := s.piaz.colls.filter fun x => x.cn ≠ cn } }
    else s
  | none => s

/-- A RESULT piece at a member: the data is written and counted towards the descriptor (R261, R262). -/
def State.takeResult (s : State) (m : CollMsg) : State :=
  match s.fxp.descs.find? fun d => decide (0x10 ≤ d.kind) && decide (d.cn = m.cn) with
  | some d =>
    let d' := { d with received := if d.received.contains m.off then d.received else m.off :: d.received }
    let s1 := if m.data = [] then s else s.store (d.result + m.off) m.data
    { s1 with fxp := { s1.fxp with descs := s1.fxp.descs.map fun x => if x = d then d' else x } }
  | none => s.bump rPiazResultErr

/-- A FAILED piece at a member (R262). -/
def State.takeFailed (s : State) (m : CollMsg) : State :=
  match s.fxp.descs.find? fun d => decide (0x10 ≤ d.kind) && decide (d.cn = m.cn) with
  | some d =>
    { s with fxp := { s.fxp with descs := s.fxp.descs.map fun x => if x = d then { d with failed := some (d.failed.getD m.err) } else x } }
  | none => s.bump rPiazResultErr

/-- The message of a home for a collective. -/
def Coll.msg (c : Coll) (home ckind err off : Nat) (data : List Byte) : CollMsg :=
  ⟨c.cn, ckind, c.kind, c.etype, err, 0, off, c.len, c.result, home, data⟩

/-- The collective fails: FAILED goes to every member in place of the result (R252, R258). -/
def State.collFail (s : State) (c : Coll) (err : Nat) : State :=
  let c' := { c with
    place := (match c.place with | .hredWait _ => CollPlace.failed | x => x), pieces := [], resultSent := true, dead := true }
  let s1 := s.putColl c'
  let s2 := { s1 with piaz := { s1.piaz with kerb := s1.piaz.kerb.filter fun m => m.cn ≠ c.cn } }
  let m := c.msg s.nodeId 4 err 0 []
  (((s2.bump rPiazFailed).sendColl m c.members).takeFailed m).collRelease c.cn

/-- The result of a collective goes to every member, or for REDUCE to the home alone (R261). -/
def State.sendResult (s : State) (c : Coll) : State :=
  let data := fun (t : State) (p : Nat × Nat) =>
    if c.kind = ckBarrier then ([], t)
    else if c.kind = ckBcast then t.fetch (c.loc + p.1) p.2
    else
      match c.place with
      | .hred r _ => t.fetch (t.hraRes.1 + r + p.1) p.2
      | .slot | .hredWait _ | .failed => (((c.pieces.find? fun x => x.off = p.1).elim [] (·.acc)), t)
  let s1 := s.putColl { c with resultSent := true }
  let s2 := (resultPieces c.kind c.len).foldl (fun t p =>
    let (b, t1) := data t p
    let m := c.msg t.nodeId 2 0 p.1 b
    (if c.kind = ckReduce then t1 else t1.sendColl m c.members).takeResult m) s1
  s2.collRelease c.cn

/-- Every piece of the collective is folded. -/
def Coll.folded (c : Coll) : Bool := c.pieces.all fun p => decide (c.ncontrib ≤ p.next)

/-! ### Home reduction (R256 to R260) -/

/-- Count a home reduction; the first of a job is reported with its cause (R260). -/
def State.noteFallback (s : State) (cn cause : Nat) : State :=
  let s1 := s.bump rPiazFallbacks
  if s1.piaz.fellBack then s1
  else
    let s2 := { s1 with piaz := { s1.piaz with fellBack := true } }
    s2.raise tyPiaz 0 ePiazzaFallback cn cause

/-- Write a contribution piece to staging (R258). -/
def State.stage (s : State) (c : Coll) (stg : Nat) (m : CollMsg) : State :=
  let s1 := if m.data = [] then s else s.store (s.hraStg.1 + stg + m.pidx * c.room + m.off) m.data
  match c.pieces.find? fun p => p.off = m.off with
  | some p => s1.putColl (c.putPiece { p with staged := m.pidx :: p.staged })
  | none => s1

/-- The contributions of a piece that is ready: every PIDX from its starting point on is staged. -/
def Coll.ready (c : Coll) (p : FoldPiece) : List (Nat × Nat) :=
  if p.next < c.ncontrib ∧ p.staged.length = c.ncontrib - p.next then (upTo (c.ncontrib - p.next)).map fun i => (p.off, p.next + i)
  else []

/-- The length of a piece's data. -/
def Coll.pieceLen (c : Coll) (off : Nat) : Nat := if c.kind = ckBcast ∨ c.kind = ckBarrier then 0 else min 2048 (c.len - off)

/-- The log entries that a contribution takes on each adder. -/
def State.entriesOf (s : State) (c : Coll) (a n : Nat) : List Nat :=
  (upTo (n / etypeBytes c.etype)).map fun i => s.stackOf (a + i * etypeBytes c.etype)

/-- As many contributions, in order, as the log share of every adder takes (R259). -/
def State.batchOf (s : State) (c : Coll) (res : Nat) : List (Nat × Nat) → List Nat → List (Nat × Nat)
  | [], _ => []
  | (off, p) :: rest, used =>
    let more := s.entriesOf c (s.hraRes.1 + res + off) (c.pieceLen off) ++ used
    if (upTo 16).all fun st => decide ((more.filter (· = st)).length + s.logUsed 15 st ≤ s.logShare 15 st) then
      (off, p) :: s.batchOf c res rest more
    else []

/-- A piece without data to fold is complete as soon as it is ready. -/
def Coll.skipEmpty (c : Coll) : Coll :=
  { c with pieces := c.pieces.map fun p => if c.pieceLen p.off = 0 ∧ c.ready p ≠ [] then { p with next := c.ncontrib, staged := [] } else p }

/-- Start a batch of a collective: initial accumulators, ordered block adds with key PIDX, and the CLOSE (R259). -/
def State.startBatch (s : State) (c : Coll) (res stg : Nat) : State :=
  let items := s.batchOf c res (c.pieces.flatMap c.ready) []
  let base := s.hraRes.1 + res
  let s1 := c.pieces.foldl (fun t p =>
    if p.acc = [] ∧ items.any (fun x => x.1 = p.off) then
      let (b, t1) := t.fetch (t.hraStg.1 + stg + p.off) (c.pieceLen p.off)
      let acc := startAcc c.etype b
      (t1.store (base + p.off) acc).putColl (((t1.collOf c.cn).getD c).putPiece { p with acc := acc })
    else t) s
  let s2 := items.foldl (fun t x =>
    let (b, t1) := t.fetch (t.hraStg.1 + stg + x.2 * c.room + x.1) (c.pieceLen x.1)
    ((t1.blockAdd c.etype (base + x.1) (some x.2) b).1).bump64 rPiazFoldBytes b.length) s1
  ({ s2 with piaz := { s2.piaz with batch := some ⟨c.cn, items, false⟩ } }).closeStart 15 .homeReduction

/-- The collective in home reduction with the lowest CN that has a piece to fold. -/
def State.nextReady (s : State) : Option Coll :=
  (s.piaz.colls.filter fun c =>
    (match c.place with | .hred _ _ => true | .slot | .hredWait _ | .failed => false) && !c.resultSent &&
      decide (c.pieces.flatMap c.ready ≠ [])).foldl (fun m c =>
    match m with
    | some x => if c.cn < x.cn then some c else some x
    | none => some c) none

/-- Let the home-reduction engine go on where it is idle: one batch at a time. `fuel` bounds the collectives without data. -/
def State.hredKick (s : State) : Nat → State
  | 0 => s
  | fuel + 1 =>
    match s.piaz.batch, s.nextReady with
    | none, some c =>
      let c1 := c.skipEmpty
      if c1.folded then ((s.putColl c1).sendResult c1).hredKick fuel
      else if c1.pieces.flatMap c1.ready = [] then (s.putColl c1).hredKick fuel
      else
        match c1.place with
        | .hred r g => (s.putColl c1).startBatch c1 r g
        | .slot | .hredWait _ | .failed => s
    | _, _ => s

/-! ### Taking contributions (R252, R255, R256) -/

/-- The contribution agrees with the home's descriptor and its PIDX is new. -/
def Coll.agrees (c : Coll) (m : CollMsg) : Bool :=
  decide (m.kind = c.kind) && decide (m.etype = c.etype) && decide (m.len = c.len) && decide (m.result = c.result) &&
    decide (m.pidx < c.ncontrib) && (contribPieces c.kind c.len).any (fun p => decide (p.1 = m.off) && decide (p.2 = m.data.length)) &&
    c.seen.all fun x => decide (x.1 ≠ m.pidx) || (decide (x.2.1 ≠ m.off) && decide (x.2.2 = m.src))

/-- Fold a contribution in the slot. -/
def State.slotFold (s : State) (c : Coll) (m : CollMsg) : State :=
  match c.pieces.find? fun p => p.off = m.off with
  | some p => (s.putColl (c.putPiece (p.add c.etype m.data))).bump64 rPiazFoldBytes m.data.length
  | none => s

/-- A contribution piece of the collective that has been taken: its PIDX, OFFSET and source. -/
def CollMsg.mark (m : CollMsg) : Nat × Nat × Nat := (m.pidx, m.off, m.src)

/-- Enter a contribution piece as taken. -/
def Coll.see (c : Coll) (m : CollMsg) : Coll := if c.seen.contains m.mark then c else { c with seen := m.mark :: c.seen }

/-- Fold the parked pieces that have become next, until the next one is missing (R255). A piece parked before admission is checked
when its turn comes (R252). -/
def State.slotDrain (s : State) (cn : Nat) : Nat → State
  | 0 => s
  | fuel + 1 =>
    match s.collOf cn with
    | some c =>
      match s.piaz.kerb.find? fun m => decide (m.cn = cn) && c.pieces.any fun p => decide (p.off = m.off) && decide (p.next = m.pidx) with
      | some m =>
        if c.seen.contains m.mark ∨ c.agrees m then
          (({ s with piaz := { s.piaz with kerb := s.piaz.kerb.erase m } }).slotFold (c.see m) m).slotDrain cn fuel
        else s.collFail c eBadcmd
      | none => s
    | none => s

/-- Send the result of a collective whose every piece is folded. -/
def State.sendIfFolded (s : State) (cn : Nat) : State :=
  match s.collOf cn with
  | some c => if c.folded ∧ ¬ c.resultSent then s.sendResult c else s
  | none => s

/-- The waiting collective of the lowest CN. -/
def State.firstWaiting (s : State) : Option Coll :=
  (s.piaz.colls.filter fun c =>
    match c.place with
    | .hredWait _ => true
    | .slot | .hred _ _ | .failed => false).foldl
      (fun m c => match m with | some x => if c.cn < x.cn then some c else some x | none => some c) none

/-- Count every collective that waits for area, once (PIAZ_HRA_WAIT). -/
def State.countWaits (s : State) : State :=
  s.piaz.colls.foldl (fun t c =>
    match c.place with
    | .hredWait false => (t.putColl { c with place := .hredWait true }).bump rPiazHraWait
    | .hredWait true | .slot | .hred _ _ | .failed => t) s

/-- Give areas to the collectives that wait, in ascending CN, until one finds none; those already staged elsewhere follow when
their pieces arrive again. `fuel` bounds the collectives. -/
def State.takeAreas (s : State) : Nat → State
  | 0 => s.countWaits
  | fuel + 1 =>
    match s.firstWaiting with
    | none => s
    | some c =>
      match s.areaFor c with
      | some (r, g) =>
        let s1 := s.putColl { c with place := .hred r g }
        (c.pieces.foldl (fun t p => if p.acc = [] then t else t.store (t.hraRes.1 + r + p.off) p.acc) s1).takeAreas fuel
      | none => s.countWaits

/-- Move a collective to home reduction (R256, R258): without a valid area it fails. -/
def State.toHome (s : State) (c : Coll) : State :=
  if !s.hraValid then s.collFail c eRange
  else (s.putColl { c with place := .hredWait false }).takeAreas (s.piaz.colls.length + 1)

/-- A contribution piece at the home: whether it is acknowledged, that is folded, parked, staged or discarded; if not, it is
held. -/
def State.takeContrib (s : State) (m : CollMsg) : State × Bool :=
  match s.collOf m.cn with
  | none =>
    if s.piaz.marked.contains m.cn then (s, false)
    else if 16384 ≤ s.piaz.kerb.length then
      (({ s with piaz := { s.piaz with marked := s.piaz.marked ++ [m.cn] } }).noteFallback m.cn 3, false)
    else ({ s with piaz := { s.piaz with kerb := s.piaz.kerb ++ [m] } }, true)
  | some c =>
    if c.dead then (s, true)
    else
    match c.place with
    | .failed => (s, true)
    | .hredWait _ => (s, false)
    | .hred _ g =>
      if !c.agrees m then (s.collFail c eBadcmd, true)
      else ((s.stage (c.see m) g m).hredKick (s.piaz.colls.length + 1), true)
    | .slot =>
      if !c.agrees m then (s.collFail c eBadcmd, true)
      else
        let c1 := c.see m
        let next := c1.pieces.any fun p => decide (p.off = m.off) && decide (p.next = m.pidx)
        if next then (((s.slotFold c1 m).slotDrain m.cn (s.piaz.kerb.length + 1)).sendIfFolded m.cn, true)
        else if s.piaz.kerb.length < 16384 then
          (({ s with piaz := { s.piaz with kerb := s.piaz.kerb ++ [m] } }).putColl c1, true)
        else
          let mine := s.piaz.kerb.filter fun x => x.cn = m.cn
          let s1 := { s with piaz := { s.piaz with kerb := s.piaz.kerb.filter fun x => x.cn ≠ m.cn } }
          let s2 := (s1.noteFallback m.cn 3).toHome c1
          match s2.collOf m.cn with
          | some c2 =>
            match c2.place with
            | .hred _ g =>
              let s3 := (mine ++ [m]).foldl (fun t x => t.stage ((t.collOf m.cn).getD c2) g x) s2
              (s3.hredKick (s3.piaz.colls.length + 1), true)
            | .hredWait _ =>
              let again := (m :: mine).map CollMsg.mark
              let s3 := s2.putColl { c2 with seen := c2.seen.filter fun x => !again.contains x }
              ({ s3 with piaz := { s3.piaz with kerb := s3.piaz.kerb ++ mine } }, false)
            | .slot | .failed => (s2, true)
          | none => (s2, true)

/-- Check the parked pieces of an admitted collective that were parked before it was (R252). -/
def State.checkParked (s : State) (cn : Nat) : State :=
  (s.piaz.kerb.filter fun m => m.cn = cn).foldl (fun t m =>
    match t.collOf cn with
    | some c => if c.dead ∨ c.seen.contains m.mark then t else if c.agrees m then t.putColl (c.see m) else t.collFail c eBadcmd
    | none => t) s

/-- The parked pieces of a collective that has just been admitted, or just got its area, in order of arrival: in a slot those that
are next are folded and the others are checked; in home reduction they are staged (R255, R256). -/
def State.takeParked (s : State) (cn : Nat) : State :=
  if (s.collOf cn).elim false Coll.inSlot then
    ((s.slotDrain cn (s.piaz.kerb.length + 1)).checkParked cn).sendIfFolded cn
  else
    let mine := s.piaz.kerb.filter fun m => m.cn = cn
    let s1 := { s with piaz := { s.piaz with kerb := s.piaz.kerb.filter fun m => m.cn ≠ cn } }
    mine.foldl (fun t m =>
      let (t1, ok) := t.takeContrib m
      if ok then t1 else { t1 with piaz := { t1.piaz with kerb := t1.piaz.kerb ++ [m] } }) s1

/-- Look again at what home reduction holds: parked and held pieces of collectives that can take them now, in order of arrival.
A held piece of this node itself is a local contribution without an answer. -/
def State.takeHeld (s : State) : State :=
  let parked := (s.piaz.colls.filter fun c =>
    match c.place with
    | .hred _ _ | .failed => s.piaz.kerb.any fun m => m.cn = c.cn
    | .slot | .hredWait _ => false).map (·.cn)
  let s1 := parked.foldl State.takeParked s
  s1.fxp.hold.foldl (fun t h =>
    if h.forHome then
      match readColl (h.req.src.toNat % 2 ^ 14) h.req.payload with
      | some m =>
        let drop := fun (u : State) => { u with fxp := { u.fxp with hold := u.fxp.hold.erase h } }
        if h.req.src.toNat % 2 ^ 14 = t.nodeId then
          let (t1, ok) := t.takeContrib m
          if ok then drop t1 else t
        else
          match t.served h.typ h.req with
          | some t1 => drop t1
          | none =>
            let (t1, ok) := t.takeContrib m
            if !t.ledgerFull && ok then ((drop t1).bump64 rFxpReqIn).finish h.typ h.req eNone [] else t
      | none => t
    else t) s1

/-- Let home reduction go on after room or an engine has become free. -/
def State.homeGo (s : State) : State :=
  let n := s.piaz.colls.length + 1
  (s.takeAreas n).takeHeld.hredKick n

/-- Admission of a collective when the home's own descriptor starts (R254). -/
def State.admitColl (s : State) (cn kind etype len result loc ncontrib : Nat) (members : List Nat) : State :=
  let c : Coll := { cn, kind, etype, len, result, loc, ncontrib, members, place := .slot, since := s.now
                    pieces := (contribPieces kind len).map fun p => { off := p.1 } }
  let marked := s.piaz.marked.contains cn
  let cause := if s.piaz.slotsUsed ≥ 1024 then 2 else if s.piaz.freeCredits < c.credits then 1 else 0
  let s1 := { s with piaz := { s.piaz with colls := s.piaz.colls ++ [c], marked := s.piaz.marked.filter (· ≠ cn) } }
  if marked then s1.toHome c
  else if cause = 0 then s1
  else (s1.noteFallback cn cause).toHome c

/-! ### Stalls (R263) -/

/-- The lowest CN that the node has issued and that is not complete; all ones if none. -/
def State.awaited (s : State) : Nat :=
  (s.fxp.descs.filter fun d => decide (0x10 ≤ d.kind)).foldl (fun m d => min m d.cn) (2 ^ 64 - 1)

/-- Raise the stall of a CN; only the first of a job fills the registers, and later stalls only count. -/
def State.raiseStall (s : State) (cn : Nat) : State :=
  let s1 := s.bump rPiazStalls
  if s1.piaz.stalled then s1
  else
    let a := s1.awaited
    let s2 := { s1 with piaz := { s1.piaz with stalled := true } }
    ((s2.wr rPiazStallOwed cn).wr rPiazStallAwait a).raise tyPiaz 0 eCollStall cn a

/-- A NOTICE at a member (R263). -/
def State.takeNotice (s : State) (m : CollMsg) : State := if s.piaz.issued.contains m.cn then s else s.raiseStall m.cn

/-- The watchdog counts time only in these states (R263). -/
def State.watchRuns (s : State) : Bool :=
  decide (s.jobState = stRunning) || decide (s.jobState = stDraining) || decide (s.jobState = stCheckpoint)

/-- The members from which a contribution of a collective has arrived: taken, parked or held (R263). -/
def State.heardOf (s : State) (c : Coll) : List Nat :=
  (c.seen.map fun x => x.2.2) ++ ((s.piaz.kerb.filter fun m => m.cn = c.cn).map (·.src)) ++
    (s.fxp.hold.filter fun h => h.forHome && decide ((readColl 0 h.req.payload).elim 0 (·.cn) = c.cn)).map fun h =>
      h.req.src.toNat % 2 ^ 14

/-- COLL_WATCHDOG: the collective, or a parked or held piece of it, passes 100 ms (R263). -/
def execCollWatchdog (cn : Word) (s : State) : Outcome :=
  if !s.watchRuns then .next s
  else
    match s.collOf cn.toNat with
    | some c =>
      if c.resultSent then .next s
      else
        let s := { s with now := max s.now (c.since + 100000000) }
        let heard := s.heardOf c
        let due := c.members.filter fun n => !heard.contains n && !c.noticed.contains n
        let m := c.msg s.nodeId 3 0 0 []
        let s1 := (s.putColl { c with noticed := c.noticed ++ due }).sendColl m due
        .next (if due.contains s.nodeId then s1.takeNotice m else s1)
    | none =>
      let waits := (s.piaz.kerb.any fun m => m.cn = cn.toNat) ||
        s.fxp.hold.any fun h => h.forHome && decide ((readColl 0 h.req.payload).elim 0 (·.cn) = cn.toNat)
      if waits ∧ ¬ s.piaz.raised.contains cn.toNat then
        .next (({ s with piaz := { s.piaz with raised := s.piaz.raised ++ [cn.toNat] } }).raiseStall cn.toNat)
      else .next s

/-- HRED_CLOSE_REPLY: the CLOSE of the running batch has replied; the pieces advance, a folded collective sends its result, and
the next batch starts (R259, R261). -/
def execHredCloseReply (s : State) : Outcome :=
  match s.piaz.batch with
  | some b =>
    if b.closed then
      let s1 := { s with piaz := { s.piaz with batch := none } }
      match s1.collOf b.cn with
      | some c =>
        let c1 := { c with pieces := c.pieces.map fun p =>
          let mine := b.items.filter fun x => x.1 = p.off
          { p with next := p.next + mine.length, staged := p.staged.filter fun i => !mine.any fun x => x.2 = i } }
        let s2 := s1.putColl c1
        let s3 := if c1.dead then s2.collRelease b.cn else if c1.folded then s2.sendResult c1 else s2
        .next s3.homeGo
      | none => .next (s1.hredKick (s1.piaz.colls.length + 1))
    else .next s
  | none => .next s

end Sys2Proof.Machine
end

