-- ==== Sys2Proof/Machine/Ring.lean ====
section
/-!
DEFINITION. Transfer rings and their descriptors, collectives among them: a descriptor is started by its command, and its requests are
issued one piece at a time, the rings in turn, as system tags are free (R213 to R219, R248 to R251, R261).
-/

namespace Sys2Proof.Machine

/-! ### Slots (R214) -/

/-- BASE of a ring entry, and its number of slots. -/
def State.ringBase (s : State) (r : Nat) : Nat := bitsOf (s.rd rFxpRing 0 (32 * r)) 43 0
def State.ringSlots (s : State) (r : Nat) : Nat := 2 ^ (s.rd rFxpRing 0 (32 * r + 8) % 32)

/-- TAIL and HEAD of a ring. -/
def State.ringTail (s : State) (r : Nat) : Nat := natLE (s.peekN (s.ringBase r) 8)
def State.ringHead (s : State) (r : Nat) : Nat := natLE (s.peekN (s.ringBase r + 8) 8)

/-- The address of a slot. -/
def State.slotAddr (s : State) (r i : Nat) : Nat := s.ringBase r + 64 + 64 * (i % s.ringSlots r)

/-- The slot at HEAD, where the engine works the ring off and HEAD is below TAIL: its index and its bytes. -/
def State.ringSlot (s : State) (r : Nat) : Option (Nat × List Byte) :=
  if s.fxp.active.contains r && bitOf (s.rd rFxpRing 0 (32 * r)) 63 && decide (s.ringHead r < s.ringTail r) then
    some (s.ringHead r, s.peekN (s.slotAddr r (s.ringHead r)) 64)
  else none

/-- The engine leaves the ring until the next atomic on TAIL. -/
def State.ringSleep (s : State) (r : Nat) : State := { s with fxp := { s.fxp with active := s.fxp.active.filter (· ≠ r) } }

/-- A KIND of Table 10-9 or 12-1. -/
def kindKnown (k : Nat) : Bool := (decide (1 ≤ k) && decide (k ≤ 4)) || (decide (0x10 ≤ k) && decide (k ≤ 0x13))

/-- The slot has been worked off: KIND 0, and HEAD advances. -/
def State.slotOver (s : State) (r i : Nat) : State :=
  (s.store (s.slotAddr r i) [0]).store (s.ringBase r + 8) (bytesLE 8 (i + 1))

/-- The value that a failed descriptor writes (R219). -/
def failValue (code : Nat) : Nat := 0xFFFFFFFFFFFFFF00 + code

/-- Write DONE_ADDR, a release store; 0 is none. -/
def State.writeDone (s : State) (a v : Nat) : State := if a = 0 ∨ ¬ s.memOk a 8 then s else s.store a (bytesLE 8 v)

/-- Refuse the descriptor of a slot (R219): nothing is sent. -/
def State.ringRefuse (s : State) (r i : Nat) (b : List Byte) : State :=
  ((s.writeDone (fieldLE b 0x30 8) (failValue eBadcmd)).bump rFxpRingErr).slotOver r i

/-- Go past descriptors of a reserved KIND, and leave the ring at an empty slot or at TAIL. `fuel` bounds the slots. -/
def State.ringSettle (s : State) (r : Nat) : Nat → State
  | 0 => s
  | fuel + 1 =>
    match s.ringSlot r with
    | none => s.ringSleep r
    | some (i, b) =>
      let k := fieldLE b 0 1
      if k = 0 then s.ringSleep r
      else if kindKnown k then s
      else (s.ringRefuse r i b).ringSettle r fuel

/-- The slots that a settling can pass. -/
abbrev ringFuel : Nat := 65537

/-! ### Transfers (R215 to R219) -/

/-- Record the first code that a descriptor meets. -/
def State.failDesc (s : State) (ring index code : Nat) : State :=
  { s with fxp := { s.fxp with descs := s.fxp.descs.map fun d =>
      if d.ring = ring ∧ d.index = index then { d with failed := some (d.failed.getD code) } else d } }

/-- The fields of a transfer descriptor are in order (Table 10-9). -/
def State.transferOk (s : State) (b : List Byte) : Bool :=
  let kind := fieldLE b 0 1
  let flags := fieldLE b 1 1
  let et := fieldLE b 2 1
  let node := fieldLE b 4 2
  let len := fieldLE b 0x18 8
  let remote := fieldLE b 0x10 8
  let done_ := fieldLE b 0x30 8
  let esz := etypeBytes et
  decide (flags < (if kind = 4 then 4 else 2)) && decide (fieldLE b 3 1 = 0) && decide (fieldLE b 6 2 = 0) &&
    (if kind = 4 then decide (et ≤ 4) && decide (len % esz = 0) && decide (remote % esz = 0) else decide (et = 0)) &&
    decide (1 ≤ len) && decide (len ≤ 2 ^ 32) && decide (remote + len ≤ 2 ^ 44) && s.memOk (fieldLE b 8 8) len &&
    decide (fieldLE b 0x28 8 < 2 ^ 40) && (decide (done_ = 0) || s.memOk done_ 8) &&
    (if kind = 3 then
      decide (1 ≤ node) && decide (node ≤ 16384) && s.memOk (fieldLE b 0x20 8) (2 * node)
     else decide (node < 2 ^ 14) && decide (fieldLE b 0x20 8 = 0))

/-- The node IDs of an MCAST's LIST; none where one is reserved or repeated (R218). -/
def State.mcastList (s : State) (b : List Byte) : Option (List Nat) :=
  let n := fieldLE b 4 2
  let bytes := s.peekN (fieldLE b 0x20 8) (2 * n)
  let ids := (upTo n).map fun i => fieldLE bytes (2 * i) 2
  if (ids.all fun x => decide (x < 2 ^ 14)) && decide (ids.eraseDups.length = ids.length) then some ids else none

/-- The pieces of a PUT, GET or MCAST: offset and length, cut at 4 KiB boundaries of either address (R216). -/
def transferPieces (loc remote len : Nat) : List (Nat × Nat) :=
  (pieces 4096 remote len).flatMap fun p =>
    let off := p.1 - remote
    (pieces 4096 (loc + off) p.2).map fun q => (q.1 - loc, q.2)

/-- The pieces of a REDUCE, cut at 4 KiB boundaries of the destination; a keyed one keeps room for its key in a payload of 4,096
bytes (R192, R217; log entry 46). -/
def reducePieces (remote len cap : Nat) : List (Nat × Nat) :=
  (pieces 4096 remote len).flatMap fun p =>
    (upTo ((p.2 + cap - 1) / cap)).map fun k => (p.1 - remote + k * cap, min cap (p.2 - k * cap))

/-- What a request of the engine to this node itself would meet (R190, R220). -/
def State.localErr (s : State) (a n : Nat) : Nat := if s.memOk a n then eNone else if inRegWin a n then eLocked else eRange

/-- One piece of a PUT; its source bytes are read when its request is issued (R216). -/
def State.putPiece (s : State) (r i node loc remote : Nat) (p : Nat × Nat) : State :=
  if node = s.nodeId then
    let e := s.localErr (remote + p.1) p.2
    if e = eNone then
      let (data, s1) := s.fetch (loc + p.1) p.2
      s1.store (remote + p.1) data
    else s.failDesc r i e
  else if s.goneNode node then s.failDesc r i eDeadTarget
  else
    let (data, s1) := s.fetch (loc + p.1) p.2
    s1.issue .store (.ring r i 0) node 0 0 (remote + p.1) p.2 data

/-- One piece of a GET. -/
def State.getPiece (s : State) (r i node loc remote : Nat) (p : Nat × Nat) : State :=
  if node = s.nodeId then
    let e := s.localErr (remote + p.1) p.2
    if e = eNone then
      let (data, s1) := s.fetch (remote + p.1) p.2
      s1.store (loc + p.1) data
    else s.failDesc r i e
  else if s.goneNode node then s.failDesc r i eDeadTarget
  else s.issue .load (.ring r i (loc + p.1)) node 0 0 (remote + p.1) p.2 []

/-- One piece of an MCAST for the members of one group: a multicast to the others, and this node's own copy, which it performs and
counts itself (R218). -/
def State.mcastPiece (s : State) (r i : Nat) (ids : List Nat) (loc remote : Nat) (p : Nat × Nat) : State :=
  let (data, s1) := s.fetch (loc + p.1) p.2
  let e := s1.localErr (remote + p.1) p.2
  let s2 :=
    if ids.contains s1.nodeId then
      (if e = eNone then (s1.store (remote + p.1) data).bump64 rFxpReqIn else s1.failDesc r i e)
    else s1
  let there := ids.filter fun n => decide (n ≠ s2.nodeId) && !s2.goneNode n
  let s3 := if ids.any s2.goneNode then s2.failDesc r i eDeadTarget else s2
  s3.issueMcast .store (.ring r i 0) there (remote + p.1) p.2 data

/-- One piece of a REDUCE (R217). -/
def State.reducePiece (s : State) (r i node et : Nat) (key : Option Nat) (loc remote : Nat) (p : Nat × Nat) : State :=
  if node = s.nodeId then
    let e := s.localErr (remote + p.1) p.2
    if e = eNone then
      let (data, s1) := s.fetch (loc + p.1) p.2
      let (s2, c) := s1.blockAdd et (remote + p.1) key data
      if c = eNone then s2 else s2.failDesc r i c
    else s.failDesc r i e
  else if s.goneNode node then s.failDesc r i eDeadTarget
  else
    let (data, s1) := s.fetch (loc + p.1) p.2
    match key with
    | some k => s1.issue .blockAdd (.ring r i 0) node et 1 (remote + p.1) (p.2 + 8) (bytesLE 8 k ++ data)
    | none => s1.issue .blockAdd (.ring r i 0) node et 0 (remote + p.1) p.2 data

/-- Enter a descriptor as started. -/
def State.openDesc (s : State) (d : RingDesc) : State := { s with fxp := { s.fxp with descs := s.fxp.descs ++ [d] } }

/-- Change the descriptor at an index of a ring. -/
def State.onDesc (s : State) (r i : Nat) (f : RingDesc → RingDesc) : State :=
  { s with fxp := { s.fxp with descs := s.fxp.descs.map fun d => if d.ring = r ∧ d.index = i then f d else d } }

/-- The descriptor of a ring that the engine is issuing. -/
def State.issuingDesc (s : State) (r : Nat) : Option RingDesc := s.fxp.descs.find? fun d => decide (d.ring = r) && d.issuing

/-- The descriptor at an index of a ring may start: every request of the previous one has been issued, and with FLAGS.AFTER it has
completed (R215). -/
def State.mayStart (s : State) (r i : Nat) (b : List Byte) : Bool :=
  (s.issuingDesc r).isNone &&
    (!bitOf (fieldLE b 1 1) 0 || s.fxp.descs.all fun d => decide (d.ring ≠ r) || decide (d.index + 1 ≠ i))

/-! ### Collectives (R248 to R251) -/

/-- The member record of a home (Table 12-2): members and NCONTRIB; none where it breaks the table. -/
def State.memberRecord (s : State) (a : Nat) : Option (List Nat × Nat) :=
  if !s.memOk a 8 then none
  else
    let h := s.peekN a 8
    let n := fieldLE h 0 4
    let c := fieldLE h 4 4
    if 1 ≤ n ∧ n ≤ 16384 ∧ n ≤ c ∧ c ≤ 2 ^ 24 ∧ s.memOk (a + 8) (2 * n) then
      let b := s.peekN (a + 8) (2 * n)
      let ids := (upTo n).map fun i => fieldLE b (2 * i) 2
      if (ids.all fun x => decide (x < 2 ^ 14)) && decide (ids.eraseDups.length = ids.length) && ids.contains s.nodeId then
        some (ids, c)
      else none
    else none

/-- The fields of a collective descriptor are in order (Table 12-1, R248). -/
def State.collOk (s : State) (j : Job) (b : List Byte) : Bool :=
  let kind := fieldLE b 0 1
  let et := fieldLE b 2 1
  let home := fieldLE b 4 2
  let pc := fieldLE b 6 2
  let cn := fieldLE b 8 8
  let loc := fieldLE b 0x10 8
  let result := fieldLE b 0x18 8
  let len := fieldLE b 0x28 4
  let done_ := fieldLE b 0x30 8
  let data := decide (kind = ckAllreduce) || decide (kind = ckReduce)
  let mine := decide (home = s.nodeId)
  let takes := decide (kind ≠ ckBarrier) && (decide (kind ≠ ckReduce) || mine) && decide (len ≠ 0)
  decide (fieldLE b 1 1 < 2) && decide (fieldLE b 3 1 = 0) && decide (home < 2 ^ 14) && decide (1 ≤ pc) &&
    (if data then decide (et ≤ 4) && decide (len % etypeBytes et = 0) && (decide (len = 0) || s.memOk loc (pc * len))
     else decide (et = 0)) &&
    (if kind = ckBcast ∧ mine ∧ len ≠ 0 then s.memOk loc len else true) &&
    decide (len ≤ 2 ^ 31) && (decide (kind ≠ ckBarrier) || decide (len = 0)) && decide (result < 2 ^ 44) &&
    (!takes || s.memOk result len) && (decide (done_ = 0) || s.memOk done_ 8) &&
    decide (j.collCount ≠ 0) && decide (cn / j.collCount = s.rd rSchStep) &&
    (s.fxp.descs.all fun d => decide (d.kind < 0x10) || decide (d.cn ≠ cn)) &&
    (if mine then (s.memberRecord (fieldLE b 0x20 8)).isSome else decide (fieldLE b 0x20 8 = 0))

/-- Send one contribution piece to the home; the home's own is taken locally, without a tag (R251). -/
def State.contribute (s : State) (r i home : Nat) (m : CollMsg) : State :=
  let b := m.bytes
  if home = s.nodeId then
    let (s1, ok) := s.takeContrib m
    if ok then s1
    else s1.holdReq .coll (s1.mkReq (.ring r i 0) home 0 0 0 b.length b) true
  else if s.goneNode home then s.failDesc r i eDeadTarget
  else s.issue .coll (.ring r i 0) home 0 0 0 b.length b

/-- The length of the data that a piece of a contribution carries. -/
def contribData (s : State) (kind a n : Nat) : List Byte × State :=
  if kind = ckBcast ∨ kind = ckBarrier then ([], s) else s.fetch a n

/-! ### Issuing (R214, R215) -/

/-- Issue one piece of a descriptor. -/
def State.issueItem (s : State) (d : RingDesc) (x : RingItem) : State :=
  let b := d.slot
  let node := fieldLE b 4 2
  let loc := fieldLE b 8 8
  let remote := fieldLE b 0x10 8
  let p := (x.off, x.len)
  if d.kind = 1 then s.putPiece d.ring d.index node loc remote p
  else if d.kind = 2 then s.getPiece d.ring d.index node loc remote p
  else if d.kind = 3 then s.mcastPiece d.ring d.index x.members loc remote p
  else if d.kind = 4 then
    s.reducePiece d.ring d.index node (fieldLE b 2 1) (if bitOf (fieldLE b 1 1) 1 then some (fieldLE b 0x28 8) else none) loc remote p
  else
    let (data, s1) := contribData s d.kind (remote + x.part * d.len + x.off) x.len
    s1.contribute d.ring d.index d.home
      ⟨d.cn, 1, d.kind, fieldLE b 2 1, 0, fieldLE b 0x2C 4 + x.part, x.off, d.len, d.result, s1.nodeId, data⟩

/-- A piece needs a system tag: it goes to another node whose fallback has not been taken (R211, R251). -/
def State.itemTags (s : State) (d : RingDesc) (x : RingItem) : Bool :=
  let me := s.nodeId
  if d.kind = 3 then x.members.any fun n => decide (n ≠ me) && !s.goneNode n
  else
    let node := if d.kind < 0x10 then fieldLE d.slot 4 2 else d.home
    decide (node ≠ me) && !s.goneNode node

/-- The engine has issued the last request of a descriptor: its slot is over (R214). On the home, the parked pieces of its
collective follow its own contributions (R255). -/
def State.slotDone (s : State) (d : RingDesc) : State :=
  let s1 := s.onDesc d.ring d.index fun x => { x with issuing := false, todo := [] }
  let s2 := if 0x10 ≤ d.kind ∧ d.home = s1.nodeId then (s1.takeParked d.cn).homeGo else s1
  (s2.slotOver d.ring d.index).ringSettle d.ring ringFuel

/-- Issue the next piece of a ring's descriptor, where it has a tag or needs none; a descriptor that has failed issues nothing
more (R219). None where the ring has nothing to do now. -/
def State.ringStep (s : State) (r : Nat) : Option State :=
  match s.issuingDesc r with
  | none => none
  | some d =>
    match d.todo, d.failed with
    | x :: rest, none =>
      if s.itemTags d x && s.systemTag.isNone then none
      else
        let s1 := (s.onDesc d.ring d.index fun y => { y with todo := rest }).issueItem d x
        some (if rest.isEmpty then s1.slotDone d else s1)
    | [], _ | _ :: _, some _ => some (s.slotDone d)

/-- The next ring in turn that can issue, and the state after it has; the engine waits for HBM to run (R13). -/
def State.ringTurn (s : State) : Option State :=
  if !s.hbmRuns then none
  else ((upTo 16).map fun i => (s.fxp.turn + 1 + i) % 16).findSome? fun r =>
    (s.ringStep r).map fun t => { t with fxp := { t.fxp with turn := r } }

/-- Serve the rings in turn, one request at a time, as long as tags are free (R215). `fuel` bounds the pieces. -/
def State.ringServe (s : State) : Nat → State
  | 0 => s
  | fuel + 1 =>
    match s.ringTurn with
    | some t => t.ringServe fuel
    | none => s

/-- Serve the rings. -/
def State.ringGo (s : State) : State :=
  s.ringServe ((s.fxp.descs.map fun d => d.todo.length).sum + s.fxp.descs.length + 1)

/-- Open a descriptor and begin to issue its pieces. -/
def State.startDesc (s : State) (d : RingDesc) (items : List RingItem) : State :=
  (s.openDesc { d with todo := items, issuing := true }).ringGo

/-- Start the descriptor at the front of a ring where it is a transfer of this kind (R215 to R219). -/
def State.runTransfer (s : State) (r kind : Nat) : State :=
  match s.ringSlot r with
  | some (i, b) =>
    if fieldLE b 0 1 = kind ∧ s.job.isSome ∧ s.hbmRuns ∧ s.mayStart r i b then
      let s := s.noteRange (s.slotAddr r i) 64
      let loc := fieldLE b 8 8
      let remote := fieldLE b 0x10 8
      let len := fieldLE b 0x18 8
      let d : RingDesc := { ring := r, index := i, kind, doneAddr := fieldLE b 0x30 8, doneVal := fieldLE b 0x38 8, slot := b }
      let whole := fun (ps : List (Nat × Nat)) => ps.map fun p => ({ off := p.1, len := p.2 } : RingItem)
      if !s.transferOk b then (s.ringRefuse r i b).ringSettle r ringFuel
      else if kind = 3 then
        let s := s.noteRange (fieldLE b 0x20 8) (2 * fieldLE b 4 2)
        match s.mcastList b with
        | some ids =>
          s.startDesc d ((transferPieces loc remote len).flatMap fun p =>
            (byGroup ids).map fun ms => { off := p.1, len := p.2, members := ms })
        | none => (s.ringRefuse r i b).ringSettle r ringFuel
      else if kind = 4 then
        let esz := etypeBytes (fieldLE b 2 1)
        s.startDesc d (whole (reducePieces remote len (if bitOf (fieldLE b 1 1) 1 then 4088 / esz * esz else 4096)))
      else s.startDesc d (whole (transferPieces loc remote len))
    else s
  | none => s

/-- Start the descriptor at the front of a ring where it is a collective of this kind: on the home it is admitted, then this
node's contributions are sent (R250, R251, R254, R255). -/
def State.runColl (s : State) (r kind : Nat) : State :=
  match s.ringSlot r, s.job with
  | some (i, b), some j =>
    if fieldLE b 0 1 = kind ∧ s.hbmRuns ∧ s.mayStart r i b then
      let s := s.noteRange (s.slotAddr r i) 64
      let home := fieldLE b 4 2
      let cn := fieldLE b 8 8
      let len := fieldLE b 0x28 4
      if !s.collOk j b then (s.ringRefuse r i b).ringSettle r ringFuel
      else
        let d : RingDesc := { ring := r, index := i, kind, doneAddr := fieldLE b 0x30 8, doneVal := fieldLE b 0x38 8, slot := b
                              cn, home, result := fieldLE b 0x18 8, len }
        let items := (upTo (fieldLE b 6 2)).flatMap fun p =>
          (contribPieces kind len).map fun q => ({ off := q.1, len := q.2, part := p } : RingItem)
        let s1 := { s with piaz := { s.piaz with issued := cn :: s.piaz.issued } }
        let s2 := s1.openDesc { d with todo := items, issuing := true }
        let s3 :=
          if home = s.nodeId then
            let s2 := s2.noteRange (fieldLE b 0x20 8) (8 + 2 * natLE (s2.peekN (fieldLE b 0x20 8) 4))
            match s2.memberRecord (fieldLE b 0x20 8) with
            | some (ids, n) => s2.admitColl cn kind (fieldLE b 2 1) len (fieldLE b 0x18 8) (fieldLE b 0x10 8) n ids
            | none => s2
          else s2
        s3.ringGo
    else s
  | _, _ => s

/-- A descriptor is ready to complete (R216, R219, R261). -/
def State.descReady (s : State) (d : RingDesc) : Bool :=
  let mine := fun (o : Owner) =>
    match o with
    | .ring r i _ => decide (r = d.ring) && decide (i = d.index)
    | .thread _ | .homeCopy _ | .notice _ | .ckpt _ _ | .rank | .restore _ | .relayRead _ | .relayWrite _ | .holdAt | .report => false
  let sent := s.fxp.reqs.all fun q => !mine q.owner
  if d.issuing then false
  else if d.kind < 0x10 then sent
  else
    let held := s.fxp.hold.any fun h => h.forHome && decide (h.req.src.toNat % 2 ^ 14 = s.nodeId) &&
      decide ((readColl 0 h.req.payload).elim 0 (·.cn) = d.cn)
    let got := if d.kind = ckReduce ∧ d.home ≠ s.nodeId then true
      else (resultPieces d.kind d.len).all fun p => d.received.contains p.1
    d.failed.isSome || (sent && !held && got)

/-! ### Commands -/

/-- TAIL_ATOMIC: an atomic has touched the TAIL word of a valid ring: the engine works its slots off (R214). -/
def execTailAtomic (ring : Fin 16) (s : State) : Outcome :=
  if s.fxp.woken.contains ring.val then
    let s1 := { s with fxp := { s.fxp with
      woken := s.fxp.woken.filter (· ≠ ring.val)
      active := if s.fxp.active.contains ring.val then s.fxp.active else s.fxp.active ++ [ring.val] } }
    .next ((s1.noteRange (s1.ringBase ring.val) 16).ringSettle ring.val ringFuel)
  else .next s

/-- PUT (R216). -/
def execRingPut (ring : Fin 16) (s : State) : Outcome := .next (s.runTransfer ring.val 1)

/-- GET (R216). -/
def execRingGet (ring : Fin 16) (s : State) : Outcome := .next (s.runTransfer ring.val 2)

/-- MCAST of a ring (R218). -/
def execRingMcast (ring : Fin 16) (s : State) : Outcome := .next (s.runTransfer ring.val 3)

/-- REDUCE (R217). -/
def execRingReduce (ring : Fin 16) (s : State) : Outcome := .next (s.runTransfer ring.val 4)

/-- ALLREDUCE (R250). -/
def execRingAllreduce (ring : Fin 16) (s : State) : Outcome := .next (s.runColl ring.val ckAllreduce)

/-- The collective REDUCE, whose result goes to the home alone (R250, R261). -/
def execRingCollReduce (ring : Fin 16) (s : State) : Outcome := .next (s.runColl ring.val ckReduce)

/-- BCAST (R250). -/
def execRingBcast (ring : Fin 16) (s : State) : Outcome := .next (s.runColl ring.val ckBcast)

/-- BARRIER (R250). -/
def execRingBarrier (ring : Fin 16) (s : State) : Outcome := .next (s.runColl ring.val ckBarrier)

/-- RING_DESC_DONE: the descriptor completes: DONE_VAL, or the value of its failure, goes to DONE_ADDR (R216, R219). -/
def execRingDescDone (ring : Fin 16) (index : Nat) (s : State) : Outcome :=
  match s.fxp.descs.find? fun d => decide (d.ring = ring.val) && decide (d.index = index) with
  | some d =>
    if s.descReady d then
      let s1 := { s with fxp := { s.fxp with descs := s.fxp.descs.filter (· ≠ d) } }
      match d.failed with
      | some c => .next ((s1.writeDone d.doneAddr (failValue c)).bump rFxpRingErr).ringGo
      | none => .next (s1.writeDone d.doneAddr d.doneVal).ringGo
    else .next s
  | none => .next s

end Sys2Proof.Machine
end

