-- ==== Sys2Proof/Machine/Response.lean ====
section
/-!
DEFINITION. The source side of a request's end: responses, resends, dead targets and their fallback, floor updates, and the end
of an ordered fold (R159, R193, R197, R200, R202, R208, R209, R211, R245).
-/

namespace Sys2Proof.Machine

/-! ### Responses (R193, R197) -/

/-- The global address that a request names (R190). -/
def globalAddr (target addr : Nat) : Word := BitVec.ofNat 64 (target % 2 ^ 14 * 2 ^ 44 + addr)

/-- The copies of a collective's result are all acknowledged: its home lets it go. -/
def State.homeDone (s : State) (cn : Nat) : State := (s.collRelease cn).homeGo

/-- A request of an agent ends well; `data` is what a RSP_DATA carries. -/
def State.ended (s : State) (r : OutReq) (data : List Byte) : State :=
  match r.owner with
  | .thread t =>
    match r.typ with
    | .load | .atomic => s.threadReply t data
    | .store | .atomicP | .blockAdd | .mcast | .coll | .objPut | .objGet | .floorUpd | .nodeReport => s
  | .ring _ _ loc => if r.typ = .load then s.store loc data else s
  | .homeCopy cn => s.homeDone cn
  | .ckpt id piece => s.ckptAck id piece
  | .restore off => s.restoreData off data
  | .relayRead off => s.relayValue off (natLE data)
  | .notice _ | .rank | .relayWrite _ | .holdAt | .report => s

/-- A request of an agent ends with a code: RSP_ERR, or the dead-target rule (`dead`), under which a thread's fault takes the
form of R129 and a posted request E_FENCE_TIMEOUT (R197, R211, R221, R245, R262, R288, R290). -/
def State.failed (s : State) (r : OutReq) (target code : Nat) (dead : Bool) : State :=
  let addr := globalAddr target r.req.addr.toNat
  match r.owner with
  | .thread t =>
    match r.typ with
    | .load | .atomic => s.threadFail t code addr dead
    | .store | .atomicP | .blockAdd | .mcast | .coll | .objPut | .objGet | .floorUpd | .nodeReport =>
      s.threadPosted t (if dead then eFenceTimeout else code) addr
  | .ring r i _ => s.failDesc r i code
  | .homeCopy cn => (if (s.collOf cn).elim false (·.dead) then s else s.bump rPiazResultErr).homeDone cn
  | .ckpt _ _ => s.ckptFail code
  | .restore _ => s.restoreError code
  | .relayRead _ | .relayWrite _ | .report | .holdAt => s.systemFailed r code
  | .notice _ | .rank => s

/-- Let waiting requests, threads and rings go on after an acknowledgement. -/
def State.goOn (s : State) : State := s.pump.resumeAll.ringGo

/-- The bytes of data that a request asks for (Tables 10-2 and 10-3); the rest of the last block is no part of them. -/
def OutReq.wants (r : OutReq) : Nat :=
  match r.typ with
  | .load => r.req.len.toNat
  | .atomic => if bitOf r.req.opf.toNat 4 then 8 else 4
  | .objGet => 4096
  | .store | .atomicP | .blockAdd | .mcast | .coll | .objPut | .floorUpd | .nodeReport => 0

/-- A response arrives (R193, R195, R197, R208); in BOOT the port discards it (R340). -/
def State.response (s : State) (p : Rsp) (err : Bool) : State :=
  if s.boot.booting then s.bump rFswDiscard
  else
  match s.matching p with
  | none => s.bump rFxpRspStale
  | some (r, c) =>
    let s1 := s.dropCopy r c true
    if err then ((s1.bump rFxpErrRsp).failed r c.1 p.err.toNat false).goOn else (s1.ended r (p.data.take r.wants)).goOn

/-- RSP_DATA (R193). -/
def execRspData (p : Rsp) (s : State) : Outcome := .next (s.response p false)

/-- RSP_ACK (R193). -/
def execRspAck (p : Rsp) (s : State) : Outcome := .next (s.response { p with data := [] } false)

/-- RSP_ERR (R197). -/
def execRspErr (p : Rsp) (s : State) : Outcome := .next (s.response p true)

/-! ### Resends and dead targets (R200, R209) -/

/-- The moments of the resends and of the end of the retry window after the first issue, in ns (R200). -/
abbrev resendAt : List Nat := [200000, 600000, 1400000]
abbrev retryWindow : Nat := 2000000

/-- REQUEST_RESEND: a copy without a response is resent, routed afresh (R200, R240). -/
def execRequestResend (tag : BitVec 13) (dst : BitVec 16) (s : State) : Outcome :=
  match s.outstanding tag.toNat dst.toNat with
  | some (r, c) =>
    match r.sent, resendAt[SMap.get 0 r.resent c.1]? with
    | some t0, some d =>
      if !r.owner.sys && (s.deadOf c.1).isSome then .next s
      else
        let k := SMap.get 0 r.resent c.1
        let s1 := { s with now := max s.now (t0 + d) }
        if !s1.pathTo c.1 r.cargo then .next (s1.targetLost r c).goOn
        else
          let r1 := { r with resent := SMap.set 0 r.resent c.1 (k + 1) }
          let s2 := { s1 with fxp := { s1.fxp with reqs := s1.fxp.reqs.map fun x => if x = r then r1 else x } }
          .next ((s2.sendCopy r1 (k + 1) c).bump rFxpRetries)
    | _, _ => .next s
  | none => .next s

/-- DEAD_TARGET: the retry window of a copy ends 2 ms after its first issue (R209). -/
def execDeadTarget (tag : BitVec 13) (dst : BitVec 16) (s : State) : Outcome :=
  match s.outstanding tag.toNat dst.toNat with
  | some (r, c) =>
    match r.sent with
    | some t0 => .next (({ s with now := max s.now (t0 + retryWindow) }).targetLost r c).goOn
    | none => .next s
  | none => .next s

/-- The threads that wait at a fence with a target in their points: the fault of R129. -/
def State.fenceFaults (s : State) (target : Nat) : State :=
  (s.threads.map (·.1)).foldl (fun u t =>
    let th := u.thread t
    match th.wait with
    | some (.fence op points) =>
      if points.any fun p => p.1 = target then
        let addr := match th.posted with | some (c, a) => if c = eFenceTimeout then a else op.addr | none => op.addr
        (u.onThread t fun x => { x with posted := none }).takeFault t eFenceTimeout (th.pc + 4) addr
      else u
    | some (.reply _) | some (.tag _) | some (.fold _) | some (.acquire _ _) | none => u) s

/-- DEAD_FALLBACK: FXP_DEAD_LIMIT has passed since the declaration without an ABORT: every job request to the target completes
without a response (R211). -/
def execDeadFallback (target : BitVec 16) (s : State) : Outcome :=
  match s.deadOf target.toNat with
  | some d =>
    if d.fellBack ∨ s.job.isNone then .next s
    else
      let s1 := { s with now := max s.now (d.since + s.rd rFxpDeadLimit * 1000000) }
      let s2 := { s1 with fxp := { s1.fxp with dead := s1.fxp.dead.map fun x => if x = d then { x with fellBack := true } else x } }
      let gone := s2.copiesTo false d.target
      let k := streamKey d.target false
      let reqs := s2.fxp.reqs.filterMap fun r =>
        if r.owner.sys then some r
        else
          let left := r.copies.filter fun c => c.1 ≠ d.target
          if left = [] then none else some { r with copies := left }
      let s3 := { s2 with fxp := { s2.fxp with
        reqs := reqs
        acked := SMap.set 0 s2.fxp.acked k (SMap.get 0 s2.fxp.next k)
        ackedAt := SMap.set 0 s2.fxp.ackedAt k s2.now
        marks := s2.fxp.marks.filter fun m => m.1 ≠ k } }
      let s4 := gone.foldl (fun t x => t.failed x.1 d.target eDeadTarget true) s3
      .next (s4.fenceFaults d.target).goOn
  | none => .next s

/-- FLOOR_UPD_SEND: ACKED of a stream has advanced and no request has carried it for 20 us (R202). -/
def execFloorUpdSend (dst : BitVec 14) (sys : Bool) (s : State) : Outcome :=
  let k := streamKey dst.toNat sys
  let a := SMap.get 0 s.fxp.acked k
  let q : Req := { opf := 0, flags := 0, orig := BitVec.ofNat 8 (1 + sys.toNat), src := BitVec.ofNat 16 s.nodeId, dst := dst.setWidth 16
                   tag := 0, sess := if sys then 0 else BitVec.ofNat 16 s.sess, seq := 0, ackFloor := BitVec.ofNat 32 a
                   age := 0, len := 0, addr := 0, payload := [] }
  if SMap.get 0 s.fxp.carried k = a ∨ (!sys && (s.deadOf dst.toNat).isSome) ∨ ¬ s.pathTo dst.toNat (.request 0x0A q) then .next s
  else
    let s1 := { s with
      now := max s.now (SMap.get 0 s.fxp.ackedAt k + 20000)
      fxp := { s.fxp with carried := SMap.set 0 s.fxp.carried k a } }
    .next (s1.sendReq sys dst.toNat 0x0A q)

/-! ### The end of a fold (R159) -/

/-- The atomic that an OPF names, with its bytes (Tables 7-8 and 10-2). -/
def amoOfOpf (opf : Nat) : Option (AmoOp × Nat) := (AmoOp.ofCode (opf % 16)).map fun o => (o, if bitOf opf 4 then 8 else 4)

/-- The operand and compare value of an atomic request (Table 10-3). -/
def amoArgs (op : AmoOp) (bytes : Nat) (b : List Byte) : Nat × Nat :=
  match op with
  | .cas => (fieldLE b bytes bytes, fieldLE b 0 bytes)
  | .swap | .add | .and | .or | .xor | .min | .max | .minu | .maxu | .fadd | .addp | .ldacq | .strel => (fieldLE b 0 bytes, 0)

/-- Perform the atomic of a request on local memory and answer it. -/
def State.amoRequest (s : State) (typ : ReqType) (q : Req) : State :=
  match amoOfOpf q.opf.toNat with
  | some (op, bytes) =>
    let (v, cmp) := amoArgs op bytes q.body
    let (old, s1) := s.amoLocal op (q.addr.toNat % 2 ^ 44) bytes v cmp
    ((s1.wakeRing (q.addr.toNat % 2 ^ 44)).bump64 rFxpReqIn).finish typ q eNone (if typ = .atomic then bytesLE bytes old else [])
  | none => s

/-- The CLOSE that ended a fold is performed and its reply returned. -/
def State.closeDone (s : State) : FoldBy → State
  | .thread t op =>
    match op with
    | .amo aop _ bytes _ addr v cmp =>
      let (old, s1) := s.amoLocal aop (addr.toNat % 2 ^ 44) bytes v cmp
      (s1.onThread t (op.deliver old)).complete t
    | _ => s
  | .request q posted copies =>
    let typ := if posted then ReqType.atomicP else .atomic
    copies.foldl (fun t c => (t.served typ c).getD t) (s.amoRequest typ q)
  | .homeReduction =>
    { s with piaz := { s.piaz with batch := s.piaz.batch.map fun b => { b with closed := true } } }

/-- ORDERED_FOLD_DONE: every adder has finished: the contributions are applied, the CLOSE is performed, and the next fold that
waits begins (R159). -/
def execOrderedFoldDone (s : State) : Outcome :=
  match s.msa.fold with
  | some f =>
    let s1 := (s.foldApply f).closeDone f.who
    match s1.msa.waiting with
    | (e, who) :: rest => .next ((({ s1 with msa := { s1.msa with waiting := rest } }).closeStart e who))
    | [] => .next s1
  | none => .next s

end Sys2Proof.Machine
end

