-- ==== Sys2Proof/Machine/Settings.lean ====
section
/-!
DEFINITION. The configuration flash: header, settings banks and records, their defaults, and the stages of start-up up to the
trained HBM (R149, R151, R186, R188, R225, R234, R237, R297, R340, R368 to R375, R394).
-/

namespace Sys2Proof.Machine

/-! ### Header and banks (R373, R374, Table 19-4) -/

/-- The CRC-32C of bytes, as stored. -/
def crcOf (b : List Byte) : Nat := (crc32c b).toNat

/-- The flash header is as Table 19-4 states. -/
def headerOk (h : List Byte) : Bool :=
  let body := bytesLE 4 0x4846424D ++ bytesLE 2 1 ++ bytesLE 2 0 ++ bytesLE 8 0x100000 ++ bytesLE 8 0x200000 ++
    bytesLE 4 0x100000 ++ bytesLE 4 0 ++ bytesLE 8 0x400000 ++ bytesLE 4 0x400000 ++ List.replicate 16 0
  decide (h.take 60 = body) && decide (fieldLE h 60 4 = crcOf body)

/-- The base of a settings bank. -/
def bankBase (n : Nat) : Nat := 0x100000 + 0x100000 * n

/-- The header of a settings bank checks; its GEN and REC_LEN. -/
def bankHeader (h : List Byte) : Option (Nat × Nat) :=
  let gen := fieldLE h 4 4
  let len := fieldLE h 8 4
  if fieldLE h 0 4 = 0x4B4E4253 ∧ 1 ≤ gen ∧ gen ≤ 0xFFFFFFFE ∧ len ≤ 0x100000 - 64 ∧ fieldLE h 60 4 = crcOf (h.take 60) then
    some (gen, len)
  else none

/-- A settings record: TYPE, body, and whether its CRC checks (R375). -/
structure SetRec where
  typ : Nat
  body : List Byte
  good : Bool
  deriving DecidableEq, Repr

/-- The records of a bank from an offset of its record area, up to the END record; none without one within REC_LEN. `at_` is the
flash address of the record area and `fuel` bounds the records. -/
def State.readRecords (s : State) (at_ len : Nat) : Nat → Nat → Option (List SetRec)
  | 0, _ => none
  | fuel + 1, off =>
    if len < off + 8 then none
    else
      let h := s.flashN (at_ + off) 8
      let n := fieldLE h 2 2
      if len < off + 8 + n then none
      else
        let body := s.flashN (at_ + off + 8) n
        let r : SetRec := ⟨fieldLE h 0 2, body, decide (fieldLE h 4 4 = crcOf (h.take 4 ++ body))⟩
        if r.typ = 0xFFFF ∧ r.good then some []
        else (s.readRecords at_ len fuel (off + roundUp (8 + n) 8)).map (r :: ·)

/-- A valid bank: its GEN and records. -/
def State.readBank (s : State) (n : Nat) : Option (Nat × List SetRec) :=
  match bankHeader (s.flashN (bankBase n) 64) with
  | some (gen, len) => (s.readRecords (bankBase n + 64) len (len / 8 + 1) 0).map (gen, ·)
  | none => none

/-- The bank in use: the valid bank of higher GEN, bank 0 where they are equal (R374). -/
def State.chooseBank (s : State) : Option (Nat × Nat × List SetRec) :=
  match s.readBank 0, s.readBank 1 with
  | some a, some b => if a.1 < b.1 then some (1, b) else some (0, a)
  | some a, none => some (0, a)
  | none, some b => some (1, b)
  | none, none => none

/-! ### Record bodies (Table 19-5) -/

/-- The body of a record type has its length and stated ranges. -/
def bodyOk (t : Nat) (b : List Byte) : Bool :=
  let u := fun (off n : Nat) => fieldLE b off n
  if t = 1 ∨ t = 2 ∨ t = 8 then decide (b.length = 8)
  else if t = 3 then decide (b.length = 4)
  else if t = 4 then
    decide (118 ≤ b.length) && decide (b.length = 118 + 4 * u 116 2) && decide (500 ≤ u 0 4) && decide (u 0 4 ≤ 2800)
  else if t = 5 then decide (b.length = 28)
  else if t = 6 then
    decide (b.length = 8) && decide (70 ≤ u 0 1) && decide (u 0 1 ≤ 102) &&
      (decide (u 1 1 = 0) || (decide (0x08 ≤ u 1 1) && decide (u 1 1 ≤ 0x77)))
  else if t = 7 then
    decide (b.length = 32) && decide (u 0 1 ≤ 1) && ((upTo 16).all fun i => decide (u (1 + i) 1 ≤ 31)) &&
      decide (1 ≤ u 20 1) && decide (u 20 1 ≤ 168) && decide (1 ≤ u 21 4) && decide (u 21 4 ≤ 1000000)
  else if t = 9 then
    decide (8 ≤ b.length) && decide (u 0 1 ≤ 64) && decide (b.length = 8 + 56 * u 0 1) &&
      ((upTo (u 0 1)).all fun i => decide (31 ≤ u (8 + 56 * i + 4) 1) && decide (u (8 + 56 * i + 4) 1 ≤ 47))
  else if t = 10 then decide (b.length = 3377)
  else false

/-- The body of the record that counts for a type (R375). -/
def recordOf (rs : List SetRec) (t : Nat) : Option (List Byte) :=
  (rs.find? fun r => r.typ = t && r.good && bodyOk t r.body).map (·.body)

/-- CFGF_REC_DEF: the types defaulted. -/
def defaulted (rs : List SetRec) : Nat :=
  (upTo 10).foldl (fun v i => if (recordOf rs (i + 1)).isSome then v else v + 2 ^ (i + 1)) 0

/-! ### Applying the records -/

/-- IDENTITY: the node's ID and the number of groups (R234, R237). -/
def State.applyIdentity (s : State) (b : List Byte) : State :=
  (s.wr rNodeId (0x8000 + fieldLE b 0 2 % 2 ^ 14)).wr rFswId (fieldLE b 0 2 % 2 ^ 14 + fieldLE b 2 2 % 2 ^ 9 * 2 ^ 16)

/-- BRIDGE_ROLE: the member it names, FXP_REPORT_NODE, and the mismatch with the strap (R243, Table 19-7). -/
def State.applyBridge (s : State) (b : List Byte) : State :=
  let m := fieldLE b 0 1 % 32
  let s1 := { s with boot := { s.boot with bridge := m, reportNode := fieldLE b 2 2 &&& 0xBFFF } }
  s1.setFlag rHbrRole 1 (s1.isBridge != decide (s1.flag rNodeId 15 ∧ s1.nodeId % 32 = m))

/-- POWER_ENVELOPE (R297, R302). -/
def State.applyEnvelope (s : State) (b : List Byte) : State :=
  let rail := fun (r off n : Nat) => fieldLE b (4 + 8 * r + off) n
  let p := { s.power with
    limitMax := fieldLE b 0 4
    maxCur := (upTo 14).map fun r => rail r 0 2
    budgetMax := (upTo 14).map fun r => rail r 2 2
    masks := (upTo 14).map fun r => rail r 4 1 % 16
    steps := (upTo (fieldLE b 116 2)).map fun i =>
      (fieldLE b (118 + 4 * i) 1, fieldLE b (119 + 4 * i) 1, fieldLE b (120 + 4 * i) 2) }
  (upTo 14).foldl (fun t r => t.wr rPwrBudget (rail r 2 2) 0 (4 * r)) (({ s with power := p }).wr rPwrLimit (fieldLE b 0 4))

/-- RAIL_MAP: the rails whose regulator is present (R299). -/
def State.applyRails (s : State) (b : List Byte) : State :=
  let m := (upTo 14).filterMap fun r =>
    let e := fieldLE b (2 * r) 2
    if bitOf e 15 then some (r, e % 128, bitsOf e 11 8) else none
  { s with power := { s.power with railMap := m } }

/-- MEMORY: mode, spare channels, margins, scrub period and error limit (R149, R164). -/
def State.applyMemory (s : State) (b : List Byte) : State :=
  let s1 := { s with boot := { s.boot with
    spared := decide (fieldLE b 0 1 = 1), spareCh := (upTo 16).map fun i => fieldLE b (1 + i) 1
    eyeWidth := fieldLE b 17 1, eyeHeight := fieldLE b 18 2 } }
  (s1.wrAll rHbmcScrubPeriod (fieldLE b 20 1) 16).wrAll rHbmcCeLimit (fieldLE b 21 4) 16

/-- SECURITY: another policy than JUMPER or SEAL acts as JUMPER (R317, R318). -/
def State.applySecurity (s : State) (b : List Byte) : State :=
  { s with boot := { s.boot with
    policy := if fieldLE b 0 1 = 2 then 2 else 1, sealCloses := bitOf (fieldLE b 1 1) 0 } }

/-- GATEWAY: the table that FAB takes up, and the hashes of the gateways' keys (R238, R326). -/
def State.applyGateways (s : State) (b : List Byte) : State :=
  (upTo (fieldLE b 0 1)).foldl (fun t i =>
    let e := 8 + 56 * i
    let g := fieldLE b e 1 % 64
    let w := 2 ^ 63 + fieldLE b (e + 4) 1 % 64 * 2 ^ 16 + fieldLE b (e + 2) 2 % 2 ^ 14
    { t with boot := { t.boot with
        gates := SMap.set 0 t.boot.gates g (BitVec.ofNat 64 w)
        gateKeys := SMap.set [] t.boot.gateKeys g ((b.drop (e + 8)).take 48) } }) s

/-- Apply one record type: the record's body, or nothing where Table 19-5's default is what reset left. -/
def State.applyRecord (s : State) (rs : List SetRec) (t : Nat) : State :=
  match recordOf rs t with
  | none => s
  | some b =>
    if t = 1 then s.applyIdentity b
    else if t = 2 then
      { s with boot := { s.boot with laneMap := (fieldLE b 0 2, fieldLE b 2 2, fieldLE b 4 1 % 2) } }
    else if t = 3 then s.applyBridge b
    else if t = 4 then s.applyEnvelope b
    else if t = 5 then s.applyRails b
    else if t = 6 then
      ({ s with boot := { s.boot with smbAddr := if fieldLE b 1 1 = 0 then 0x4C else fieldLE b 1 1 } }).wr rThmTarget (fieldLE b 0 1)
    else if t = 7 then s.applyMemory b
    else if t = 8 then s.applySecurity b
    else if t = 9 then s.applyGateways b
    else { s with boot := { s.boot with endorsement := b } }

/-- SETTINGS_READ_DONE: SFDP, the header and the banks have been read (R368, R373 to R375); stage LOG. The bridge's PCIe domain is
granted; another member lights its boot port (R340, R369). -/
def execSettingsReadDone (present : Bool) (s : State) : Outcome :=
  if s.boot.held ∨ s.fld rAonBootStat 2 0 ≠ 1 then .next s
  else
    let hdr := present && headerOk (s.flashN 0 64)
    let bank := if hdr then s.chooseBank else none
    let rs := (bank.map (·.2.2)).getD []
    let s1 := (s.wr rCfgfStat (4 * present.toNat + 8 * hdr.toNat)).wr rCfgfSize (if present then 65536 else 0)
    let s2 :=
      match bank with
      | some (n, gen, _) => (s1.wr rCfgfActive (n + 2)).wr rCfgfGen gen
      | none => s1
    let s3 := (upTo 10).foldl (fun t i => t.applyRecord rs (i + 1)) (s2.wr rCfgfRecDef (defaulted rs))
    let s4 := (if hdr then s3 else s3.freezeLog : State).setFld rAonBootStat 2 0 2
    let s5 := s4.syncGrants
    if s5.isBridge ∨ ¬ s5.flag rNodeId 15 then .next s5
    else .next ({ s5 with boot := { s5.boot with booting := true } }).lightBoot

/-! ### The ageing log at start (R186, R188) -/

/-- A record of the ageing log: its record, SEQ and POH; none where MAGIC or CRC fails or the KIND is reserved. -/
def readAge (b : List Byte) : Option (AgeRec × Nat × Nat) :=
  let kind := fieldLE b 4 1
  if fieldLE b 0 4 = 0x474F4C41 ∧ fieldLE b 60 4 = crcOf (b.take 60) ∧ 1 ≤ kind ∧ kind ≤ 5 then
    some (⟨kind, fieldLE b 6 2, fieldLE b 5 1, (b.drop 16).take 40⟩, fieldLE b 8 4, fieldLE b 12 4)
  else none

/-- The records of the ageing log, by their place in it: sector 0 and the ring. An erased record holds no listed byte. -/
def State.ageRecords (s : State) : List (Nat × AgeRec × Nat × Nat) :=
  let places := ((s.flash.filter fun e => decide (ageBase ≤ e.1) && decide (e.1 < ageBase + 0x400000)).map fun e =>
    (e.1 - ageBase) / 64).eraseDups
  places.filterMap fun n => (readAge (s.flashN (ageBase + 64 * n) 64)).map (n, ·)

/-- Insert a record among records that stand newest first. -/
def insertNewest (x : Nat × AgeRec × Nat × Nat) : List (Nat × AgeRec × Nat × Nat) → List (Nat × AgeRec × Nat × Nat)
  | [] => [x]
  | y :: ys => if y.2.2.1 ≤ x.2.2.1 then x :: y :: ys else y :: insertNewest x ys

/-- Keep the newest record of each KIND and UNIT, newest first. -/
def newest (xs : List (Nat × AgeRec × Nat × Nat)) : List (Nat × AgeRec × Nat × Nat) :=
  (xs.filter fun x => xs.all fun y => !(y.2.1.same x.2.1) || decide (y.2.2.1 ≤ x.2.2.1)).foldr insertNewest []

/-- AGE_LOG_READ_DONE: the newest record of each KIND and UNIT stands in the start table; stage TRAIN. -/
def execAgeLogReadDone (s : State) : Outcome :=
  if s.boot.held ∨ s.fld rAonBootStat 2 0 ≠ 2 then .next s
  else
    let xs := if s.logFrozen then [] else s.ageRecords
    let top := xs.foldl (fun m x => max m x.2.2.1) 0
    let ring := xs.filter fun x => decide (64 ≤ x.1)
    let topRing := ring.foldl (fun m x => max m x.2.2.1) 0
    let next := ((ring.find? fun x => x.2.2.1 = topRing).map fun x => (x.1 - 64 + 1) % (1023 * 64)).getD 0
    let poh := xs.foldl (fun m x => max m x.2.2.2) 0
    let g := { s.age with table := (newest xs).map (·.2.1), seq := top, next := next }
    let g1 := if s.poh < poh then { g with pohBase := poh, pohAt := s.now } else g
    .next (({ s with age := g1 }).setFld rAonBootStat 2 0 3)

/-! ### Training (R149 to R151, R180, R370) -/

/-- The newest CHANNEL record of a stack (R180). -/
def State.stackRecord (s : State) (st : Nat) : Option AgeRec :=
  s.age.table.find? fun r => decide (r.kind = 5) && decide (r.unit / 32 = st)

/-- The record that takes a channel out of service at start-up: the newest of its stack, where it names the channel (R180). -/
def State.lostRecord (s : State) (ch : Nat) : Option AgeRec := (s.stackRecord (ch / 32)).filter fun r => decide (r.unit = ch)

/-- A channel is out of service: it fails start-up training, or the newest CHANNEL record of its stack names it. -/
def State.unusable (s : State) (failed : List (Fin 512)) (ch : Nat) : Bool :=
  (failed.any fun f => f.val = ch) || (s.lostRecord ch).isSome

/-- The state that HBMCH_STAT shows for a channel after training (Table 8-7, log entry 42). -/
def State.trainedState (s : State) (failed : List (Fin 512)) (spared : Bool) (spare ch : Nat) : Nat :=
  if s.unusable failed ch then
    (match s.lostRecord ch with
     | some r => if fieldLE r.data 0 1 = 1 then chRetired else chFenced
     | none => chFenced)
  else if spared ∧ ch % 32 = spare then chSpare else chActive

/-- HBM_TRAIN_DONE: the stacks have left self-refresh and every channel is trained; mode and spare channels are fixed; stage LOAD `ms` after the rise of RESET_N, or
FAILED where a stack has more than one channel out of service. -/
def execHbmTrainDone (failed : List (Fin 512)) (ms : BitVec 16) (s : State) : Outcome :=
  if s.boot.held ∨ s.fld rAonBootStat 2 0 ≠ 3 then .next s
  else
    let lost := fun (st : Nat) => (stackChans st).filter (s.unusable failed)
    let spared := s.boot.spared || (upTo 16).any fun st => !(lost st).isEmpty
    let bad := (upTo 16).any fun st => decide (1 < (lost st).length)
    let s1 := { s with now := max s.now (s.boot.rose + ms.toNat * 1000000) }
    let s2 := (upTo 16).foldl (fun t st =>
      let spare := if !spared then 31 else ((lost st).head?.map (· % 32)).getD (s.boot.spareCh.getD st 31)
      let t1 := (t.setFlag rHbmcStat 0 false st).wr rHbmcMap (spared.toNat * 2 ^ 24 + (if (lost st).isEmpty then 0 else 2 * 2 ^ 16) + spare) st
      (stackChans st).foldl (fun u ch => u.setFld rHbmchStat 2 0 (s.trainedState failed spared spare ch) ch) t1) s1
    if bad then .next (s2.setFld rAonBootStat 2 0 5)
    else .next ((s2.wr rAonBootMs ms.toNat).setFld rAonBootStat 2 0 4)

end Sys2Proof.Machine
end

