-- ==== Sys2Proof/Machine/Firmware.lean ====
section
/-!
DEFINITION. Firmware images, lone restarts and held pages, the take-up of commands, and the log ring (R334, R337 to R349, R371).
-/

namespace Sys2Proof.Machine

/-! ### Processors (Tables 17-2 and 17-6) -/

/-- A processor besides its registers. -/
def State.fw (s : State) (i : Nat) : Fwp := SMap.get {} s.fws i

/-- Change a processor. -/
def State.onFw (s : State) (i : Nat) (f : Fwp → Fwp) : State := { s with fws := SMap.set {} s.fws i (f (s.fw i)) }

/-- STATE of a processor; while a load shows LOADING or VERIFYING, the state that its present image is in. -/
def State.fwState (s : State) (i : Nat) : Nat :=
  match s.fwLoad with
  | some l => if l.inst = i then l.prior else s.fld rFwpStat 3 0 i
  | none => s.fld rFwpStat 3 0 i

/-- Set that state. -/
def State.setFwState (s : State) (i v : Nat) : State :=
  match s.fwLoad with
  | some l => if l.inst = i then { s with fwLoad := some { l with prior := v } } else s.setFld rFwpStat 3 0 v i
  | none => s.setFld rFwpStat 3 0 v i

/-- The slot of an instance in the protected region; 6 is the log ring and 7 the staging slot (R337). -/
def State.slotBase (s : State) (i : Nat) : Nat := s.protBase + 0x800000 * i

/-- The pages that a processor owns: type and instance (Table 1-6). -/
def ownedPages (i : Nat) : List (Nat × Nat) :=
  (upTo 32).flatMap fun ty => if ownerOf ty = some i then (upTo (instCount ty)).map fun k => (ty, k) else []

/-- Set or clear HELD in every page of an owner, with HELD_MS; a change sets INT_STAT.HELD (R342, R357). -/
def State.holdPages (s : State) (i : Nat) (held : Bool) (ms : Nat) : State :=
  (ownedPages i).foldl (fun t x =>
    let v := t.hdr x.1 x.2 hHoldStat
    let u := t.setHdr x.1 x.2 hHoldStat (withBits (withBit v 31 held) 15 0 ms)
    if bitOf v 31 = held then u else u.setInt x.1 x.2 iHeld) s

/-! ### Image loads (R338, R339, R371) -/

/-- The largest image: 64 + 2 * 1 MiB + 3,373 bytes. -/
abbrev maxImage : Nat := 2100589

/-- A write of FWP_LOAD_CTRL.START. -/
def State.startLoad (s : State) (i : Nat) : State :=
  if s.boot.held then s
  else if s.fld rAonBootStat 2 0 ≠ 4 ∨ s.fwLoad.isSome then (s.refuse tyFwp i eState 0x094 3).setInt tyFwp i iDone
  else
    let l : FwLoad := { inst := i, host := s.rd rFwpLoadHost i, len := s.rd rFwpLoadLen i, prior := s.fld rFwpStat 3 0 i }
    let s1 := { s.setFld rFwpStat 3 0 1 i with fwLoad := some l }.useHbm (.fwLoad i)
    if maxImage < l.len then s1.refuseLoad eRange 0 else s1

/-- FWP_LOAD: the driver writes address, length and START. -/
def execFwpLoad (i : Fin 6) (host : Word) (len : BitVec 32) (s : State) : Outcome :=
  if s.boot.held then .next s
  else .next (((s.wr rFwpLoadHost host.toNat i.val).wr rFwpLoadLen len.toNat i.val).startLoad i.val)

/-- FWP_IMAGE_STAGED: the bytes that the host answered; fewer than the length, and the read has failed (R339). They wait
while the path to HBM wakes (R13). -/
def execFwpImageStaged (data : List Byte) (s : State) : Outcome :=
  match s.fwLoad with
  | none => .next s
  | some l =>
    if l.staged ∨ ¬ s.pathRuns then .next s
    else
      let s1 := if s.isBridge then s.emit (.hostRead l.host l.len) else s
      if data.length < l.len then .next (s1.refuseLoad eRange data.length)
      else
        let s2 := (s1.setFld rFwpStat 3 0 2 l.inst).store (s1.slotBase 7) (data.take l.len)
        .next { s2 with fwLoad := some { l with staged := true } }

/-- Why an image is refused (R339); 0 for one that is good. -/
def imageErr (img : List Byte) (role : Nat) : Nat :=
  let f := fieldLE img
  let code := f 0x0C 4
  let data := f 0x10 4
  let entry := f 0x14 4
  let body := 64 + code + data
  let msg := ascii "MBFW" ++ sha384 (img.take body)
  if f 0 4 ≠ 0x57464E41 ∨ f 4 2 ≠ 1 ∨ f 6 1 ≠ role ∨ (f 7 1 ≠ 0 ∧ role ≠ 4) ∨ code < 4 ∨ 2 ^ 20 < code ∨ code % 4 ≠ 0 ∨
      2 ^ 20 < data ∨ entry % 4 ≠ 0 ∨ code ≤ entry ∨ ((img.drop 0x18).take 40).any (· ≠ 0) then eFwImage
  else if img.length ≠ body + 3373 then eRange
  else if Config.verify 0 (Config.root 1 0) msg ((img.drop body).take 64) ∧
      Config.verify 1 (Config.root 1 1) msg (img.drop (body + 64)) then eNone
  else eSig

/-- The staged image. -/
def State.stagedImage (s : State) (l : FwLoad) : List Byte := s.peekN (s.slotBase 7) l.len

/-- A processor is halted: its private memories are wiped, HELD is set in its pages, and the restart counts; a hold that has not
ended goes on (R342). -/
def State.haltFw (s : State) (i cause pc : Nat) : State :=
  let since := if s.down i then (s.fw i).heldAt else s.now
  ((s.onFw i fun f => { f with cause := cause, pc := pc, haltAt := s.now, heldAt := since, imem := [], dmem := [] }).bump
    rFwpRestarts 1 i).holdPages i true 0

/-- The processor kicks its watchdog, which takes up FWP_WDOG_MS (R341). -/
def State.kickFw (s : State) (i : Nat) : State :=
  s.onFw i fun f => { f with kickAt := s.now, period := s.rd rFwpWdogMs i }

/-- The image is copied into the private memories, and the processor starts at ENTRY with a kick of its watchdog (R338, R342). -/
def State.runFw (s : State) (i : Nat) (img : List Byte) : State :=
  let code := fieldLE img 0xC 4
  ((s.onFw i fun f => { f with imem := (img.drop 64).take code, dmem := (img.drop (64 + code)).take (fieldLE img 0x10 4) }).setFwState
    i 3).kickFw i

/-- A newly loaded image starts: IMAGE_VER is shown, and SCH's numerics revision (R338, Table 17-1). -/
def State.startFw (s : State) (i : Nat) (img : List Byte) : State :=
  let s1 := (s.runFw i img).wr rFwpImageVer (fieldLE img 8 4) i
  if i = 4 then s1.setFld rNumFprint 7 0 (fieldLE img 7 1) else s1

/-- Steps 3 to 6 of R338: the running processor stops, the image is copied and measured, and the processor starts. -/
def State.installImage (s : State) (l : FwLoad) : State :=
  let img := s.stagedImage l
  let i := l.inst
  let (pc, s0) := s.free 44
  let s1 := if l.prior = 3 then s0.haltFw i 3 (pc % 2 ^ 32) else s
  let s2 := ({ s1 with fwLoad := none }).store (s1.slotBase i) img
  let h := sha384 img
  let s3 := (upTo 6).foldl (fun t w => t.wr rFwpMeasure (fieldLE h (8 * w) 8) i (8 * w)) s2
  let s4 := (s3.onFw i fun f => { f with len := img.length, recent := [] })
  let s5 := ((s4.startFw i img).setInt tyFwp i iDone).dropHbm (.fwLoad i)
  (s5.dropHbm (.fwRestart i)).noteSensors

/-- A load whose image is good goes on: while a TENANT session is open, another image than the measured one closes the session
first (R334). -/
def State.loadGo (s : State) : State :=
  match s.fwLoad with
  | some l =>
    if !l.verified ∨ s.sessState = 3 then s
    else if s.tenantOpen ∧ sha384 (s.stagedImage l) ≠ s.sec.measured.getD l.inst [] then s.startClose
    else s.installImage l
  | none => s

/-- FWP_VERIFY_DONE: the boot verifier has checked the header and both signatures (R338, R339). -/
def execFwpVerifyDone (s : State) : Outcome :=
  match s.fwLoad with
  | none => .next s
  | some l =>
    if !l.staged ∨ l.verified ∨ ¬ s.pathRuns then .next s
    else
      let e := imageErr (s.stagedImage l) l.inst
      if e ≠ eNone then .next (s.refuseLoad e 0)
      else .next { s with fwLoad := some { l with verified := true } }.loadGo

/-! ### Lone restarts (R341 to R343) -/

/-- A restart of cause 1, 2 or 4 of a processor that runs, or crashes while it restarts (chapter 17, after Table 17-3): the fourth
within 10 s leaves the processor in WAIT_IMAGE. -/
def State.restartFw (s : State) (i cause pc : Nat) : State :=
  if s.fwState i ≠ 3 ∧ (s.fwState i ≠ 4 ∨ cause = 1) then s
  else
    let recent := s.now :: (s.fw i).recent.filter fun t => decide (s.now < t + 10000000000)
    let s1 := (s.haltFw i cause pc).raise tyFwp i eFwWdog pc cause
    let s2 := s1.onFw i fun f => { f with recent := recent }
    let s3 :=
      if 4 ≤ recent.length then ((s2.setFwState i 5).dropHbm (.fwRestart i)).logPost 0xFF 0 0x003 i eFwWdog
      else (s2.setFwState i 4).useHbm (.fwRestart i)
    s3.noteSensors

/-- FWP_WATCHDOG: the period since the last kick is over: cause 1, with the program counter as a byte offset in the code. -/
def execFwpWatchdog (i : Fin 6) (pc : BitVec 32) (s : State) : Outcome :=
  if s.fwState i.val ≠ 3 then .next s
  else
    let f := s.fw i.val
    .next ({ s with now := max s.now (f.kickAt + f.period * 1000000) }.restartFw i.val 1 pc.toNat)

/-- FWP_CRASH: cause 2, or 4 for an uncorrectable error in the private memory. -/
def execFwpCrash (i : Fin 6) (memory : Bool) (pc : BitVec 32) (s : State) : Outcome :=
  .next (s.restartFw i.val (if memory then 4 else 2) pc.toNat)

/-- FWP_RESTART_HASH_DONE: the slot is compared with FWP_MEASURE; the processor starts, or waits for an image (R343). -/
def execFwpRestartHashDone (i : Fin 6) (s : State) : Outcome :=
  if s.fwState i.val ≠ 4 ∨ ¬ s.pathRuns then .next s
  else
    let img := s.peekN (s.slotBase i.val) (s.fw i.val).len
    let s1 := s.dropHbm (.fwRestart i.val)
    if sha384 img = s.measures.getD i.val [] then .next (s1.runFw i.val img).noteSensors
    else .next (((s1.setFwState i.val 5).raise tyFwp i.val eFwImage 0 0).logPost 0xFF 0 0x003 i.val eFwImage).noteSensors

/-! ### CFGF commands (R365, R376, Table 18-8) -/

/-- A CFGF command completes. -/
def State.cfgfDone (s : State) (err : Nat) : State :=
  let s1 := if err = ePresence then s.refuse tyCfgf 0 err 0x090 3 else s
  (s1.wr rCfgfStat (s1.rd rCfgfStat % 16 / 4 * 4 + 2 + 256 * err)).setInt tyCfgf 0 iDone

/-- The endorsement record verifies: it names this node, and both signatures hold (R321). -/
def State.endorsementOk (s : State) (b : List Byte) : Bool :=
  let msg := endorsed s.nodeId (s.sec.idPub 0) (s.sec.idPub 1)
  s.sec.hasIdentity && decide (fieldLE b 0 2 = s.nodeId) && Config.verify 0 (Config.root 0 0) msg ((b.drop 4).take 64) &&
    Config.verify 1 (Config.root 0 1) msg ((b.drop 68).take 3309)

/-- The inactive bank; bank 0 where none is in use. -/
def State.inactiveBank (s : State) : Nat := if s.flag rCfgfActive 1 ∧ ¬ s.flag rCfgfActive 0 then 1 else 0

/-- The checks of a commit on the flash as the PROGRAM would leave it: the header and every record of the new bank, a higher GEN,
and its endorsement (R376; log entry 54). -/
def State.commitErr (s : State) (n : Nat) : Nat :=
  match s.readBank n with
  | none => eRange
  | some (gen, rs) =>
    if s.flag rCfgfActive 1 ∧ gen ≤ s.rd rCfgfGen then eRange
    else if rs.any fun r => decide (1 ≤ r.typ) && decide (r.typ ≤ 10) && !(r.good && bodyOk r.typ r.body) then eRange
    else
      match recordOf rs 10 with
      | some b => if s.endorsementOk b then eNone else eSig
      | none => eNone

/-- The limits of PROGRAM and ERASE on a range: nothing beyond the flash, the active bank, the header sector or the ageing log,
and presence within the settings banks. -/
def State.flashErr (s : State) (a n : Nat) (absent : Bool) : Nat :=
  let r := (a, a + n)
  let bank := fun (k : Nat) => meets r (bankBase k, bankBase k + 0x100000)
  let active := if s.flag rCfgfActive 1 then bank (s.rd rCfgfActive % 2) else false
  if s.rd rCfgfSize * 1024 < a + n then eRange
  else if active ∨ meets r (0, 4096) ∨ meets r (ageBase, ageBase + 0x400000) then eLocked
  else if (bank 0 || bank 1) ∧ absent then ePresence
  else eNone

/-- SEC carries a CFGF command out. A PROGRAM that meets the header of the inactive bank is a commit; the node writes no reserved area
(R373, R376). -/
def State.cfgfRun (s : State) (c : FlashCmd) : State :=
  if c.op = 3 then (s.refuse tyCfgf 0 eBadcmd 0x090 3).cfgfDone eBadcmd
  else if c.op ≠ 2 ∧ (c.len = 0 ∨ 256 < c.len) then s.cfgfDone eRange
  else if c.op = 0 then
    if s.rd rCfgfSize * 1024 < c.addr + c.len then s.cfgfDone eRange
    else
      let bs := s.flashN c.addr c.len
      ((bs.zip (upTo bs.length)).foldl (fun t x =>
        let o := x.2 / 4 * 4
        t.wr rCfgfData (withBits (t.rd rCfgfData 0 o) (8 * (x.2 % 4) + 7) (8 * (x.2 % 4)) x.1.toNat) 0 o) s).cfgfDone eNone
  else
    let base := if c.op = 2 then c.addr / 4096 * 4096 else c.addr
    let e := s.flashErr base (if c.op = 2 then 4096 else c.len) c.absent
    if e ≠ eNone then s.cfgfDone e
    else if c.op = 2 then (s.flashErase base).cfgfDone eNone
    else
      let n := s.inactiveBank
      let t := s.flashProgram c.addr c.data
      if meets (c.addr, c.addr + c.len) (bankBase n, bankBase n + 64) then
        let e1 := t.commitErr n
        if e1 ≠ eNone then (if e1 = eSig then s.raise tyLcy 0 eSig 0 0 else s : State).cfgfDone e1
        else (t.setFlag rCfgfActive 2 true).cfgfDone eNone
      else if meets (c.addr, c.addr + c.len) (0x1000, 0x100000) ∨ meets (c.addr, c.addr + c.len) (0x300000, 0x400000) then
        s.cfgfDone eNone
      else t.cfgfDone eNone

/-- SEC takes the pending CFGF command up. -/
def State.cfgfTake (s : State) : State :=
  match s.sec.cfgf with
  | some c => if s.secUp then { s with sec := { s.sec with cfgf := none } }.cfgfRun c else s
  | none => s

/-- CFGF_DATA as bytes. -/
def State.cfgfData (s : State) (n : Nat) : List Byte := ((upTo 64).flatMap fun w => bytesLE 4 (s.rd rCfgfData 0 (4 * w))).take n

/-- A write of CFGF_CTRL; one that meets BUSY is discarded. -/
def State.cfgfWrite (s : State) (op : Nat) : State :=
  if s.boot.held ∨ s.flag rCfgfStat 0 then s
  else
    let len := s.rd rCfgfLen
    let c : FlashCmd :=
      { op := op, addr := s.rd rCfgfAddr, len := len, data := s.cfgfData (min len 256), absent := !s.sec.presence }
    ({ s with sec := { s.sec with cfgf := some c } }.wr rCfgfStat (s.rd rCfgfStat % 16 / 4 * 4 + 1)).cfgfTake

/-- Address and length of a command; a length outside its range is refused and keeps its value (R7). -/
def State.cfgfArgs (s : State) (a n : Nat) : State :=
  let s1 := s.wr rCfgfAddr a
  if 1 ≤ n ∧ n ≤ 256 then s1.wr rCfgfLen n else s1.refuse tyCfgf 0 eRange 0x08C 3

/-- READ. -/
def execFlashRead (a n : BitVec 32) (s : State) : Outcome :=
  if s.boot.held then .next s else .next ((s.cfgfArgs a.toNat n.toNat).cfgfWrite 0)

/-- PROGRAM: the data go into CFGF_DATA first. -/
def execFlashProgram (a n : BitVec 32) (data : List Byte) (present : Bool) (s : State) : Outcome :=
  if s.boot.held then .next s
  else
    let bs := data.take 256
    let s1 := (upTo ((bs.length + 3) / 4)).foldl (fun t w =>
      let k := min 4 (bs.length - 4 * w)
      let old := t.rd rCfgfData 0 (4 * w)
      t.wr rCfgfData (withBits old (8 * k - 1) 0 (fieldLE bs (4 * w) k)) 0 (4 * w)) (s.setPresence present)
    .next ((s1.cfgfArgs a.toNat n.toNat).cfgfWrite 1)

/-- ERASE. -/
def execFlashErase (a : BitVec 32) (present : Bool) (s : State) : Outcome :=
  if s.boot.held then .next s
  else .next ((((s.setPresence present).wr rCfgfAddr a.toNat)).cfgfWrite 2)

/-! ### Taking up duties (R151, R188, R237, R321, R330, R340, R342) -/

/-- PWR: guardbands and baselines from the start table (R188). -/
def State.pwrBack (s : State) : State :=
  let gb := s.age.table.foldl (fun m r => if r.kind = 2 then SMap.set 0 m r.unit (fieldLE r.data 0 2) else m) s.age.gb
  let s1 := (s.age.table.filter fun r => r.kind = 1).foldl (fun t r => t.wr rAgeBase (fieldLE r.data 0 4) (r.unit % 12)) s
  ({ s1 with age := { s1.age with gb := gb } }).showGb

/-- MEM: the map becomes valid; channels found failing at training are recorded; the start-up scrub begins; evacuations that
wait start. -/
def State.memBack (s : State) : State :=
  let s1 := (upTo 16).foldl (fun t st => t.setFlag rHbmcMap 31 true st) s
  let s2 := ((upTo 512).filter fun c => decide (s.chState c = chFenced) && (s.age.find 5 c).isNone &&
      decide ((s.chan c).recordDue = 0)).foldl (fun t c => t.chanRecord c 2) s1
  let s2 := (s2.cal.chans.filter fun e => decide (e.2.recordDue ≠ 0)).foldl (fun t e =>
    (t.putChan e.1 { t.chan e.1 with recordDue := 0 }).chanRecord e.1 e.2.recordDue) s2
  let s2 := (s2.cal.chans.map (·.1)).foldl (fun t c => (t.judgeAborts c).judgeUe c) s2
  let s3 := if s2.sec.startScrub then s2.useHbm .scrub else s2
  ((upTo 4).foldl State.startEvac s3).hraApply.homeGo

/-- Write an entry of the exit or gateway table, as FSW_TBL_SEL names it (R238). -/
def State.putTable (s : State) (sel : Nat) (v : Word) : State :=
  if sel / 2 ^ 28 = 0 then { s with sw := { s.sw with exits := SMap.set 0 s.sw.exits (sel % 2 ^ 16) v } }
  else { s with sw := { s.sw with gates := SMap.set 0 s.sw.gates (sel % 2 ^ 16) v } }

/-- FAB: at its first start the tables, the report node and the ports; at every start the reports that waited. -/
def State.fabBack (s : State) : State :=
  let s1 :=
    if (s.fw 2).ran then s
    else
      let t := { s with sw := { s.sw with gates := s.boot.gates, gateKeys := s.boot.gateKeys } }.fillExits
      ((t.wr rFxpReportNode t.boot.reportNode).setFlag rFswStat 0 true).bringUpPorts
  let s1 := (s1.sw.late.foldl (fun t x => t.putTable x.1 x.2) s1 : State)
  let s1 := (upTo 4).foldl State.laserBack { s1 with sw := { s1.sw with late := [] } }
  s1.hbr.waiting.foldl State.sendReport { s1 with hbr := { s1.hbr with waiting := [] } }

/-- SEC: the endorsement of the settings is verified, records of the ageing log that waited are written, ports in KEY begin
their exchange, and a seal rule, a close, a transfer and a CFGF command that waited go on. -/
def State.secBack (s : State) : State :=
  let b := s.boot.endorsement
  let s1 :=
    if (s.fw 3).ran ∨ b = [] then s
    else if s.endorsementOk b then { s with sec := { s.sec with endorsement := b } }.setFlag rLcyStat 4 true
    else s.raise tyLcy 0 eSig 0 0
  let s2 := (upTo 48).foldl (fun t p =>
    if t.portState p = poKey ∧ (t.port p).exchange = none then t.startExchange p else t) s1.ageFlush
  ((s2.sealAct.advanceClose).xferTake).cfgfTake

/-- LOG: drops since power-up are reported. -/
def State.logBack (s : State) : State :=
  if s.rd rDbgLogDrop = 0 then s else s.fwLog 5 1 0x060 (s.rd rDbgLogDrop) (s.rd rDbgLogOverwr)

/-- HELD_CLEAR: at the earliest `ms` after its halt, the processor has read the held state and takes up its duties (R342). -/
def execHeldClear (i : Fin 6) (ms : BitVec 16) (s : State) : Outcome :=
  if s.fwState i.val ≠ 3 ∨ !s.down i.val then .next s
  else
    let f := s.fw i.val
    let t := { s with now := max s.now (f.haltAt + ms.toNat * 1000000) }
    let s0 := t.holdPages i.val false (t.heldMs i.val)
    let s1 := if f.cause = 0 then s0 else s0.wr rFwpLastCause (f.cause * 2 ^ 16 + min 0xFFFF ((t.now - f.haltAt) / 1000000)) i.val
    let s2 := if f.cause = 0 then s1 else s1.logPost 0xFF 1 0x002 f.pc (f.cause + 256 * i.val)
    let s3 := s2.fwLog i.val 2 0x001 (s2.rd rFwpImageVer i.val) (s2.rd rFwpRestarts i.val)
    let s4 :=
      match i with
      | 0 => s3.pwrBack
      | 1 => s3.memBack
      | 2 => s3.fabBack
      | 3 => s3.secBack
      | 4 => s3.schBack.advanceClose
      | _ => s3.logBack
    .next (((s4.onFw i.val fun g => { g with ran := true, cause := 0 }).loadGo).noteSensors)

/-- HBM_SCRUB_DONE: MEM has filled HBM but for the protected region: the start-up scrub, or stage 4 of a close (R330, Table
16-4). -/
def execHbmScrubDone (s : State) : Outcome :=
  if !s.memUp ∨ ¬ s.pathRuns then .next s
  else if s.sec.startScrub ∧ s.flag rHbmcMap 31 then
    let s1 := ({ s with sec := { s.sec with startScrub := false } }.zeroRange 0 s.protBase).dropHbm .scrub
    .next ((s1.setFlag rNodeStat 7 true).setFlag rSecStat 9 false).noteSensors
  else if s.sec.closing = .scrub then
    let s1 := ({ s with sec := { s.sec with closing := .last } }.zeroRange 0 s.protBase).dropHbm .scrub
    .next (((s1.setFlag rSecStat 9 false).advanceClose).loadGo)
  else .next s

/-- CMD_TAKE_UP: the owner, back from a restart, takes up the command that waits: 0 HIF, 1 SEC, 2 LCY (R345, R346). -/
def execCmdTakeUp (which : Fin 3) (s : State) : Outcome :=
  match which with
  | 0 => .next s.hifTake
  | 1 => .next s.secTake
  | _ => .next s.lcyTake

/-! ### The log ring (R337, R348, R349) -/

/-- LOG_DRAIN: LOG writes the oldest queued entry into the ring, once the ring writer and the path to HBM run (R13). -/
def execLogDrain (s : State) : Outcome :=
  match s.log.queue with
  | [] => .next s
  | e :: rest =>
    if s.down 5 ∨ ¬ (s.pathRuns ∧ s.domainsRun [24]) then .next s
    else
      let h := s.rd rDbgLogHead
      let s1 := s.store (s.slotBase 6 + 32 * (h % 262144)) (bytesLE 4 (h % 2 ^ 32) ++ e)
      let s2 := ({ s1 with log := { s1.log with queue := rest } }).wr rDbgLogHead (h + 1)
      let s3 :=
        if s.rd rDbgLogTail + 262144 ≤ h then (s2.wr rDbgLogTail (h + 1 - 262144)).bump rDbgLogOverwr else s2
      if rest.isEmpty then
        .next ((s3.setHdr tyDbg 0 hPageCtrl (withBit (s3.hdr tyDbg 0 hPageCtrl) 0 false)).dropHbm .log)
      else .next s3

/-- LOG_READ: the host reads DBG_LOG_DATA; SMBus reaches no such register (R349, R395). -/
def execLogRead (n : Fin 4) (by_ : Requester) (s : State) : Outcome :=
  match by_ with
  | .host => .next ((s.emit (.value (s.readPage tyDbg 0 (0x98 + 8 * n.val) 8))).readDone tyDbg (0x98 + 8 * n.val) 8)
  | .smbus => .next s

end Sys2Proof.Machine
end

