-- ==== Sys2Proof/Machine/RegAccess.lean ====
section
/-!
DEFINITION. Accesses to the register window: decode, levels, locks, broadcasts, the rule of each writable register, refusals,
and the relay of the group bridge (R4, R7, R33, R213, R238, R245, R257, R308, R352 to R362).
-/

namespace Sys2Proof.Machine

/-! ### Originators and refusals (R356) -/

/-- Originators: ORIG 2 and 3 of Table 10-1, SMBus and JTAG. -/
abbrev orgFirmware : Nat := 2
abbrev orgHost : Nat := 3
abbrev orgSmbus : Nat := 8
abbrev orgJtag : Nat := 9

/-- The originator of a requester. -/
def orgOf : Requester → Nat
  | .host => orgHost
  | .smbus => orgSmbus

/-- Apply a state change, or refuse an access at an offset of a page: the state and the code. -/
def State.refused (s : State) (ty inst code off org : Nat) : State × Nat := (s.refuse ty inst code off org, code)

/-- Nothing refused. -/
def State.done (s : State) : State × Nat := (s, eNone)

/-! ### The header (Table 18-2) -/

/-- The defined bits of INT_STAT and INT_EN in a page. -/
def intMask (ty : Nat) : Nat := 0x1D + (if ty = tySch then 2 else 0) + (if ty = tyHbr then 0x20 else 0)

/-- A life-cycle state that keeps the expert level closed (Table 16-1, R358). -/
def State.expertShut (s : State) : Bool := decide (s.sec.lifeCycle = 2) || decide (s.sec.lifeCycle = 4)

/-- A port whose ENABLE changes: set, it lights up; clear, it goes dark (Table 11-6). -/
def State.portEnable (s : State) (p : Nat) (on : Bool) : State :=
  if on then s.lightPort p else if s.portState p = poDark then s else s.enterPort p poDark 0

/-- A write of PAGE_CTRL (Table 18-3). -/
def State.writeCtrl (s : State) (ty inst v org : Nat) : State × Nat :=
  if bitOf v 2 && s.expertShut then s.refused ty inst eLocked hPageCtrl org
  else
    let old := s.hdr ty inst hPageCtrl
    let own := ty = tyDbg ∨ ty = tyFport
    let enable := if own then bitOf v 0 else bitOf old 0
    let s1 := s.setHdr ty inst hPageCtrl (withBit (withBit (withBit old 0 enable) 1 (bitOf old 1 || bitOf v 1)) 2 (bitOf v 2))
    let s2 := if ty = tyFport ∧ enable ≠ bitOf old 0 then s1.portEnable inst enable else s1
    (if ty = tyDbg then s2.syncGrants else s2).done

/-- A write of the four bytes at an offset of the header; what is not writable is ignored. -/
def State.writeHeader (s : State) (ty inst off v org : Nat) : State × Nat :=
  if off = hPageCtrl then s.writeCtrl ty inst v org
  else if off = hIntStat then
    (s.setHdr ty inst hIntStat (s.hdr ty inst hIntStat - (s.hdr ty inst hIntStat &&& v &&& intMask ty))).done
  else if off = hIntEn then (s.intEdge (s.setHdr ty inst hIntEn (v &&& intMask ty))).done
  else if off = hIntForce then
    if bitOf (s.hdr ty inst hPageCtrl) 2 then (s.setInt ty inst (v &&& intMask ty)).done
    else s.refused ty inst eLocked hIntForce org
  else if off = hErrCode then
    (if v % 256 = 0 then ((s.setHdr ty inst hErrCode 0).setHdr ty inst hErrInfo0 0).setHdr ty inst hErrInfo1 0 else s : State).done
  else if off = hScratch then (s.setHdr ty inst hScratch v).done
  else s.done

/-! ### Registers that every instance takes at once (R157, R213, R257, R361) -/

/-- MSA_OREG0 to 15, FXP_RING0 to 15 and the PIAZ_HRA registers. -/
def allOrNone (ty off : Nat) : Bool :=
  (decide (ty = tyMsa) && decide (0x100 ≤ off) && decide (off < 0x300)) ||
    (decide (ty = tyFxp) && decide (0x200 ≤ off) && decide (off < 0x400)) ||
    (decide (ty = tyPiaz) && decide (0x0C0 ≤ off) && decide (off < 0x0D4))

/-- A word of an ordered-region entry: 0 BASE with VALID, 1 LIMIT, 2 LOG_BASE, 3 LOG_LIMIT. -/
def State.writeOreg (s : State) (e w v : Nat) : Nat × State :=
  let new := if w = 0 then bitsOf v 43 0 + (bitOf v 63).toNat * 2 ^ 63 else bitsOf v 43 0
  let word := fun (k : Nat) => if k = w then bitsOf new 43 0 else s.oregWord e k
  let valid := if w = 0 then bitOf v 63 else s.oregValid e
  let busy := s.msa.log.any fun x => decide (x.oreg = e)
  if e = 15 then (eLocked, s)
  else if s.oregValid e ∧ new ≠ s.rd rMsaOreg 0 (32 * e + 8 * w) ∧ busy then (eState, s)
  else if ¬ s.oregFits valid e (word 0) (word 1) (word 2) (word 3) then (eRange, s)
  else (eNone, s.oregPut e w new)

/-- A ring that may be valid: aligned, LOG2_N from 6 to 16, in open HBM, apart from every other valid ring (R213). -/
def State.ringFits (s : State) (r base log2 : Nat) : Bool :=
  let size := fun (n : Nat) => 64 + 64 * 2 ^ n
  decide (base % 4096 = 0) && decide (6 ≤ log2) && decide (log2 ≤ 16) && s.inOpenHbm base (size log2) &&
    (upTo 16).all fun k => decide (k = r) || !bitOf (s.rd rFxpRing 0 (32 * k)) 63 ||
      !meets (base, base + size log2) (s.ringBase k, s.ringBase k + size (s.rd rFxpRing 0 (32 * k + 8) % 32))

/-- A word of a ring entry: 0 BASE with VALID, 1 LOG2_N. -/
def State.writeRing (s : State) (r w v : Nat) : Nat × State :=
  let new := if w = 0 then bitsOf v 43 0 + (bitOf v 63).toNat * 2 ^ 63 else if w = 1 then v % 32 else 0
  let base := if w = 0 then bitsOf v 43 0 else s.ringBase r
  let log2 := if w = 1 then v % 32 else s.rd rFxpRing 0 (32 * r + 8) % 32
  let valid := if w = 0 then bitOf v 63 else bitOf (s.rd rFxpRing 0 (32 * r)) 63
  if valid ∧ ¬ s.ringFits r base log2 then (eRange, s) else (eNone, s.wr rFxpRing new 0 (32 * r + 8 * w))

/-- A PIAZ_HRA register: the area stays in open HBM, and its region and log apart from every other entry (R257). -/
def State.writeHra (s : State) (off v : Nat) : Nat × State :=
  let base := if off = 0x0C0 then bitsOf v 43 0 else bitsOf (s.rd rPiazHraBase) 43 0
  let mib := fun (o : Nat) (r : Reg) => (if off = o then v % 2 ^ 32 else s.rd r) * 0x100000
  let res := mib 0x0C8 rPiazHraRes
  let log := mib 0x0CC rPiazHraLog
  let stg := mib 0x0D0 rPiazHraStg
  if s.oregValid 15 ∧ s.msa.log.any fun x => decide (x.oreg = 15) then (eState, s)
  else if base % 2 ^ 21 ≠ 0 ∨ res % 2 ^ 21 ≠ 0 ∨ log % 2 ^ 21 ≠ 0 ∨ stg % 2 ^ 21 ≠ 0 ∨ ¬ s.inOpenHbm base (res + log + stg) then
    (eRange, s)
  else if res ≠ 0 ∧ log ≠ 0 ∧ ¬ s.oregFits true 15 base (base + res) (base + res) (base + res + log) then (eRange, s)
  else
    let s1 := s.wr ⟨tyPiaz, off⟩ (if off = 0x0C0 then bitsOf v 43 0 else v % 2 ^ 32)
    (eNone, s1.hraApply.homeGo)

/-- A broadcast write of one of these registers, in READY and HOLD. -/
def State.writeAll (s : State) (ty off v org : Nat) : State × Nat :=
  if s.jobState ≠ stReady ∧ s.jobState ≠ stHold then s.refused ty 0 eState off org
  else
    let (e, s1) :=
      if ty = tyMsa then s.writeOreg ((off - 0x100) / 32) ((off - 0x100) / 8 % 4) v
      else if ty = tyFxp then s.writeRing ((off - 0x200) / 32) ((off - 0x200) / 8 % 4) v
      else s.writeHra off v
    if e = eNone then s1.done else s.refused ty 0 e off org

/-! ### Basic-level registers -/

/-- The running step is, or is no longer, the last one before a hold (DRAINING of Table 2-10). -/
def State.refreshDrain (s : State) : State :=
  if s.sched.stepping ∧ (s.jobState = stRunning ∨ s.jobState = stDraining) then
    s.setJobState (if s.lastStep then stDraining else stRunning)
  else s

/-- HBR_RPT_POP: the oldest report is removed (R246). -/
def State.rptPop (s : State) : State :=
  ({ s with hbr := { s.hbr with queue := s.hbr.queue.drop 1 } }).wr rHbrRptCount (s.hbr.queue.length - 1)

/-- A write of FSW_TBL_DATA: IDLE only; exit entries in explicit wiring only; while FAB is down the tables are frozen and the
entry waits (R235, R237, R238, R344). -/
def State.writeTable (s : State) (v : Nat) (org : Nat) : State × Nat :=
  let sel := s.rd rFswTblSel
  let t := sel / 2 ^ 28
  let i := sel % 2 ^ 16
  if 1 < t then s.refused tyFsw 0 eBadcmd 0x0A0 org
  else if s.jobState ≠ stIdle then s.refused tyFsw 0 eState 0x0A0 org
  else if t = 0 ∧ ¬ s.flag rFswRouteCtrl 1 then s.refused tyFsw 0 eLocked 0x0A0 org
  else if (t = 0 ∧ 512 ≤ i) ∨ (t = 1 ∧ 64 ≤ i) then s.refused tyFsw 0 eRange 0x0A0 org
  else
    let m := if t = 0 then 0x9F3F9F3F9F3F9F3F else 0x80000000003F3FFF
    let w := BitVec.ofNat 64 (v &&& m)
    (if s.down 2 then { s with sw := { s.sw with late := s.sw.late ++ [(sel, w)] } } else s.putTable sel w : State).done

/-- A write-only register. -/
def State.writeCommand (s : State) (ty inst off v : Nat) : State × Nat :=
  if ty = tySec then (if off = 0x084 then s.secWrite (v % 256) else s.xferWrite (v % 4) (bitOf v 4) : State).done
  else if ty = tyLcy then (s.lcyWrite (v % 8)).done
  else if ty = tyFwp then (if bitOf v 0 then s.startLoad inst else s : State).done
  else if ty = tySch then
    if off = 0x0B0 then s.hostBeat.done
    else if off = 0x0E0 then (s.setEvents (s.sched.events.drop 1)).done
    else s.seedWrite ((off - 0x100) / 8) v
  else if ty = tyCfgf then (s.cfgfWrite (v % 4)).done
  else if ty = tyHbr then s.rptPop.done
  else if ty = tyFport then (if bitOf v 0 then s.portRetry inst else s : State).done
  else s.done

/-- A value that a page refuses besides its range: the code (R211, R237, R241, R297, R308). -/
def State.writeErr (s : State) (ty off v : Nat) : Nat :=
  if ty = tyPwr ∧ off = 0x084 then (if 500 ≤ v ∧ v ≤ s.power.limitMax then eNone else eRange)
  else if ty = tyPwr ∧ 0x180 ≤ off then (if v ≤ s.power.budgetMax.getD ((off - 0x180) / 4) 0 then eNone else eRange)
  else if ty = tyFport ∧ off = 0x0D4 then
    if s.jobState ≠ stIdle then eState else if s.flag rFswRouteCtrl 1 then eNone else eLocked
  else if ty = tyFsw ∧ off = 0x084 then (if bitOf v 1 ≠ s.flag rFswRouteCtrl 1 ∧ s.jobState ≠ stIdle then eState else eNone)
  else if ty = tyFxp ∧ off = 0x088 then
    if s.jobState = stIdle ∨ s.jobState = stReady ∨ s.jobState = stHold then eNone else eState
  else eNone

/-- What a written setting does at once. -/
def State.wrote (s : State) (ty off : Nat) : State :=
  if ty = tyThm then s.noteSensors
  else if ty = tySch ∧ off = 0x0A0 then s.refreshDrain
  else if ty = tyFsw ∧ off = 0x084 then s.setFlag rFswStat 1 (s.flag rFswRouteCtrl 0)
  else s

/-- Write one register that starts at an offset: `v` is the value for its bytes; `node` names the node behind an ORIG 2 store. -/
def State.writeReg (s : State) (r : RegRow) (ty inst off v org : Nat) (node : Option Nat) : State × Nat :=
  match r.acc with
  | .ro => s.done
  | .wo => s.writeCommand ty inst off v
  | .w1c =>
    let key := regKey ty inst off
    let old := (s.regGet key).toNat
    (s.regSet key (BitVec.ofNat 64 (old - (old &&& v &&& r.mask)))).done
  | .rw =>
    let key := regKey ty inst off
    let new := ((s.regGet key).toNat &&& (2 ^ 64 - 1 - r.mask)) ||| (v &&& r.mask)
    if r.hi ≠ 0 ∧ (v &&& r.mask < r.lo ∨ r.hi < v &&& r.mask) then s.refused ty inst eRange off org
    else if ty = tyHif ∧ off = 0x080 then (s.hifWrite v).done
    else if ty = tySch ∧ off = 0x090 then s.holdAtWrite node v
    else if ty = tyFsw ∧ off = 0x0A0 then s.writeTable v org
    else
      let e := s.writeErr ty off (v &&& r.mask)
      if e ≠ eNone then s.refused ty inst e off org
      else ((s.regSet key (BitVec.ofNat 64 new)).wrote ty off).done

/-- The registers that a write of a basic-level page meets: row, offset and value of each; none where a 64-bit register is met
in part (R353). -/
def writeHits (ty off bytes v : Nat) : Option (List (RegRow × Nat × Nat)) :=
  let word := fun (o : Nat) (x : Nat) =>
    match coverRow ty o with
    | none => some []
    | some r =>
      if r.bytes = 8 then none
      else
        let b := r.off + (o - r.off) / r.bytes * r.bytes
        some [(r, b, x % 2 ^ 32)]
  match coverRow ty off with
  | some r =>
    if r.bytes = 8 ∧ bytes = 8 ∧ (off - r.off) % 8 = 0 then some [(r, off, v)]
    else if bytes = 8 then
      (match word off (v % 2 ^ 32), word (off + 4) (v / 2 ^ 32) with
       | some a, some b => some (a ++ b)
       | _, _ => none)
    else word off v
  | none => if bytes = 8 then word (off + 4) (v / 2 ^ 32) else some []

/-- A write to a page that exists: `field` is the instance field of a broadcast. -/
def State.writePage (s : State) (ty inst off bytes v org : Nat) (field : Option Nat) (node : Option Nat) : State × Nat :=
  if (bytes ≠ 4 ∧ bytes ≠ 8) ∨ off % 4 ≠ 0 ∨ 4096 < off + bytes then s.refused ty inst eRange off org
  else if org = orgSmbus then s.refused ty inst eLocked off org
  else if 0x400 ≤ off then
    if !hasExpert ty then s.done
    else if s.expertShut then s.refused ty inst eLocked off org
    else if !s.domainUp ty inst && !(decide (ty = tyHbmch) && Config.scanStart ty off v) then s.refused ty inst eState off org
    else if !bitOf (s.hdr ty inst hPageCtrl) 2 then s.refused ty inst eLocked off org
    else if Config.scanStart ty off v then
      let (s1, e) := s.startScan ty inst
      if e = eNone then s1.done else s.refused ty inst e off org
    else s.done
  else if off < 0x80 then
    let (s1, e1) := s.writeHeader ty inst off (v % 2 ^ 32) org
    if bytes = 4 then (s1, e1)
    else if off + 4 < 0x80 then
      let (s2, e2) := s1.writeHeader ty inst (off + 4) (v / 2 ^ 32) org
      (s2, if e1 = eNone then e2 else e1)
    else (s1, e1)
  else
    match writeHits ty off bytes v with
    | none => s.refused ty inst eRange off org
    | some hits =>
      hits.foldl (fun (acc : State × Nat) h =>
        let (r, o, x) := h
        let (t, e) :=
          if allOrNone ty o then
            (if field = some 0 then acc.1.writeAll ty o x org else acc.1.refused ty 0 eLocked o org)
          else acc.1.writeReg r ty inst o x org node
        (t, if acc.2 = eNone then e else acc.2)) (s, eNone)

/-! ### The window (Table 18-1, R353, R354, R361, R362) -/

/-- The instances that a broadcast selects: all, or those of a group mask that the type has. -/
def State.selected (s : State) (ty field : Nat) : List Nat :=
  if field = 0 then upTo (instCount ty)
  else
    let at_ := 48 * (field - 1)
    let base := s.rd rNodeBgrp 0 at_ % 512
    (upTo 256).filterMap fun j =>
      if bitOf (s.rd rNodeBgrp 0 (at_ + 16 + j / 32 * 4)) (j % 32) ∧ base + j < instCount ty then some (base + j) else none

/-- A write at a window offset: the state, and the code of the first refusal. -/
def State.winWrite (s : State) (a bytes v org : Nat) (node : Option Nat := none) : State × Nat :=
  let ty := winType a
  let inst := winInst a
  let off := winOff a
  if !winExists a then s.refused tyNode 0 eRange (a % 2 ^ 27) org
  else if !winBcast a then s.writePage ty inst off bytes v org none node
  else if 0x80 ≤ off ∧ allOrNone ty off then s.writePage ty 0 off bytes v org (some inst) node
  else
    (s.selected ty inst).foldl (fun (acc : State × Nat) i =>
      let (t, e) := acc.1.writePage ty i off bytes v org (some inst) node
      (t, if acc.2 = eNone then e else acc.2)) (s, eNone)

/-- A read at a window offset: the value, the state and the code. An expert offset that reports the last margin scan reads its width or
height (R182), any other a free value (log entry 45). -/
def State.winRead (s : State) (a bytes org : Nat) : Nat × State × Nat :=
  let ty := winType a
  let inst := winInst a
  let off := winOff a
  let no := fun (t : State × Nat) => (0, t.1, t.2)
  if !winExists a then no (s.refused tyNode 0 eRange (a % 2 ^ 27) org)
  else if winBcast a then no (s.refused tyNode 0 eBcastRead (a % 2 ^ 27) org)
  else if (bytes ≠ 4 ∧ bytes ≠ 8) ∨ off % 4 ≠ 0 ∨ 4096 < off + bytes then no (s.refused ty inst eRange off org)
  else if 0x400 ≤ off then
    if !hasExpert ty then (0, s, eNone)
    else if s.expertShut then no (s.refused ty inst eLocked off org)
    else if !s.domainUp ty inst then no (s.refused ty inst eState off org)
    else
      let eye := if ty = tyHbmch then (s.chan inst).eye.getD (0, 0) else if ty = tyFport then SMap.get (0, 0) s.cal.linkEyes inst else (0, 0)
      if (ty = tyHbmch ∨ ty = tyFport) ∧ Config.scanReport ty off = 1 then (eye.1 % 2 ^ (8 * bytes), s, eNone)
      else if (ty = tyHbmch ∨ ty = tyFport) ∧ Config.scanReport ty off = 2 then (eye.2 % 2 ^ (8 * bytes), s, eNone)
      else
        let (v, s1) := s.free (2 ^ 32 + regKey ty inst off)
        (v % 2 ^ (8 * bytes), s1, eNone)
  else (readPageIn s.outerView ty inst off bytes, s.readDone ty off bytes, eNone)

/-! ### Commands -/

/-- REGISTER_WRITE: a write through the window, single or broadcast. -/
def execRegisterWrite (by_ : Requester) (a : BitVec 27) (bytes : BitVec 8) (v : Word) (s : State) : Outcome :=
  if s.boot.held then .next s
  else .next (s.winWrite a.toNat bytes.toNat (v.toNat % 2 ^ (8 * bytes.toNat)) (orgOf by_)).1

/-- A read by a requester: the host driver gets its value; SMBus reaches no register that a read does not refuse (R395). -/
def State.readBy (s : State) (by_ : Requester) (a bytes : Nat) : State :=
  let (v, s1, e) := s.winRead a bytes (orgOf by_)
  match by_ with
  | .host => s1.emit (.value v)
  | .smbus => if e = eNone then s else s1

/-- BCAST_READ: a read with BCAST set. -/
def execBcastRead (by_ : Requester) (a : BitVec 27) (s : State) : Outcome :=
  .next (if s.boot.held then s else s.readBy by_ (withBit a.toNat 26 true) 4)

/-- REGISTER_READ_REFUSED: a read of a reserved type or instance, of a closed expert level, or of a bad size; any other read
answers its value. -/
def execRegisterReadRefused (by_ : Requester) (a : BitVec 27) (bytes : BitVec 8) (s : State) : Outcome :=
  .next (if s.boot.held then s else s.readBy by_ a.toNat bytes.toNat)

/-- ERR_CODE_CLEAR: the host writes 0 to ERR_CODE of the page at a window offset. -/
def execErrCodeClear (page : BitVec 27) (s : State) : Outcome :=
  .next (if s.boot.held then s else (s.winWrite (page.toNat / 4096 * 4096 + hErrCode) 4 0 orgHost).1)

/-- HBR_RPT_POP. -/
def execHbrRptPop (s : State) : Outcome := .next (if s.boot.held then s else s.rptPop)

/-! ### The relay (R245) -/

/-- RELAY_READ: the bridge's own slot behaves as BAR0; another member's is an ORIG 3 LOAD. -/
def execRelayRead (member : Fin 32) (off : BitVec 27) (wide : Bool) (s : State) : Outcome :=
  let n := if wide then 8 else 4
  if s.boot.held ∨ ¬ s.isBridge then .next s
  else if member.val = s.nodeId % 32 then .next (s.readBy .host off.toNat n)
  else
    let target := s.nodeId / 32 * 32 + member.val
    .next (s.issue .load (.relayRead (member.val * 2 ^ 27 + off.toNat)) target 0 0 (regWinBase + off.toNat) n [])

/-- RELAY_WRITE: an ORIG 3 STORE, posted. -/
def execRelayWrite (member : Fin 32) (off : BitVec 27) (wide : Bool) (v : Word) (s : State) : Outcome :=
  let n := if wide then 8 else 4
  if s.boot.held ∨ ¬ s.isBridge then .next s
  else if member.val = s.nodeId % 32 then .next (s.winWrite off.toNat n (v.toNat % 2 ^ (8 * n)) orgHost).1
  else
    let target := s.nodeId / 32 * 32 + member.val
    .next (s.issue .store (.relayWrite (member.val * 2 ^ 27 + off.toNat)) target 0 0 (regWinBase + off.toNat) n (bytesLE n v.toNat))

end Sys2Proof.Machine
end

