-- ==== Sys2Proof/Machine/Target.lean ====
section
/-!
DEFINITION. The target side of the transaction layer: refusals, floors, the ledger, the input hold, and what each request does
(R190, R192, R202 to R207, R217, R218, R220, R246, R255, R261 to R263, R340).
-/

namespace Sys2Proof.Machine

/-! ### Refusals (R190, R192, R204, R220) -/

/-- The local address of a request. -/
def reqAddr (q : Req) : Nat := q.addr.toNat % 2 ^ 44

/-- The bytes of memory that a request names: none for a COLL, an object or a report. -/
def reqSpan (typ : ReqType) (q : Req) : Nat :=
  match typ with
  | .load | .store | .mcast => q.len.toNat
  | .atomic | .atomicP => if bitOf q.opf.toNat 4 then 8 else 4
  | .blockAdd => q.len.toNat - (if q.keyed then 8 else 0)
  | .coll | .objPut | .objGet | .floorUpd | .nodeReport => 0

/-- OPF is no reserved encoding for the type (Table 10-2): the AMOs with a result for ATOMIC, ADDP for ATOMIC_P, the five
element types for BLOCK_ADD; a core's 64-byte STORE carries the mask of a WST (log entry 13). -/
def opfOk (typ : ReqType) (q : Req) : Bool :=
  let o := q.opf.toNat
  match typ with
  | .atomic => decide (o < 32) && decide (o % 16 ≤ 10)
  | .atomicP => decide (o < 32) && decide (o % 16 = 11)
  | .blockAdd => decide (o ≤ 4)
  | .store => decide (o = 0) || (decide (q.orig.toNat % 8 = 0) && decide (q.len.toNat = 64))
  | .load | .mcast | .coll | .objPut | .objGet | .floorUpd | .nodeReport => decide (o = 0)

/-- LEN and the payload fit the type (R192, Tables 10-2, 10-3, 10-10 and 12-3). -/
def lenOk (typ : ReqType) (q : Req) : Bool :=
  let n := q.len.toNat
  let span := reqSpan typ q
  let inBlock := decide (1 ≤ n) && decide (n ≤ 4096) && decide (1 ≤ span) && decide (reqAddr q % 4096 + span ≤ 4096)
  let core := decide (q.orig.toNat % 8 ≠ 0) || [1, 2, 4, 8, 64].contains n
  let whole := decide (q.payload.length = n)
  let key := if q.keyed then 8 else 0
  match typ with
  | .load => inBlock && core && decide (q.payload = [])
  | .store => inBlock && core && whole
  | .atomic | .atomicP =>
    inBlock && whole && decide (reqAddr q % span = 0) &&
      decide (n = key + (if q.opf.toNat % 16 = 9 then 2 * span else span))
  | .blockAdd =>
    let e := etypeBytes q.opf.toNat
    inBlock && whole && decide (key ≤ n) && decide (span % e = 0) && decide (reqAddr q % e = 0)
  | .coll => whole && (match readColl 0 q.payload with | some m => decide (1 ≤ m.ckind) && decide (m.ckind ≤ 4) | none => false)
  | .nodeReport => whole && decide (n = 32)
  | .mcast | .objPut | .objGet | .floorUpd => false

/-- A request that is answered with E_BADCMD whatever the state: a reserved OPF, FLAGS or ORIG encoding, a LEN that breaks
R192, an unaligned atomic, or an object addressed to a node. -/
def badReq (typ : ReqType) (q : Req) : Bool :=
  decide (0x20 ≤ q.flags.toNat) || bitOf q.flags.toNat 2 || decide (4 ≤ q.orig.toNat % 8) || !opfOk typ q || !lenOk typ q

/-- The code with which the addressed bytes are refused (R190, R220). -/
def State.spanErr (s : State) (typ : ReqType) (q : Req) : Nat :=
  let a := reqAddr q
  let n := reqSpan typ q
  let org := q.orig.toNat % 8
  let w := a % 0x8000000
  if n = 0 then eNone
  else if inRegWin a n then
    match typ with
    | .atomic | .atomicP => eRange
    | .store =>
      if org = orgHost then eNone
      else if org = orgFirmware ∧ n = 8 ∧ winType w = tySch ∧ winInst w = 0 ∧ winOff w = 0x090 ∧ ¬ winBcast w then eNone
      else eLocked
    | .load => if org = orgHost then eNone else eLocked
    | .blockAdd | .mcast | .coll | .objPut | .objGet | .floorUpd | .nodeReport => eLocked
  else if s.memOk a n then (if 2 ≤ org then eLocked else eNone)
  else if 2 ≤ org ∧ (s.inHbm a n ∨ inLlm a n) then eLocked
  else eRange

/-- A store that a firmware processor may not make is also shown in the page it names (R16, R220). -/
def State.notePage (s : State) (typ : ReqType) (q : Req) (e : Nat) : State :=
  let w := reqAddr q % 0x8000000
  if e = eLocked ∧ typ = .store ∧ q.orig.toNat % 8 = orgFirmware ∧ inRegWin (reqAddr q) q.len.toNat ∧ ¬ winBcast w ∧ winExists w then
    (s.refused (winType w) (winInst w) eLocked (winOff w) orgFirmware).1
  else s

/-- A job request that does not belong to the loaded job (R204). -/
def State.foreign (s : State) (q : Req) : Bool := !reqSys q && s.job.elim true fun j => decide (j.sess ≠ q.sess.toNat)

/-! ### Performing (Table 10-3) -/

/-- A STORE to memory; under the mask of a core's WST only the marked words are written (R142). -/
def State.storeReq (s : State) (q : Req) : State :=
  let a := reqAddr q
  let mask := q.opf.toNat
  if mask = 0 then s.store a q.payload
  else
    match s.lineState a with
    | .plain _ => (maskWords mask).foldl (fun t i => t.store (a + 8 * i) ((q.payload.drop (8 * i)).take 8)) s
    | .denied | .poisoned | .fenced => s.noteLine a

/-- An atomic: the CLOSE word of an entry starts a fold, an FADD in an ordered region is logged under its key, any other is
performed (R154, R157 to R160, R214); the answer comes with the fold. -/
def State.atomicReq (s : State) (typ : ReqType) (q : Req) : State :=
  let a := reqAddr q
  match s.closeOf a with
  | some e => s.closeStart e (.request q (decide (typ = .atomicP)) [])
  | none =>
    match amoOfOpf q.opf.toNat, s.oregOf a with
    | some (.fadd, bytes), some e =>
      let st := s.stackOf a
      if !q.keyed then s.finish typ q eBadcmd []
      else if s.logShare e st ≤ s.logUsed e st then (s.logRefuse e st).finish typ q eRange []
      else
        let (old, s1) := s.fetch a bytes
        let s2 := (s1.logPut e a q.key (fieldLE q.body 0 bytes) bytes (if bytes = 8 then 0 else 1)).bump64 rMsaAtomics 1 st
        (s2.bump64 rFxpReqIn).finish typ q eNone old
    | _, _ => (s.amoRequest typ q).ckptWatch

/-- A COLL piece: a contribution that the home cannot take yet is held (R255, R256, R261 to R263). -/
def State.collReq (s : State) (q : Req) : State :=
  match readColl (q.src.toNat % 2 ^ 14) q.payload with
  | some m =>
    let well := fun (t : State) => (t.bump64 rFxpReqIn).finish .coll q eNone []
    if m.ckind = 1 then
      let (t, ok) := s.takeContrib m
      if ok then (well t).homeGo else t.holdReq .coll q true
    else if m.ckind = 2 then well (s.takeResult m)
    else if m.ckind = 3 then well (s.takeNotice m)
    else well (s.takeFailed m)
  | none => s.finish .coll q eBadcmd []

/-- Perform a request that needs a ledger entry, and answer it (R204). -/
def State.performReq (s : State) (typ : ReqType) (q : Req) : State :=
  let e := s.spanErr typ q
  let org := q.orig.toNat % 8
  let a := reqAddr q
  let well := fun (t : State) (c : Nat) => (if c = eNone then t.bump64 rFxpReqIn else t).finish typ q c []
  if e ≠ eNone then (s.notePage typ q e).finish typ q e []
  else
    match typ with
    | .store =>
      if inRegWin a q.len.toNat then
        let node := if org = orgFirmware then some (q.src.toNat % 2 ^ 14) else none
        let (t, c) := s.winWrite (a % 0x8000000) q.len.toNat (natLE q.payload) org node
        well t c
      else well (s.storeReq q).ckptWatch eNone
    | .atomic | .atomicP => s.atomicReq typ q
    | .blockAdd =>
      let (t, c) := s.blockAdd q.opf.toNat a (if q.keyed then some q.key else none) q.body
      well t c
    | .coll => s.collReq q
    | .nodeReport => well (s.takeReport q.payload) eNone
    | .load | .mcast | .objPut | .objGet | .floorUpd => s

/-- A LOAD: performed and answered, without an entry. -/
def State.loadReq (s : State) (q : Req) : State :=
  let e := s.spanErr .load q
  let a := reqAddr q
  let n := q.len.toNat
  if e ≠ eNone then s.answer .load q e false []
  else if inRegWin a n then
    let (v, t, c) := s.winRead (a % 0x8000000) n orgHost
    (if c = eNone then t.bump64 rFxpReqIn else t).answer .load q c false (bytesLE n v)
  else
    let (bs, t) := s.fetch a n
    (t.bump64 rFxpReqIn).answer .load q eNone false bs

/-! ### Floors, the ledger and the input hold (R202 to R206) -/

/-- Add a copy to the request whose CLOSE has not been answered. -/
def FoldBy.addCopy (q : Req) : FoldBy → FoldBy
  | .request p posted copies => .request p posted (if sameReq p q then copies ++ [q] else copies)
  | .thread t op => .thread t op
  | .homeReduction => .homeReduction

/-- A copy of a request whose CLOSE has not been answered is answered with it. -/
def State.joinFold (s : State) (q : Req) : State :=
  ({ s with msa := { s.msa with
    fold := s.msa.fold.map fun f => { f with who := f.who.addCopy q }
    waiting := s.msa.waiting.map fun x => (x.1, x.2.addCopy q) } })

/-- What the ledger does with a request: none where it must wait for an entry. -/
def State.judge (s : State) (typ : ReqType) (q : Req) : Option State :=
  match s.served typ q with
  | some t => some t
  | none =>
    if s.foldReqs.any (sameReq q) then some (s.joinFold q)
    else if s.ledgerFull then none
    else some (s.performReq typ q)

/-- Look at the held requests again, in order of arrival (R205, R206). -/
def State.reexamine (s : State) : State :=
  (s.fxp.hold.foldl (fun t h =>
    if h.forHome then t
    else
      let u := { t with fxp := { t.fxp with hold := t.fxp.hold.erase h } }
      if u.foreign h.req then u.answer h.typ h.req eState false []
      else (u.judge h.typ h.req).getD t) s).takeHeld

/-- Raise a floor and free the entries below it; held requests are looked at again where an entry was freed. -/
def State.raiseFloor (s : State) (q : Req) : State :=
  let k := reqStream q
  let f := q.ackFloor.toNat
  if !seqGt f (SMap.get 0 s.fxp.floors k) then s
  else
    let gone := fun (e : LedgerEntry) => decide (streamKey e.src e.sys = k) && seqLt e.seq f
    let t := { s with fxp := { s.fxp with
      floors := SMap.set 0 s.fxp.floors k f
      ledger := s.fxp.ledger.filter fun e => !gone e } }
    if s.fxp.ledger.any gone then t.reexamine else t

/-- The life of a ledger entry and the idle time of a resynchronisation, in ns. -/
abbrev fourMs : Nat := 4000000

/-- A request has arrived on its stream: a SYNC request of a stream idle for more than 4 ms resets the floor (R203), and a
valid ACK_FLOOR raises it (R202). -/
def State.noteStream (s : State) (q : Req) : State :=
  let k := reqStream q
  let idle := decide (SMap.get 0 s.fxp.lastIn k + fourMs < s.now)
  let t := { s with fxp := { s.fxp with
    floors := if bitOf q.flags.toNat 4 && idle then SMap.set 0 s.fxp.floors k 0 else s.fxp.floors
    lastIn := SMap.set 0 s.fxp.lastIn k s.now } }
  if bitOf q.flags.toNat 3 then t else t.raiseFloor q

/-- In BOOT the port accepts only relay requests to the FWP pages (R340). -/
def State.shutOut (s : State) (q : Req) : Bool :=
  let w := reqAddr q % 0x8000000
  s.boot.booting && !(decide (q.orig.toNat % 8 = orgHost) && inRegWin (reqAddr q) 1 && decide (winType w = tyFwp))

/-- The request is for this node. -/
def State.mine (s : State) (q : Req) : Bool := decide (q.dst.toNat % 2 ^ 14 = s.nodeId)

/-- A request arrives at its target (R204). -/
def State.arrive (s : State) (typ : ReqType) (q : Req) : State :=
  if s.boot.held ∨ ¬ s.mine q then s
  else if s.shutOut q then s.bump rFswDiscard
  else if s.foreign q then s.answer typ q eState false []
  else
    let t := s.noteStream q
    if badReq typ q then t.answer typ q eBadcmd false []
    else if typ = .load then t.loadReq q
    else (t.judge typ q).getD (t.holdReq typ q false)

/-! ### Multicast (R218, R261) -/

/-- The members of a mask with their sequences, in ascending order. -/
def maskMembers (mask : Nat) (seqs : List Nat) : List (Nat × Nat) := (maskList mask).zip seqs

/-- The copy of a multicast for one member: SRC, ORIG, SESS and TAG stay, DST and SEQ are its own (R218). -/
def mcastCopy (q : Req) (g : Nat) (m : Nat × Nat) : Req :=
  { q with
    flags := BitVec.ofNat 8 (q.flags.toNat % 2 + 16 * (bitOf q.flags.toNat 4).toNat + 0x0A)
    dst := BitVec.ofNat 16 (g * 32 + m.1), seq := BitVec.ofNat 32 m.2 }

/-- Replicate a multicast packet at the first node of its group: one request to each other member, and this node's own copy. -/
def State.replicate (s : State) (typ : ReqType) (q : Req) (mask : Nat) (seqs : List Nat) : State :=
  let g := q.dst.toNat % 2 ^ 14 / 32
  if s.boot.held ∨ g ≠ s.nodeId / 32 then s
  else if s.boot.booting then s.bump rFswDiscard
  else if 0x20 ≤ q.flags.toNat ∨ seqs.length ≠ (maskList mask).length then s.answer typ q eBadcmd false []
  else
    (maskMembers mask seqs).foldl (fun t m =>
      let c := mcastCopy q g m
      if g * 32 + m.1 = t.nodeId then t.arrive typ c
      else (t.bump64 rFxpReqOut).inject (g * 32 + m.1) (.request (BitVec.ofNat 8 typ.code) c)) s

/-- The member mask and the sequences of a multicast extension, and the payload behind it (R218). -/
def mcastExt (b : List Byte) : Nat × List Nat × List Byte :=
  let mask := fieldLE b 0 4
  let n := (maskList mask).length
  (mask, (upTo n).map fun i => fieldLE b (4 + 4 * i) 4, b.drop (4 + 4 * n))

/-- A multicast packet whose extension stands before its payload. -/
def State.arriveMcast (s : State) (typ : ReqType) (q : Req) : State :=
  let x := mcastExt q.payload
  s.replicate typ { q with payload := x.2.2 } x.1 x.2.1

/-- A COLL packet: with FLAGS.EXT it is a multicast whose extension comes before the piece. -/
def State.arriveColl (s : State) (q : Req) : State :=
  if bitOf q.flags.toNat 2 then s.arriveMcast .coll q else s.arrive .coll q

/-- FLOOR_UPD: no response; ORIG names the stream, 1 job, 2 system. Requests with FLAGS.NOFLOOR do not move the floor (R202). -/
def State.floorUpd (s : State) (q : Req) : State :=
  if s.boot.held ∨ ¬ s.mine q then s
  else if s.boot.booting then s.bump rFswDiscard
  else if s.foreign q ∨ bitOf q.flags.toNat 3 then s
  else s.raiseFloor q

/-! ### Delivery (R13, R192, R206, R240) -/

/-- The request stops at the port: the input hold is full, or the memory it names is not running (R13, R206; log entry 82). -/
def State.stops (s : State) (typ : Nat) (q : Req) : Bool :=
  let a := reqAddr q
  s.holdFull || (decide (q.orig.toNat % 8 ≤ 1) && s.mine q && !s.foreign q && decide (1 ≤ typ) && decide (typ ≤ 5) &&
    s.memOk a 1 && !s.addrRuns a)

/-- Deliver a request by its TYPE; a reserved TYPE is answered with E_BADCMD (R192, Table 10-3). -/
def State.deliverReq (s : State) (typ : Nat) (q : Req) : State :=
  match typ with
  | 0x01 => s.arrive .load q
  | 0x02 => s.arrive .store q
  | 0x03 => s.arrive .atomic q
  | 0x04 => s.arrive .atomicP q
  | 0x05 => s.arrive .blockAdd q
  | 0x06 => s.arriveMcast .store q
  | 0x07 => s.arriveColl q
  | 0x08 => s.arrive .objPut q
  | 0x09 => s.arrive .objGet q
  | 0x0A => s.floorUpd q
  | 0x0B => s.arrive .nodeReport q
  | _ => if s.boot.held ∨ ¬ s.mine q then s else if s.shutOut q then s.bump rFswDiscard else s.respond 0x12 q eBadcmd false []

/-- Take a request that has arrived, where it does not stop. -/
def State.takeReq (s : State) (typ : ReqType) (q : Req) : State :=
  if s.stops typ.code q then s else s.deliverReq typ.code q

/-! ### Requests that have stopped (R206, R230) -/

/-- Return freed blocks of a VC to the pools they came from: dedicated credit is spent first (R230). -/
def freeBlocks (freed : List Nat) (vc n : Nat) : List Nat :=
  let own := min n (64 - freed.getD vc 0)
  (freed.set vc (freed.getD vc 0 + own)).set 6 (freed.getD 6 0 + (n - own))

/-- Return the blocks of a packet to the partner of a port. -/
def State.freePort (s : State) (p vc n : Nat) : State := s.onPort p fun x => { x with freed := freeBlocks x.freed vc n }

/-- Take up the requests that have stopped at a port, in order, until one stops again. -/
def State.rxTake (s : State) (p : Nat) : List (Nat × Nat × List Byte) → State
  | [] => s.onPort p fun x => { x with rxStop := [] }
  | (vc, n, b) :: rest =>
    let k := readPacket b
    match k.cargo with
    | .request t q =>
      if s.stops t.toNat q then s.onPort p fun x => { x with rxStop := (vc, n, b) :: rest }
      else ((s.deliverReq t.toNat q).freePort p vc n).rxTake p rest
    | .response _ _ => (s.freePort p vc n).rxTake p rest

/-- Take up what has stopped at every port. -/
def State.rxGo (s : State) : State :=
  s.ports.foldl (fun t e => (t.rxTake e.1 (t.port e.1).rxStop).creditFrame e.1) s

/-! ### Commands -/

/-- LOAD. -/
def execReqLoad (q : Req) (s : State) : Outcome := .next (s.takeReq .load q)

/-- STORE. -/
def execReqStore (q : Req) (s : State) : Outcome := .next (s.takeReq .store q)

/-- ATOMIC. -/
def execReqAtomic (q : Req) (s : State) : Outcome := .next (s.takeReq .atomic q)

/-- ATOMIC_P. -/
def execReqAtomicP (q : Req) (s : State) : Outcome := .next (s.takeReq .atomicP q)

/-- BLOCK_ADD. -/
def execReqBlockAdd (q : Req) (s : State) : Outcome := .next (s.takeReq .blockAdd q)

/-- MCAST: the copies are STOREs. -/
def execReqMcast (q : Req) (mask : BitVec 32) (seqs : List (BitVec 32)) (s : State) : Outcome :=
  .next (if s.stops 0x06 q then s else s.replicate .store q mask.toNat (seqs.map (·.toNat)))

/-- COLL_CONTRIB. -/
def execReqCollContrib (q : Req) (s : State) : Outcome := .next (s.takeReq .coll q)

/-- COLL_RESULT. -/
def execReqCollResult (q : Req) (s : State) : Outcome := .next (s.takeReq .coll q)

/-- COLL_NOTICE. -/
def execReqCollNotice (q : Req) (s : State) : Outcome := .next (s.takeReq .coll q)

/-- COLL_FAILED. -/
def execReqCollFailed (q : Req) (s : State) : Outcome := .next (s.takeReq .coll q)

/-- FLOOR_UPD. -/
def execReqFloorUpd (q : Req) (s : State) : Outcome := .next (s.takeReq .floorUpd q)

/-- NODE_REPORT. -/
def execReqNodeReport (q : Req) (s : State) : Outcome := .next (s.takeReq .nodeReport q)

/-- OBJ_PUT addressed to a node. -/
def execReqObjPut (q : Req) (s : State) : Outcome := .next (s.takeReq .objPut q)

/-- OBJ_GET addressed to a node. -/
def execReqObjGet (q : Req) (s : State) : Outcome := .next (s.takeReq .objGet q)

/-- LEDGER_EXPIRY: the held requests are looked at, the entry is freed 4 ms after its creation, and they are looked at again
(R205). -/
def execLedgerExpiry (src : BitVec 14) (sys : Bool) (seq : BitVec 32) (s : State) : Outcome :=
  let it := fun (e : LedgerEntry) => decide (e.src = src.toNat) && decide (e.sys = sys) && decide (e.seq = seq.toNat)
  match s.fxp.ledger.find? it with
  | some e =>
    let s1 := ({ s with now := max s.now (e.created + fourMs) }).reexamine
    .next ({ s1 with fxp := { s1.fxp with ledger := s1.fxp.ledger.filter fun x => !it x } }).reexamine.rxGo
  | none => .next s

end Sys2Proof.Machine
end

