-- ==== Sys2Proof/Machine/Mgmt.lean ====
section
/-!
DEFINITION. The management endpoint: MCTP control, PLDM, and the SMBus alert response (R394, R395). Command and completion codes
are those of DSP0236, DSP0240 and DSP0248, which R395 names; a body is the command code, the completion code and the
answer's fields (log entry 19).
-/

namespace Sys2Proof.Machine

/-- The node acknowledges its SMBus address: from the end of the settings read until RESET_N falls (R394). -/
def State.smbusUp (s : State) : Bool := !s.boot.held && decide (2 ≤ s.fld rAonBootStat 2 0)

/-- Completion codes of PLDM (DSP0240). -/
abbrev ccSuccess : Nat := 0
abbrev ccInvalid : Nat := 2
abbrev ccNotReady : Nat := 4

/-- Answer an MCTP control message; the hardware endpoint does so whatever LOG does. -/
def State.mctpAnswer (s : State) (cmd cc : Nat) (data : List Byte) : State :=
  s.emit (.mctp 0 (bytesLE 1 cmd ++ bytesLE 1 cc ++ data))

/-- Answer a PLDM request: LOG does, and while it is down the hardware answers ERROR_NOT_READY. -/
def State.pldmAnswer (s : State) (cmd : Nat) (data : List Byte) : State :=
  if s.down 5 then s.emit (.mctp 1 (bytesLE 1 cmd ++ bytesLE 1 ccNotReady))
  else s.emit (.mctp 1 (bytesLE 1 cmd ++ bytesLE 1 ccSuccess ++ data))

/-- SET_ENDPOINT_ID: operations 0 set and 1 force take an ID that is not 0 or 0xFF; 2 reset and 3 set discovered change
nothing. -/
def execSetEndpointId (op : BitVec 2) (eid : BitVec 8) (s : State) : Outcome :=
  if !s.smbusUp then .next s
  else if op.toNat ≤ 1 then
    if eid = 0 ∨ eid = 0xFF then .next (s.mctpAnswer 1 ccInvalid [])
    else .next ({ s with mgmt := { s.mgmt with eid := eid.toNat } }.mctpAnswer 1 ccSuccess [eid])
  else .next (s.mctpAnswer 1 ccSuccess (bytesLE 1 s.mgmt.eid))

/-- GET_ENDPOINT_ID. -/
def execGetEndpointId (s : State) : Outcome :=
  .next (if s.smbusUp then s.mctpAnswer 2 ccSuccess (bytesLE 1 s.mgmt.eid) else s)

/-- GET_MCTP_VERSION_SUPPORT. -/
def execGetMctpVersionSupport (typ : BitVec 8) (s : State) : Outcome :=
  .next (if s.smbusUp then s.mctpAnswer 4 ccSuccess (Config.mgmtAnswer 0 4 typ.toNat) else s)

/-- GET_MESSAGE_TYPE_SUPPORT: one type besides control, PLDM. -/
def execGetMessageTypeSupport (s : State) : Outcome :=
  .next (if s.smbusUp then s.mctpAnswer 5 ccSuccess [1, 1] else s)

/-- GetTID. -/
def execGetTid (s : State) : Outcome := .next (if s.smbusUp then s.pldmAnswer 0x02 (Config.mgmtAnswer 1 0x02 0) else s)

/-- GetPLDMVersion. -/
def execGetPldmVersion (typ : BitVec 8) (s : State) : Outcome :=
  .next (if s.smbusUp then s.pldmAnswer 0x03 (Config.mgmtAnswer 1 0x03 typ.toNat) else s)

/-- GetPLDMTypes: types 0 and 2, as the bits of a 64-bit map. -/
def execGetPldmTypes (s : State) : Outcome := .next (if s.smbusUp then s.pldmAnswer 0x04 (bytesLE 8 5) else s)

/-- GetPLDMCommands: the commands of R395, as the bits of a 256-bit map, for types 0 and 2. -/
def execGetPldmCommands (typ : BitVec 8) (s : State) : Outcome :=
  let map :=
    if typ = 0 then bytesLE 32 (2 ^ 0x02 + 2 ^ 0x03 + 2 ^ 0x04 + 2 ^ 0x05)
    else if typ = 2 then bytesLE 32 (2 ^ 0x0B + 2 ^ 0x11 + 2 ^ 0x50 + 2 ^ 0x51)
    else Config.mgmtAnswer 1 0x05 typ.toNat
  .next (if s.smbusUp then s.pldmAnswer 0x05 map else s)

/-- GetPDRRepositoryInfo. -/
def execGetPdrRepositoryInfo (s : State) : Outcome :=
  .next (if s.smbusUp then s.pldmAnswer 0x50 (Config.mgmtAnswer 1 0x50 0) else s)

/-- GetPDR. -/
def execGetPdr (handle : BitVec 32) (s : State) : Outcome :=
  .next (if s.smbusUp then s.pldmAnswer 0x51 (Config.mgmtAnswer 1 0x51 handle.toNat) else s)

/-- The reading of a sensor of Table 20-13; none for any other. -/
def State.sensorReading (s : State) (k : Nat) : Option Int :=
  if k = 1 then some (s.outerView tyPwr 0 rPwrNodePower.off).toNat
  else if k = 2 then some (Config.wholeDegrees (s.outerTemp 0x84))
  else if k = 3 then some (Config.wholeDegrees (s.outerTemp 0x90))
  else if 4 ≤ k ∧ k ≤ 8 then some (s.sensorState k)
  else none

/-- GetSensorReading: the reading as 4 bytes; of a sensor that does not exist, what the manual leaves open. -/
def execGetSensorReading (sensor : BitVec 16) (s : State) : Outcome :=
  let data := match s.sensorReading sensor.toNat with
    | some v => bytesLE 4 (BitVec.ofInt 32 v).toNat
    | none => Config.mgmtAnswer 1 0x11 sensor.toNat
  .next (if s.smbusUp then s.pldmAnswer 0x11 data else s)

/-- PollForPlatformEventMessage: the oldest event is taken, as sensor, previous and present state; SMB_ALERT_N is released with
the last one. -/
def execPollForPlatformEventMessage (s : State) : Outcome :=
  if !s.smbusUp then .next s
  else if s.down 5 then .next (s.pldmAnswer 0x0B [])
  else
    match s.mgmt.events with
    | [] => .next (s.pldmAnswer 0x0B [])
    | (k, a, b) :: rest =>
      let s1 := { s with mgmt := { s.mgmt with events := rest }, pins := { s.pins with smbAlertN := rest.isEmpty } }
      .next (s1.pldmAnswer 0x0B (bytesLE 2 k ++ bytesLE 1 a ++ bytesLE 1 b))

/-- SMBUS_ALERT_RESPONSE: while SMB_ALERT_N is asserted the node answers 0x0C with its own address. -/
def execSmbusAlertResponse (s : State) : Outcome :=
  .next (if s.smbusUp ∧ ¬ s.pins.smbAlertN then s.emit (.alertResponse s.boot.smbAddr) else s)

end Sys2Proof.Machine
end

