-- ==== Sys2Proof/Machine/Receive.lean ====
section
/-!
DEFINITION. What arrives at a port: frames, their packets, and the switch on the way of a packet (R201, R206, R226 to R232, R238,
R240, R242, R340).
-/

namespace Sys2Proof.Machine

/-! ### Packets (R201, R230, R238, R240) -/

/-- Deliver a packet to this node: a request to the target side, a response to the source side (R240). -/
def State.deliver (s : State) (c : Cargo) : State :=
  match c with
  | .request t q => s.deliverReq t.toNat q
  | .response t p =>
    if t.toNat = 0x10 then s.response p false
    else if t.toNat = 0x11 then s.response { p with data := [] } false
    else s.response p true

/-- A packet as the switch takes it in: AGE grows by the time in the switch, and LEVEL and PASSED rise at a global port and at
the intermediate member of an in-group detour (R201, R230, R240). -/
def State.takeIn (s : State) (p : Nat) (k : Packet) (spent : Nat) : Packet :=
  let k0 : Packet := { k with cargo := k.cargo.withAge (min 0xFFFF (k.cargo.age + spent)) }
  let k1 : Packet :=
    if 31 ≤ p then
      let x := k0.raise
      if x.nonmin ∧ ¬ x.ingroup ∧ s.nodeId / 32 = x.inter.toNat % 512 then x.setFlag 2 else x
    else k0
  if k1.nonmin ∧ k1.ingroup ∧ ¬ k1.passed ∧ s.nodeId % 32 = k1.inter.toNat % 32 then (k1.setFlag 2).raise else k1

/-- What the switch does with a packet taken in: none where it is to be delivered here (R201, R238, R240). -/
def State.switched (s : State) (k : Packet) : Option State :=
  if 1000 ≤ k.cargo.age ∨ 5 < k.hops.toNat then some (s.bump rFswDiscard)
  else if k.cargo.isMcast ∧ s.nodeId / 32 = k.cargo.dst % 2 ^ 14 / 32 then none
  else if k.target.toNat % 2 ^ 14 = s.nodeId then
    (if k.cargo.typ = 8 ∨ k.cargo.typ = 9 then
      match s.gatePort (2 ^ 15 + k.cargo.dst % 64) with
      | some q => some (if s.portKeyed q then s.sendPacket k q else s.bump rFswUnreach)
      | none => some (s.bump rFswUnreach)
     else none)
  else some (s.forward k)

/-- A packet of a port in BOOT is for this node and a relay request or an answer to one; every other is discarded (R340). -/
def State.bootPacket (s : State) (k : Packet) : Bool := decide (k.target.toNat % 2 ^ 14 = s.nodeId) && k.cargo.boots

/-- PACKET_FORWARD: a packet arrives on a port: it is delivered, sent on its gateway's port, forwarded, re-routed or discarded;
`spent` is the time in the switch in us, rounded up. -/
def execPacketForward (p : Fin 48) (k : Packet) (spent : BitVec 16) (s : State) : Outcome :=
  if !s.linkRuns p.val then .next s
  else if s.portState p.val = poBoot ∧ ¬ s.bootPacket k then .next (s.bump rFswDiscard)
  else
    let k1 := s.takeIn p.val k spent.toNat
    match s.switched k1 with
    | some t => .next t
    | none =>
      match k1.cargo with
      | .request t q => .next (if s.stops t.toNat q then s else s.deliver k1.cargo)
      | .response _ _ => .next (s.deliver k1.cargo)

/-! ### Frames (R226, R227, R230 to R232) -/

/-- A whole packet has arrived in the blocks of a VC: it goes through the switch, and its blocks are freed unless it stops at the
full input hold (R206, R230; one microsecond in the switch, log entry 92). -/
def State.packetIn (s : State) (p vc : Nat) (b : List Byte) : State :=
  let n := b.length / 256
  let k := readPacket b
  if s.portState p = poBoot ∧ ¬ s.bootPacket k then (s.bump rFswDiscard).freePort p vc n
  else
    let k1 := s.takeIn p k 1
    match s.switched k1 with
    | some t => t.freePort p vc n
    | none =>
      match k1.cargo with
      | .request t q =>
        if !(s.port p).rxStop.isEmpty || s.stops t.toNat q then s.onPort p fun x => { x with rxStop := x.rxStop ++ [(vc, n, k1.bytes)] }
        else (s.deliver k1.cargo).freePort p vc n
      | .response _ _ => (s.deliver k1.cargo).freePort p vc n

/-- Take one packet block: SOP opens a packet of its VC, EOP ends it; a block outside a packet is freed (R229). -/
def State.blockIn (s : State) (p : Nat) (b : Block) : State :=
  let part := if b.sop then some [] else SMap.get none (s.port p).rxPart b.vc
  match part with
  | none => s.freePort p b.vc 1
  | some x =>
    let y := x ++ b.data
    if b.eop then (s.onPort p fun z => { z with rxPart := SMap.set none z.rxPart b.vc none }).packetIn p b.vc y
    else s.onPort p fun z => { z with rxPart := SMap.set none z.rxPart b.vc (some y) }

/-- Ask for the replay of the next frame expected: the next frame carries NAK (R227). -/
def State.nakFrame (s : State) (p : Nat) : State := s.sendFrame p [] flagNak

/-- The partner's NAK: the frames kept from the one named are sent again unchanged; after eight in a row of one frame the port
leaves UP for LOCK, or waits in DETECT while FAB is down (R227, R235). -/
def State.takeNak (s : State) (p ack : Nat) : State :=
  let x := s.port p
  let n := if x.nakOf = ack then x.naks + 1 else 1
  let s1 := s.onPort p fun y => { y with nakOf := ack, naks := n }
  if 8 ≤ n ∧ s.portState p = poUp then s1.enterPort p (if s1.fabUp then poLock else poDetect) 0
  else
    let again := x.replay.filter fun f => decide (ack ≤ f.1)
    again.foldl (fun t f => t.emit (.frame p f.2)) (s1.bump rFportReplays again.length p)

/-- The content of a frame's packet blocks: decrypted under the key slot that EPOCH names, and none where the tag fails or the
slot holds no key (R231); plain in BOOT. -/
def State.frameText (s : State) (p : Nat) (v : FrameView) : Option (List Byte) :=
  if s.portState p = poBoot then some v.data
  else
    let key := SMap.get [] (s.port p).keys (if bitOf (fieldLE v.control 0x10 1) 1 then 1 else 0)
    let w := s.rd rFportPartner p
    if key = [] then none
    else gcmOpen key (frameNonce (fieldLE v.control 0 8) (bitsOf w 13 0) (bitsOf w 29 24)) (frameAad v.types v.control v.service)
      (v.data ++ v.tag)

/-- A frame whose tag fails: counted, and with sixteen in 1 ms the port fails (R232). -/
def State.tagFailed (s : State) (p : Nat) : State :=
  let fails := s.now :: ((s.port p).tagFails.filter fun t => decide (s.now < t + 1000000))
  let s1 := (s.bump rFportAuthFail 1 p).onPort p fun x => { x with tagFails := fails }
  if 16 ≤ fails.length then (s1.enterPort p poFailed 5).raise tyFport p eLinkAuth 0 0 else s1.nakFrame p

/-- The link control block of an accepted frame: the partner's EPOCH retires the old key, RETUNE is noted, and CREDITS returns
what the partner has freed (Table 11-3, R230, R231). -/
def State.takeControl (s : State) (p : Nat) (c : List Byte) : State :=
  let flags := fieldLE c 0x10 1
  let slot := (bitOf flags 1).toNat
  let s1 := s.onPort p fun x => { x with
    rxNext := x.rxNext + 1, peerRetune := bitOf flags 2
    credit := (upTo 7).map fun i => x.credit.getD i 0 + fieldLE c (0x12 + 2 * i) 2 }
  if s1.portState p = poUp ∧ slot = (s1.port p).txSlot then
    (s1.setFlag rFportStat (16 + (1 - slot)) false p).onPort p fun x => { x with keys := SMap.set [] x.keys (1 - slot) [] }
  else s1

/-- LINK_FRAME: a frame arrives on a port that carries frames: codewords that cannot be corrected, a tag that fails or a sequence
ahead ask for a replay; a frame in order is accepted with its control block and its packets (R227 to R232). -/
def execLinkFrame (p : Fin 48) (f : Frame) (s : State) : Outcome :=
  if !s.linkRuns p.val then .next s
  else
    let s0 := s.bump64 rFportFecCorr f.corrected.toNat p.val
    let v := splitFrame f.bytes
    let fseq := fieldLE v.control 0 8
    if f.uncorrectable.toNat ≠ 0 then .next ((s0.bump rFportFecUncorr f.uncorrectable.toNat p.val).nakFrame p.val)
    else
      match s0.frameText p.val v with
      | none => .next (s0.tagFailed p.val)
      | some text =>
        let next := (s0.port p.val).rxNext
        if next < fseq then .next (s0.nakFrame p.val)
        else if fseq < next then .next s0
        else
          let bs := dataBlocks v.types text
          let s1 := (s0.takeControl p.val v.control).bump64 rFportRxBlocks bs.length p.val
          let s2 :=
            if bitOf (fieldLE v.control 0x10 1) 0 then s1.takeNak p.val (fieldLE v.control 8 8)
            else s1.onPort p.val fun x => { x with naks := 0 }
          if s2.linkRuns p.val then .next ((bs.foldl (fun t b => t.blockIn p.val b) s2).rxGo) else .next s2

/-! ### The idle step -/

/-- What the fabric side goes on with while no command waits: requests stopped at the ports, waiting requests, rings, and the
blocks queued at the ports (R13, R195, R206, R215, R230). -/
def State.fabricGo (s : State) : State :=
  let t := s.rxGo.pump.ringGo
  t.ports.foldl (fun u e => u.portGo e.1) t

/-- The main loops of the running processors kick their watchdogs, at a free choice for each (R341; log entry 89). -/
def State.kicks (s : State) : State :=
  let v := (s.free 61).1
  (upTo 6).foldl (fun t i => if t.fwState i = 3 ∧ v / 2 ^ i % 2 = 1 then t.kickFw i else t) (s.free 61).2

/-- The lanes that hold so far at each port in LOCK, not yet all of them, at a free choice (R233, Table 11-11; log entry 89). -/
def State.someLanes (s : State) : State :=
  let v := (s.free 62).1
  (upTo 48).foldl (fun t p => if t.portState p = poLock ∧ t.trains p then t.setFld rFportStat 31 24 (v / 256 ^ p % 255) p else t)
    (s.free 62).2

/-- The idle step: the fabric side goes on, watchdogs are kicked, lanes lock, and one free choice of what happens between commands is
made (log entry 89). -/
def State.idleStep (s : State) : State := if s.boot.held then s else s.fabricGo.kicks.someLanes.idle

end Sys2Proof.Machine
end

