-- ==== Sys2Proof/Machine/Tap.lean ====
section
/-!
DEFINITION. The TAP: boundary scan, identification and the debug bridge (R396 to R398).
-/

namespace Sys2Proof.Machine

/-! ### Boundary scan (R396, R397) -/

/-- The level of a control land that the state holds, by its place in R380; the lands that a TAP instruction drives, and those
that the state does not hold, have none. -/
def State.landLevel (s : State) (k : Nat) : Option Bool :=
  let drives := s.tap.takesLands
  match k with
  | 0 => some s.pins.resetN
  | 1 => some s.pins.pwrok
  | 2 => some s.pins.perstN
  | 9 => some s.pins.presenceN
  | 12 => some s.pins.groupBridge
  | 3 => if drives then none else some s.pins.thermtripN
  | 4 => if drives then none else some s.pins.faultN
  | 5 | 6 | 7 | 8 => if drives then none else some !bitOf s.pins.loadstep (k - 5)
  | 21 => if drives then none else some s.pins.smbAlertN
  | _ => none

/-- What the boundary-scan register captures: the level of each land that the state holds in its input cell, and free bits in
every other cell. -/
def State.captureLands (s : State) (v : Nat) : List Bool :=
  (upTo 107).map fun c => if c < 75 ∧ c % 3 = 0 then (s.landLevel (c / 3)).getD (bitOf v c) else bitOf v c

/-- The bits of a number, bit 0 first. -/
def bitList (n v : Nat) : List Bool := (upTo n).map (bitOf v)

/-- Shift bits through a register that has captured others: what appears on TDO, and what the register then holds. -/
def shiftThrough (captured dr : List Bool) : List Bool × List Bool :=
  ((captured ++ dr).take dr.length, (captured ++ dr).drop dr.length)

/-- Load an instruction: TDO shows what the instruction register captures. An instruction that takes the lands makes the node
act as with RESET_N low, until a fall and a rise of RESET_N. -/
def State.loadIr (s : State) (code : Nat) : State :=
  let s1 := ({ s with tap := { s.tap with ir := code } }).emit (.tdo (bitList 8 1))
  if s1.tap.takesLands then s1.heldDown else s1

/-- An instruction over the boundary-scan register, and one scan of it. -/
def State.scanLands (s : State) (code : Nat) (dr : List Bool) : State :=
  let (v, s1) := s.free 20
  let x := shiftThrough (s1.captureLands v) dr
  let s2 := s1.loadIr code
  ({ s2 with tap := { s2.tap with scan := x.2 } }).emit (.tdo x.1)

/-- An instruction over a register that a scan does not change. -/
def State.scanFixed (s : State) (code : Nat) (captured dr : List Bool) : State :=
  (s.loadIr code).emit (.tdo (shiftThrough captured dr).1)

/-- EXTEST. -/
def execTapExtest (dr : List Bool) (s : State) : Outcome := .next (s.scanLands 0 dr)

/-- IDCODE. -/
def execTapIdcode (dr : List Bool) (s : State) : Outcome := .next (s.scanFixed 1 (bitList 32 0x148161E3) dr)

/-- SAMPLE/PRELOAD. -/
def execTapSamplePreload (dr : List Bool) (s : State) : Outcome := .next (s.scanLands 2 dr)

/-- CLAMP: bypass is selected. -/
def execTapClamp (dr : List Bool) (s : State) : Outcome := .next (s.scanFixed 3 [false] dr)

/-- HIGHZ: bypass is selected. -/
def execTapHighz (dr : List Bool) (s : State) : Outcome := .next (s.scanFixed 4 [false] dr)

/-- EXTEST_PULSE. -/
def execTapExtestPulse (dr : List Bool) (s : State) : Outcome := .next (s.scanLands 5 dr)

/-- EXTEST_TRAIN. -/
def execTapExtestTrain (dr : List Bool) (s : State) : Outcome := .next (s.scanLands 6 dr)

/-- BYPASS. -/
def execTapBypass (dr : List Bool) (s : State) : Outcome := .next (s.scanFixed 0xFF [false] dr)

/-- TAP_RESET: Test-Logic-Reset selects IDCODE. A node that acts as with RESET_N low goes on doing so (R397). -/
def execTapReset (s : State) : Outcome := .next { s with tap := { s.tap with ir := 1 } }

/-! ### Debug bridge (R398) -/

/-- The bridge is present in BLANK, PROVISIONED and SERVICE (Table 16-1). -/
def State.bridgePresent (s : State) : Bool :=
  decide (s.sec.lifeCycle = 0) || decide (s.sec.lifeCycle = 1) || decide (s.sec.lifeCycle = 3)

/-- What Capture-DR loads: the data of the last read, DONE and ERR; the address and OP bits are free. -/
def State.captureBridge (s : State) (v : Nat) : List Bool :=
  bitList 64 s.tap.data ++ bitList 44 v ++ [s.tap.err, s.tap.done_] ++ bitList 2 (v / 2 ^ 44)

/-- The code of a memory access of the bridge: the limits of a host transfer in clear (R328). -/
def State.bridgeMemErr (s : State) (write : Bool) (a : Nat) : Nat :=
  if llmBase ≤ a then (if s.llmOk a 8 then eNone else eRange)
  else s.xferErr { form := (!write).toNat, buffer := false, host := 0, loc := a, len := 8 }

/-- The access: the data read, the state and the code. A refusal goes to the page concerned, or to NODE for memory. -/
def State.bridgeAccess (s : State) (write : Bool) (a v : Nat) : Nat × State × Nat :=
  let no := fun (t : State × Nat) => (0, t.1, t.2)
  if inRegWin a 1 then
    let w := a % 0x8000000
    if a % 8 ≠ 0 then
      no (if winExists w then s.refused (winType w) (winInst w) eRange (winOff w) orgJtag
          else s.refused tyNode 0 eRange (w % 2 ^ 27) orgJtag)
    else if write then no (s.winWrite w 8 v orgJtag)
    else s.winRead w 8 orgJtag
  else
    let e := if a % 8 ≠ 0 then eRange else s.bridgeMemErr write a
    if e ≠ eNone then no (s.refused tyNode 0 e (a % 2 ^ 32) orgJtag)
    else if write then (0, (s.store a (bytesLE 8 v)).ckptWatch, eNone)
    else
      let (bs, t) := s.fetch a 8
      (natLE bs, t, eNone)

/-- One scan of the bridge's register with an access at its Update-DR. Where the bridge is absent the instruction acts as
BYPASS. An access while the DBG domain or the memory has no clock stays in progress: DONE reads clear (R13). -/
def State.bridge (s : State) (write : Bool) (a v : Nat) : State :=
  let dr := bitList 64 v ++ bitList 44 a ++ [false, false] ++ bitList 2 (1 + write.toNat)
  if !s.bridgePresent then s.scanFixed 0x10 [false] dr
  else
    let (x, s1) := s.free 21
    let s2 := s1.scanFixed 0x10 (s1.captureBridge x) dr
    let s3 := { s2 with tap := { s2.tap with done_ := false, err := false, data := v } }
    if s3.boot.held ∨ !s3.domainUp tyDbg 0 ∨ ¬ (inRegWin a 1 ∨ s3.addrRuns a) then s3
    else
      let (d, s4, e) := s3.bridgeAccess write a v
      { s4 with tap := { s4.tap with done_ := true, err := decide (e ≠ eNone), data := if write then v else d } }

/-- DBG_BRIDGE with OP 1. -/
def execDbgBridgeRead (a : BitVec 44) (s : State) : Outcome := .next (s.bridge false a.toNat 0)

/-- DBG_BRIDGE with OP 2. -/
def execDbgBridgeWrite (a : BitVec 44) (v : Word) (s : State) : Outcome := .next (s.bridge true a.toNat v.toNat)

end Sys2Proof.Machine
end

