-- ==== Sys2Proof/Machine/Dispatch.lean ====
section
/-!
DEFINITION. One arm for each command: a direct call of its meaning, or a rejection by name.
-/

namespace Sys2Proof.Machine

/-- The effect of a command on everything but the queue. -/
def exec (i : Instr) (s : State) : Host.Outcome State Fault Refusal :=
  match i with
  | .jobLoad seq addr len sess step => Sys2Proof.Machine.execJobLoad seq addr len sess step s
  | .jobLoadComplete => Sys2Proof.Machine.execJobLoadComplete s
  | .run seq => Sys2Proof.Machine.execRun seq s
  | .runN seq n => Sys2Proof.Machine.execRunN seq n s
  | .hold seq => Sys2Proof.Machine.execHold seq s
  | .endJob seq ckpt => Sys2Proof.Machine.execEndJob seq ckpt s
  | .ckpt seq dest => Sys2Proof.Machine.execCkpt seq dest s
  | .armCkpt seq dest arm => Sys2Proof.Machine.execArmCkpt seq dest arm s
  | .attach seq driver => Sys2Proof.Machine.execAttach seq driver s
  | .restore seq record => Sys2Proof.Machine.execRestore seq record s
  | .restoreReadDone => Sys2Proof.Machine.execRestoreReadDone s
  | .abort seq => Sys2Proof.Machine.execAbort seq s
  | .abortComplete => Sys2Proof.Machine.execAbortComplete s
  | .quietEnd => Sys2Proof.Machine.execQuietEnd s
  | .segmentStart seg => Sys2Proof.Machine.execSegmentStart seg s
  | .segmentDone seg => Sys2Proof.Machine.execSegmentDone seg s
  | .schEvtPop => Sys2Proof.Machine.execSchEvtPop s
  | .schHb => Sys2Proof.Machine.execSchHb s
  | .heartbeatLapse => Sys2Proof.Machine.execHeartbeatLapse s
  | .schHoldAt node v => Sys2Proof.Machine.execSchHoldAt node v s
  | .seedWrite seed word v => Sys2Proof.Machine.execSeedWrite seed word v s
  | .ckptShardsDurable => Sys2Proof.Machine.execCkptShardsDurable s
  | .ckptManifestPut => Sys2Proof.Machine.execCkptManifestPut s
  | .ckptCommit => Sys2Proof.Machine.execCkptCommit s
  | .ckptTimeout => Sys2Proof.Machine.execCkptTimeout s
  | .fetch t => Sys2Proof.Machine.execFetch t s
  | .mma t => Sys2Proof.Machine.execMma t s
  | .wmma t => Sys2Proof.Machine.execWmma t s
  | .drain t => Sys2Proof.Machine.execDrain t s
  | .ladd t => Sys2Proof.Machine.execLadd t s
  | .drainAccept t => Sys2Proof.Machine.execDrainAccept t s
  | .vld v => Sys2Proof.Machine.execVld v s
  | .vst v => Sys2Proof.Machine.execVst v s
  | .take v => Sys2Proof.Machine.execTake v s
  | .rel v => Sys2Proof.Machine.execRel v s
  | .loop v => Sys2Proof.Machine.execLoop v s
  | .vecMov v => Sys2Proof.Machine.execVecMov v s
  | .vecAdd v => Sys2Proof.Machine.execVecAdd v s
  | .vecSub v => Sys2Proof.Machine.execVecSub v s
  | .vecMul v => Sys2Proof.Machine.execVecMul v s
  | .vecFma v => Sys2Proof.Machine.execVecFma v s
  | .vecMin v => Sys2Proof.Machine.execVecMin v s
  | .vecMax v => Sys2Proof.Machine.execVecMax v s
  | .vecAbs v => Sys2Proof.Machine.execVecAbs v s
  | .vecNeg v => Sys2Proof.Machine.execVecNeg v s
  | .relu v => Sys2Proof.Machine.execRelu v s
  | .vecClamp v => Sys2Proof.Machine.execVecClamp v s
  | .vecCmplt v => Sys2Proof.Machine.execVecCmplt v s
  | .vecCmpeq v => Sys2Proof.Machine.execVecCmpeq v s
  | .sel v => Sys2Proof.Machine.execSel v s
  | .vecAnd v => Sys2Proof.Machine.execVecAnd v s
  | .vecOr v => Sys2Proof.Machine.execVecOr v s
  | .vecXor v => Sys2Proof.Machine.execVecXor v s
  | .vecShl v => Sys2Proof.Machine.execVecShl v s
  | .vecShra v => Sys2Proof.Machine.execVecShra v s
  | .vecDiv v => Sys2Proof.Machine.execVecDiv v s
  | .vecSqrt v => Sys2Proof.Machine.execVecSqrt v s
  | .exp2 v => Sys2Proof.Machine.execExp2 v s
  | .log2 v => Sys2Proof.Machine.execLog2 v s
  | .rsum v => Sys2Proof.Machine.execRsum v s
  | .rmax v => Sys2Proof.Machine.execRmax v s
  | .rmin v => Sys2Proof.Machine.execRmin v s
  | .clear u => Sys2Proof.Machine.execClear u s
  | .gss u => Sys2Proof.Machine.execGss u s
  | .gsp u => Sys2Proof.Machine.execGsp u s
  | .factor id => Sys2Proof.Machine.execFactor id s
  | .solve id => Sys2Proof.Machine.execSolve id s
  | .resid id => Sys2Proof.Machine.execResid id s
  | .corr id => Sys2Proof.Machine.execCorr id s
  | .extadd e => Sys2Proof.Machine.execExtadd e s
  | .panel e => Sys2Proof.Machine.execPanel e s
  | .update e => Sys2Proof.Machine.execUpdate e s
  | .aluAdd t rd rs1 rs2 => Sys2Proof.Machine.execAluAdd t rd rs1 rs2 s
  | .aluSub t rd rs1 rs2 => Sys2Proof.Machine.execAluSub t rd rs1 rs2 s
  | .aluAnd t rd rs1 rs2 => Sys2Proof.Machine.execAluAnd t rd rs1 rs2 s
  | .aluOr t rd rs1 rs2 => Sys2Proof.Machine.execAluOr t rd rs1 rs2 s
  | .aluXor t rd rs1 rs2 => Sys2Proof.Machine.execAluXor t rd rs1 rs2 s
  | .aluAndn t rd rs1 rs2 => Sys2Proof.Machine.execAluAndn t rd rs1 rs2 s
  | .aluShl t rd rs1 rs2 => Sys2Proof.Machine.execAluShl t rd rs1 rs2 s
  | .aluShrl t rd rs1 rs2 => Sys2Proof.Machine.execAluShrl t rd rs1 rs2 s
  | .aluShra t rd rs1 rs2 => Sys2Proof.Machine.execAluShra t rd rs1 rs2 s
  | .aluCmpeq t rd rs1 rs2 => Sys2Proof.Machine.execAluCmpeq t rd rs1 rs2 s
  | .aluCmplt t rd rs1 rs2 => Sys2Proof.Machine.execAluCmplt t rd rs1 rs2 s
  | .aluCmpltu t rd rs1 rs2 => Sys2Proof.Machine.execAluCmpltu t rd rs1 rs2 s
  | .aluMullo t rd rs1 rs2 => Sys2Proof.Machine.execAluMullo t rd rs1 rs2 s
  | .aluMulhi t rd rs1 rs2 => Sys2Proof.Machine.execAluMulhi t rd rs1 rs2 s
  | .aluMulhiu t rd rs1 rs2 => Sys2Proof.Machine.execAluMulhiu t rd rs1 rs2 s
  | .aluDivs t rd rs1 rs2 => Sys2Proof.Machine.execAluDivs t rd rs1 rs2 s
  | .aluDivu t rd rs1 rs2 => Sys2Proof.Machine.execAluDivu t rd rs1 rs2 s
  | .aluMods t rd rs1 rs2 => Sys2Proof.Machine.execAluMods t rd rs1 rs2 s
  | .aluModu t rd rs1 rs2 => Sys2Proof.Machine.execAluModu t rd rs1 rs2 s
  | .aluMin t rd rs1 rs2 => Sys2Proof.Machine.execAluMin t rd rs1 rs2 s
  | .aluMax t rd rs1 rs2 => Sys2Proof.Machine.execAluMax t rd rs1 rs2 s
  | .aluMinu t rd rs1 rs2 => Sys2Proof.Machine.execAluMinu t rd rs1 rs2 s
  | .aluMaxu t rd rs1 rs2 => Sys2Proof.Machine.execAluMaxu t rd rs1 rs2 s
  | .aluClz t rd rs1 rs2 => Sys2Proof.Machine.execAluClz t rd rs1 rs2 s
  | .aluCtz t rd rs1 rs2 => Sys2Proof.Machine.execAluCtz t rd rs1 rs2 s
  | .aluPopc t rd rs1 rs2 => Sys2Proof.Machine.execAluPopc t rd rs1 rs2 s
  | .iadd t rd rs1 imm => Sys2Proof.Machine.execIadd t rd rs1 imm s
  | .iand t rd rs1 imm => Sys2Proof.Machine.execIand t rd rs1 imm s
  | .ior t rd rs1 imm => Sys2Proof.Machine.execIor t rd rs1 imm s
  | .ixor t rd rs1 imm => Sys2Proof.Machine.execIxor t rd rs1 imm s
  | .ishfShl t rd rs1 sh => Sys2Proof.Machine.execIshfShl t rd rs1 sh s
  | .ishfShrl t rd rs1 sh => Sys2Proof.Machine.execIshfShrl t rd rs1 sh s
  | .ishfShra t rd rs1 sh => Sys2Proof.Machine.execIshfShra t rd rs1 sh s
  | .icmplt t rd rs1 imm => Sys2Proof.Machine.execIcmplt t rd rs1 imm s
  | .ihi t rd imm => Sys2Proof.Machine.execIhi t rd imm s
  | .pchi t rd imm => Sys2Proof.Machine.execPchi t rd imm s
  | .ld8s t rd rs1 imm => Sys2Proof.Machine.execLd8s t rd rs1 imm s
  | .ld8u t rd rs1 imm => Sys2Proof.Machine.execLd8u t rd rs1 imm s
  | .ld16s t rd rs1 imm => Sys2Proof.Machine.execLd16s t rd rs1 imm s
  | .ld16u t rd rs1 imm => Sys2Proof.Machine.execLd16u t rd rs1 imm s
  | .ld32s t rd rs1 imm => Sys2Proof.Machine.execLd32s t rd rs1 imm s
  | .ld32u t rd rs1 imm => Sys2Proof.Machine.execLd32u t rd rs1 imm s
  | .ld64 t rd rs1 imm => Sys2Proof.Machine.execLd64 t rd rs1 imm s
  | .st8 t rs2 rs1 imm => Sys2Proof.Machine.execSt8 t rs2 rs1 imm s
  | .st16 t rs2 rs1 imm => Sys2Proof.Machine.execSt16 t rs2 rs1 imm s
  | .st32 t rs2 rs1 imm => Sys2Proof.Machine.execSt32 t rs2 rs1 imm s
  | .st64 t rs2 rs1 imm => Sys2Proof.Machine.execSt64 t rs2 rs1 imm s
  | .fld32 t fd rs1 imm => Sys2Proof.Machine.execFld32 t fd rs1 imm s
  | .fld64 t fd rs1 imm => Sys2Proof.Machine.execFld64 t fd rs1 imm s
  | .fst32 t fs2 rs1 imm => Sys2Proof.Machine.execFst32 t fs2 rs1 imm s
  | .fst64 t fs2 rs1 imm => Sys2Proof.Machine.execFst64 t fs2 rs1 imm s
  | .brz t rs1 cond off => Sys2Proof.Machine.execBrz t rs1 cond off s
  | .call t rd off => Sys2Proof.Machine.execCall t rd off s
  | .callr t rd rs1 imm => Sys2Proof.Machine.execCallr t rd rs1 imm s
  | .amoSwap t rd rs1 rs2 ord w => Sys2Proof.Machine.execAmoSwap t rd rs1 rs2 ord w s
  | .amoAdd t rd rs1 rs2 ord w => Sys2Proof.Machine.execAmoAdd t rd rs1 rs2 ord w s
  | .amoAnd t rd rs1 rs2 ord w => Sys2Proof.Machine.execAmoAnd t rd rs1 rs2 ord w s
  | .amoOr t rd rs1 rs2 ord w => Sys2Proof.Machine.execAmoOr t rd rs1 rs2 ord w s
  | .amoXor t rd rs1 rs2 ord w => Sys2Proof.Machine.execAmoXor t rd rs1 rs2 ord w s
  | .amoMin t rd rs1 rs2 ord w => Sys2Proof.Machine.execAmoMin t rd rs1 rs2 ord w s
  | .amoMax t rd rs1 rs2 ord w => Sys2Proof.Machine.execAmoMax t rd rs1 rs2 ord w s
  | .amoMinu t rd rs1 rs2 ord w => Sys2Proof.Machine.execAmoMinu t rd rs1 rs2 ord w s
  | .amoMaxu t rd rs1 rs2 ord w => Sys2Proof.Machine.execAmoMaxu t rd rs1 rs2 ord w s
  | .cas t rd rs1 rs2 ord w => Sys2Proof.Machine.execCas t rd rs1 rs2 ord w s
  | .amoFadd t rd rs1 rs2 ord w => Sys2Proof.Machine.execAmoFadd t rd rs1 rs2 ord w s
  | .addp t rd rs1 rs2 ord w => Sys2Proof.Machine.execAddp t rd rs1 rs2 ord w s
  | .ldacq t rd rs1 rs2 ord w => Sys2Proof.Machine.execLdacq t rd rs1 rs2 ord w s
  | .strel t rd rs1 rs2 ord w => Sys2Proof.Machine.execStrel t rd rs1 rs2 ord w s
  | .fenceL t => Sys2Proof.Machine.execFenceL t s
  | .fenceG t => Sys2Proof.Machine.execFenceG t s
  | .halt t => Sys2Proof.Machine.execHalt t s
  | .yield t => Sys2Proof.Machine.execYield t s
  | .fret t => Sys2Proof.Machine.execFret t s
  | .fadd t ty fd fs1 fs2 => Sys2Proof.Machine.execFadd t ty fd fs1 fs2 s
  | .fsub t ty fd fs1 fs2 => Sys2Proof.Machine.execFsub t ty fd fs1 fs2 s
  | .fmul t ty fd fs1 fs2 => Sys2Proof.Machine.execFmul t ty fd fs1 fs2 s
  | .fdiv t ty fd fs1 fs2 => Sys2Proof.Machine.execFdiv t ty fd fs1 fs2 s
  | .fsqrt t ty fd fs1 fs2 => Sys2Proof.Machine.execFsqrt t ty fd fs1 fs2 s
  | .fmin t ty fd fs1 fs2 => Sys2Proof.Machine.execFmin t ty fd fs1 fs2 s
  | .fmax t ty fd fs1 fs2 => Sys2Proof.Machine.execFmax t ty fd fs1 fs2 s
  | .fcpys t ty fd fs1 fs2 => Sys2Proof.Machine.execFcpys t ty fd fs1 fs2 s
  | .fcmpeq t ty rd fs1 fs2 => Sys2Proof.Machine.execFcmpeq t ty rd fs1 fs2 s
  | .fcmplt t ty rd fs1 fs2 => Sys2Proof.Machine.execFcmplt t ty rd fs1 fs2 s
  | .fcmple t ty rd fs1 fs2 => Sys2Proof.Machine.execFcmple t ty rd fs1 fs2 s
  | .fcvt t src dst fd fs1 => Sys2Proof.Machine.execFcvt t src dst fd fs1 s
  | .ftox t ty rd fs1 => Sys2Proof.Machine.execFtox t ty rd fs1 s
  | .xtof t ty fd rs1 => Sys2Proof.Machine.execXtof t ty fd rs1 s
  | .fmadd t ty var fd fs1 fs2 fs3 => Sys2Proof.Machine.execFmadd t ty var fd fs1 fs2 fs3 s
  | .csrRead t rd csr => Sys2Proof.Machine.execCsrRead t rd csr s
  | .csrWrite t rd rs1 csr => Sys2Proof.Machine.execCsrWrite t rd rs1 csr s
  | .wadd t et k z wd ws1 ws2 => Sys2Proof.Machine.execWadd t et k z wd ws1 ws2 s
  | .wsub t et k z wd ws1 ws2 => Sys2Proof.Machine.execWsub t et k z wd ws1 ws2 s
  | .wmul t et k z wd ws1 ws2 => Sys2Proof.Machine.execWmul t et k z wd ws1 ws2 s
  | .wdiv t et k z wd ws1 ws2 => Sys2Proof.Machine.execWdiv t et k z wd ws1 ws2 s
  | .wsqrt t et k z wd ws1 ws2 => Sys2Proof.Machine.execWsqrt t et k z wd ws1 ws2 s
  | .wmin t et k z wd ws1 ws2 => Sys2Proof.Machine.execWmin t et k z wd ws1 ws2 s
  | .wmax t et k z wd ws1 ws2 => Sys2Proof.Machine.execWmax t et k z wd ws1 ws2 s
  | .wabs t et k z wd ws1 ws2 => Sys2Proof.Machine.execWabs t et k z wd ws1 ws2 s
  | .wneg t et k z wd ws1 ws2 => Sys2Proof.Machine.execWneg t et k z wd ws1 ws2 s
  | .wsgnj t et k z wd ws1 ws2 => Sys2Proof.Machine.execWsgnj t et k z wd ws1 ws2 s
  | .wintAdd t et k z wd ws1 ws2 => Sys2Proof.Machine.execWintAdd t et k z wd ws1 ws2 s
  | .wintSub t et k z wd ws1 ws2 => Sys2Proof.Machine.execWintSub t et k z wd ws1 ws2 s
  | .wmullo t et k z wd ws1 ws2 => Sys2Proof.Machine.execWmullo t et k z wd ws1 ws2 s
  | .wmulhi t et k z wd ws1 ws2 => Sys2Proof.Machine.execWmulhi t et k z wd ws1 ws2 s
  | .wmulhiu t et k z wd ws1 ws2 => Sys2Proof.Machine.execWmulhiu t et k z wd ws1 ws2 s
  | .wintMin t et k z wd ws1 ws2 => Sys2Proof.Machine.execWintMin t et k z wd ws1 ws2 s
  | .wintMax t et k z wd ws1 ws2 => Sys2Proof.Machine.execWintMax t et k z wd ws1 ws2 s
  | .wminu t et k z wd ws1 ws2 => Sys2Proof.Machine.execWminu t et k z wd ws1 ws2 s
  | .wmaxu t et k z wd ws1 ws2 => Sys2Proof.Machine.execWmaxu t et k z wd ws1 ws2 s
  | .wand t et k z wd ws1 ws2 => Sys2Proof.Machine.execWand t et k z wd ws1 ws2 s
  | .wor t et k z wd ws1 ws2 => Sys2Proof.Machine.execWor t et k z wd ws1 ws2 s
  | .wxor t et k z wd ws1 ws2 => Sys2Proof.Machine.execWxor t et k z wd ws1 ws2 s
  | .wandn t et k z wd ws1 ws2 => Sys2Proof.Machine.execWandn t et k z wd ws1 ws2 s
  | .wshl t et k z wd ws1 ws2 => Sys2Proof.Machine.execWshl t et k z wd ws1 ws2 s
  | .wshr t et k z wd ws1 ws2 => Sys2Proof.Machine.execWshr t et k z wd ws1 ws2 s
  | .wshra t et k z wd ws1 ws2 => Sys2Proof.Machine.execWshra t et k z wd ws1 ws2 s
  | .wcmpEq t et k z kd ws1 ws2 => Sys2Proof.Machine.execWcmpEq t et k z kd ws1 ws2 s
  | .wcmpNe t et k z kd ws1 ws2 => Sys2Proof.Machine.execWcmpNe t et k z kd ws1 ws2 s
  | .wcmpLt t et k z kd ws1 ws2 => Sys2Proof.Machine.execWcmpLt t et k z kd ws1 ws2 s
  | .wcmpLe t et k z kd ws1 ws2 => Sys2Proof.Machine.execWcmpLe t et k z kd ws1 ws2 s
  | .wcmpLtu t et k z kd ws1 ws2 => Sys2Proof.Machine.execWcmpLtu t et k z kd ws1 ws2 s
  | .wcmpLeu t et k z kd ws1 ws2 => Sys2Proof.Machine.execWcmpLeu t et k z kd ws1 ws2 s
  | .wcmpUnord t et k z kd ws1 ws2 => Sys2Proof.Machine.execWcmpUnord t et k z kd ws1 ws2 s
  | .wmov t et k z wd ws1 => Sys2Proof.Machine.execWmov t et k z wd ws1 s
  | .wbcx t et k z wd rs1 => Sys2Proof.Machine.execWbcx t et k z wd rs1 s
  | .wbcf t et k z wd fs1 => Sys2Proof.Machine.execWbcf t et k z wd fs1 s
  | .wextx t et k z rd ws1 rs2 => Sys2Proof.Machine.execWextx t et k z rd ws1 rs2 s
  | .winsx t et k z wd rs1 rs2 => Sys2Proof.Machine.execWinsx t et k z wd rs1 rs2 s
  | .wperm t et k z wd ws1 ws2 => Sys2Proof.Machine.execWperm t et k z wd ws1 ws2 s
  | .wredadd t et k z wd ws1 => Sys2Proof.Machine.execWredadd t et k z wd ws1 s
  | .wredmax t et k z wd ws1 => Sys2Proof.Machine.execWredmax t et k z wd ws1 s
  | .wredmin t et k z wd ws1 => Sys2Proof.Machine.execWredmin t et k z wd ws1 s
  | .kmovx t kd rs1 => Sys2Proof.Machine.execKmovx t kd rs1 s
  | .xmovk t rd ks1 => Sys2Proof.Machine.execXmovk t rd ks1 s
  | .kand t kd ks1 ks2 => Sys2Proof.Machine.execKand t kd ks1 ks2 s
  | .kor t kd ks1 ks2 => Sys2Proof.Machine.execKor t kd ks1 ks2 s
  | .kxor t kd ks1 ks2 => Sys2Proof.Machine.execKxor t kd ks1 ks2 s
  | .knot t kd ks1 => Sys2Proof.Machine.execKnot t kd ks1 s
  | .wfma t ft k z wd ws1 ws2 ws3 => Sys2Proof.Machine.execWfma t ft k z wd ws1 ws2 ws3 s
  | .wfms t ft k z wd ws1 ws2 ws3 => Sys2Proof.Machine.execWfms t ft k z wd ws1 ws2 ws3 s
  | .wfnma t ft k z wd ws1 ws2 ws3 => Sys2Proof.Machine.execWfnma t ft k z wd ws1 ws2 ws3 s
  | .wfnms t ft k z wd ws1 ws2 ws3 => Sys2Proof.Machine.execWfnms t ft k z wd ws1 ws2 ws3 s
  | .mulwl t et k z wd ws1 ws2 => Sys2Proof.Machine.execMulwl t et k z wd ws1 ws2 s
  | .mulwh t et k z wd ws1 ws2 => Sys2Proof.Machine.execMulwh t et k z wd ws1 ws2 s
  | .mulwlu t et k z wd ws1 ws2 => Sys2Proof.Machine.execMulwlu t et k z wd ws1 ws2 s
  | .mulwhu t et k z wd ws1 ws2 => Sys2Proof.Machine.execMulwhu t et k z wd ws1 ws2 s
  | .fmulwl t et k z wd ws1 ws2 => Sys2Proof.Machine.execFmulwl t et k z wd ws1 ws2 s
  | .fmulwh t et k z wd ws1 ws2 => Sys2Proof.Machine.execFmulwh t et k z wd ws1 ws2 s
  | .fmawl t et k z wd ws1 ws2 => Sys2Proof.Machine.execFmawl t et k z wd ws1 ws2 s
  | .fmawh t et k z wd ws1 ws2 => Sys2Proof.Machine.execFmawh t et k z wd ws1 ws2 s
  | .dot4 t et k z wd ws1 ws2 => Sys2Proof.Machine.execDot4 t et k z wd ws1 ws2 s
  | .dot4u t et k z wd ws1 ws2 => Sys2Proof.Machine.execDot4u t et k z wd ws1 ws2 s
  | .dot4su t et k z wd ws1 ws2 => Sys2Proof.Machine.execDot4su t et k z wd ws1 ws2 s
  | .dot2 t et k z wd ws1 ws2 => Sys2Proof.Machine.execDot2 t et k z wd ws1 ws2 s
  | .dot8 t et k z wd ws1 ws2 => Sys2Proof.Machine.execDot8 t et k z wd ws1 ws2 s
  | .dot4w t et k z wd ws1 ws2 => Sys2Proof.Machine.execDot4w t et k z wd ws1 ws2 s
  | .fdot2h t et k z wd ws1 ws2 => Sys2Proof.Machine.execFdot2h t et k z wd ws1 ws2 s
  | .fdot2b t et k z wd ws1 ws2 => Sys2Proof.Machine.execFdot2b t et k z wd ws1 ws2 s
  | .fdot2s t et k z wd ws1 ws2 => Sys2Proof.Machine.execFdot2s t et k z wd ws1 ws2 s
  | .wcvt t src dst part k z wd ws1 => Sys2Proof.Machine.execWcvt t src dst part k z wd ws1 s
  | .wld t k wd rs1 off => Sys2Proof.Machine.execWld t k wd rs1 off s
  | .wst t k ws rs1 off => Sys2Proof.Machine.execWst t k ws rs1 off s
  | .wgsGather t et k scale wd rs1 ws2 => Sys2Proof.Machine.execWgsGather t et k scale wd rs1 ws2 s
  | .wgsScatter t et k scale wd rs1 ws2 => Sys2Proof.Machine.execWgsScatter t et k scale wd rs1 ws2 s
  | .wphilox t et k z wd ws1 ws2 => Sys2Proof.Machine.execWphilox t et k z wd ws1 ws2 s
  | .reqLoad q => Sys2Proof.Machine.execReqLoad q s
  | .reqStore q => Sys2Proof.Machine.execReqStore q s
  | .reqAtomic q => Sys2Proof.Machine.execReqAtomic q s
  | .reqAtomicP q => Sys2Proof.Machine.execReqAtomicP q s
  | .reqBlockAdd q => Sys2Proof.Machine.execReqBlockAdd q s
  | .reqMcast q mask seqs => Sys2Proof.Machine.execReqMcast q mask seqs s
  | .reqCollContrib q => Sys2Proof.Machine.execReqCollContrib q s
  | .reqCollResult q => Sys2Proof.Machine.execReqCollResult q s
  | .reqCollNotice q => Sys2Proof.Machine.execReqCollNotice q s
  | .reqCollFailed q => Sys2Proof.Machine.execReqCollFailed q s
  | .reqFloorUpd q => Sys2Proof.Machine.execReqFloorUpd q s
  | .reqNodeReport q => Sys2Proof.Machine.execReqNodeReport q s
  | .rspData p => Sys2Proof.Machine.execRspData p s
  | .rspAck p => Sys2Proof.Machine.execRspAck p s
  | .rspErr p => Sys2Proof.Machine.execRspErr p s
  | .requestResend tag dst => Sys2Proof.Machine.execRequestResend tag dst s
  | .deadTarget tag dst => Sys2Proof.Machine.execDeadTarget tag dst s
  | .deadFallback target => Sys2Proof.Machine.execDeadFallback target s
  | .ledgerExpiry src sys seq => Sys2Proof.Machine.execLedgerExpiry src sys seq s
  | .floorUpdSend dst sys => Sys2Proof.Machine.execFloorUpdSend dst sys s
  | .tailAtomic ring => Sys2Proof.Machine.execTailAtomic ring s
  | .ringPut ring => Sys2Proof.Machine.execRingPut ring s
  | .ringGet ring => Sys2Proof.Machine.execRingGet ring s
  | .ringMcast ring => Sys2Proof.Machine.execRingMcast ring s
  | .ringReduce ring => Sys2Proof.Machine.execRingReduce ring s
  | .ringAllreduce ring => Sys2Proof.Machine.execRingAllreduce ring s
  | .ringCollReduce ring => Sys2Proof.Machine.execRingCollReduce ring s
  | .ringBcast ring => Sys2Proof.Machine.execRingBcast ring s
  | .ringBarrier ring => Sys2Proof.Machine.execRingBarrier ring s
  | .ringDescDone ring index => Sys2Proof.Machine.execRingDescDone ring index s
  | .hredCloseReply => Sys2Proof.Machine.execHredCloseReply s
  | .collWatchdog cn => Sys2Proof.Machine.execCollWatchdog cn s
  | .orderedFoldDone => Sys2Proof.Machine.execOrderedFoldDone s
  | .scrubAccess a found => Sys2Proof.Machine.execScrubAccess a found s
  | .ceRateEval => Sys2Proof.Machine.execCeRateEval s
  | .sliceStart ch => Sys2Proof.Machine.execSliceStart ch s
  | .sliceEnd ch drift waited => Sys2Proof.Machine.execSliceEnd ch drift waited s
  | .retrainStart ch dirty => Sys2Proof.Machine.execRetrainStart ch dirty s
  | .retrainDrainDone ch => Sys2Proof.Machine.execRetrainDrainDone ch s
  | .retrainTrainDone ch res waited => Sys2Proof.Machine.execRetrainTrainDone ch res waited s
  | .retrainReplayDone ch => Sys2Proof.Machine.execRetrainReplayDone ch s
  | .evacuationDone ch => Sys2Proof.Machine.execEvacuationDone ch s
  | .linkFrame p f => Sys2Proof.Machine.execLinkFrame p f s
  | .packetForward p k spent => Sys2Proof.Machine.execPacketForward p k spent s
  | .linkStateRecord member port up => Sys2Proof.Machine.execLinkStateRecord member port up s
  | .fecRateEval p => Sys2Proof.Machine.execFecRateEval p s
  | .retuneEnd p ok => Sys2Proof.Machine.execRetuneEnd p ok s
  | .lightReady p => Sys2Proof.Machine.execLightReady p s
  | .rxPowerDetect p power => Sys2Proof.Machine.execRxPowerDetect p power s
  | .laneLock p => Sys2Proof.Machine.execLaneLock p s
  | .codewordLock p => Sys2Proof.Machine.execCodewordLock p s
  | .identityRecord p r => Sys2Proof.Machine.execIdentityRecord p r s
  | .keyExchange p m => Sys2Proof.Machine.execKeyExchange p m s
  | .portStateTimeout p => Sys2Proof.Machine.execPortStateTimeout p s
  | .lossOfLight p => Sys2Proof.Machine.execLossOfLight p s
  | .fportRetry p => Sys2Proof.Machine.execFportRetry p s
  | .laserRemove m => Sys2Proof.Machine.execLaserRemove m s
  | .laserInsert m valid => Sys2Proof.Machine.execLaserInsert m valid s
  | .adaptEnable => Sys2Proof.Machine.execAdaptEnable s
  | .bootPortRelease => Sys2Proof.Machine.execBootPortRelease s
  | .relayRead member off wide => Sys2Proof.Machine.execRelayRead member off wide s
  | .relayWrite member off wide v => Sys2Proof.Machine.execRelayWrite member off wide v s
  | .hbrRptPop => Sys2Proof.Machine.execHbrRptPop s
  | .quantum rises => Sys2Proof.Machine.execQuantum rises s
  | .pwrLoop mv da mw => Sys2Proof.Machine.execPwrLoop mv da mw s
  | .railFault rail => Sys2Proof.Machine.execRailFault rail s
  | .currentClamp rail => Sys2Proof.Machine.execCurrentClamp rail s
  | .currentClampRelease rail => Sys2Proof.Machine.execCurrentClampRelease rail s
  | .sensorSample sensor t => Sys2Proof.Machine.execSensorSample sensor t s
  | .thermalClampRelease die => Sys2Proof.Machine.execThermalClampRelease die s
  | .ageSample ms => Sys2Proof.Machine.execAgeSample ms s
  | .ageEval hbm links flashOk => Sys2Proof.Machine.execAgeEval hbm links flashOk s
  | .refclkLoss r => Sys2Proof.Machine.execRefclkLoss r s
  | .refclkFabReturn => Sys2Proof.Machine.execRefclkFabReturn s
  | .aonReset => Sys2Proof.Machine.execAonReset s
  | .powerOnReset => Sys2Proof.Machine.execPowerOnReset s
  | .warmReset => Sys2Proof.Machine.execWarmReset s
  | .resetRelease strap refs => Sys2Proof.Machine.execResetRelease strap refs s
  | .hostBridgeReset => Sys2Proof.Machine.execHostBridgeReset s
  | .settingsReadDone present => Sys2Proof.Machine.execSettingsReadDone present s
  | .ageLogReadDone => Sys2Proof.Machine.execAgeLogReadDone s
  | .hbmTrainDone failed ms => Sys2Proof.Machine.execHbmTrainDone failed ms s
  | .hbmScrubDone => Sys2Proof.Machine.execHbmScrubDone s
  | .fwpLoad fwp host len => Sys2Proof.Machine.execFwpLoad fwp host len s
  | .fwpImageStaged data => Sys2Proof.Machine.execFwpImageStaged data s
  | .fwpVerifyDone => Sys2Proof.Machine.execFwpVerifyDone s
  | .fwpWatchdog fwp pc => Sys2Proof.Machine.execFwpWatchdog fwp pc s
  | .fwpCrash fwp memory pc => Sys2Proof.Machine.execFwpCrash fwp memory pc s
  | .fwpRestartHashDone fwp => Sys2Proof.Machine.execFwpRestartHashDone fwp s
  | .heldClear fwp ms => Sys2Proof.Machine.execHeldClear fwp ms s
  | .cmdTakeUp which => Sys2Proof.Machine.execCmdTakeUp which s
  | .logDrain => Sys2Proof.Machine.execLogDrain s
  | .logRead n by_ => Sys2Proof.Machine.execLogRead n by_ s
  | .secIdentity => Sys2Proof.Machine.execSecIdentity s
  | .secOpen => Sys2Proof.Machine.execSecOpen s
  | .secFinish => Sys2Proof.Machine.execSecFinish s
  | .secClose => Sys2Proof.Machine.execSecClose s
  | .secReadout => Sys2Proof.Machine.execSecReadout s
  | .halfOpenTimeout => Sys2Proof.Machine.execHalfOpenTimeout s
  | .sealOpen => Sys2Proof.Machine.execSealOpen s
  | .lcyProvision present => Sys2Proof.Machine.execLcyProvision present s
  | .lcyDeploy present => Sys2Proof.Machine.execLcyDeploy present s
  | .lcyService present => Sys2Proof.Machine.execLcyService present s
  | .lcyRetire present => Sys2Proof.Machine.execLcyRetire present s
  | .clearIn host loc len buffer => Sys2Proof.Machine.execClearIn host loc len buffer s
  | .clearOut host loc len buffer => Sys2Proof.Machine.execClearOut host loc len buffer s
  | .sealedIn host loc len buffer => Sys2Proof.Machine.execSealedIn host loc len buffer s
  | .sealedOut host loc len buffer => Sys2Proof.Machine.execSealedOut host loc len buffer s
  | .hostXferChunk data => Sys2Proof.Machine.execHostXferChunk data s
  | .flashRead a n => Sys2Proof.Machine.execFlashRead a n s
  | .flashProgram a n data present => Sys2Proof.Machine.execFlashProgram a n data present s
  | .flashErase a present => Sys2Proof.Machine.execFlashErase a present s
  | .errCodeClear page => Sys2Proof.Machine.execErrCodeClear page s
  | .registerWrite by_ a bytes v => Sys2Proof.Machine.execRegisterWrite by_ a bytes v s
  | .bcastRead by_ a => Sys2Proof.Machine.execBcastRead by_ a s
  | .registerReadRefused by_ a bytes => Sys2Proof.Machine.execRegisterReadRefused by_ a bytes s
  | .setEndpointId op eid => Sys2Proof.Machine.execSetEndpointId op eid s
  | .getEndpointId => Sys2Proof.Machine.execGetEndpointId s
  | .getMctpVersionSupport typ => Sys2Proof.Machine.execGetMctpVersionSupport typ s
  | .getMessageTypeSupport => Sys2Proof.Machine.execGetMessageTypeSupport s
  | .getTid => Sys2Proof.Machine.execGetTid s
  | .getPldmVersion typ => Sys2Proof.Machine.execGetPldmVersion typ s
  | .getPldmTypes => Sys2Proof.Machine.execGetPldmTypes s
  | .getPldmCommands typ => Sys2Proof.Machine.execGetPldmCommands typ s
  | .getPdrRepositoryInfo => Sys2Proof.Machine.execGetPdrRepositoryInfo s
  | .getPdr handle => Sys2Proof.Machine.execGetPdr handle s
  | .getSensorReading sensor => Sys2Proof.Machine.execGetSensorReading sensor s
  | .pollForPlatformEventMessage => Sys2Proof.Machine.execPollForPlatformEventMessage s
  | .smbusAlertResponse => Sys2Proof.Machine.execSmbusAlertResponse s
  | .tapExtest dr => Sys2Proof.Machine.execTapExtest dr s
  | .tapIdcode dr => Sys2Proof.Machine.execTapIdcode dr s
  | .tapSamplePreload dr => Sys2Proof.Machine.execTapSamplePreload dr s
  | .tapClamp dr => Sys2Proof.Machine.execTapClamp dr s
  | .tapHighz dr => Sys2Proof.Machine.execTapHighz dr s
  | .tapExtestPulse dr => Sys2Proof.Machine.execTapExtestPulse dr s
  | .tapExtestTrain dr => Sys2Proof.Machine.execTapExtestTrain dr s
  | .tapBypass dr => Sys2Proof.Machine.execTapBypass dr s
  | .dbgBridgeRead a => Sys2Proof.Machine.execDbgBridgeRead a s
  | .dbgBridgeWrite a v => Sys2Proof.Machine.execDbgBridgeWrite a v s
  | .tapReset => Sys2Proof.Machine.execTapReset s
  | .presenceLapse => Sys2Proof.Machine.execPresenceLapse s
  | .laserFault m => Sys2Proof.Machine.execLaserFault m s
  | .perstNRise => Sys2Proof.Machine.execPerstNRise s
  | .pcieLinkUp flit x16 rate => Sys2Proof.Machine.execPcieLinkUp flit x16 rate s
  | .refclkPcieReturn => Sys2Proof.Machine.execRefclkPcieReturn s
  | .clampLevelRestore => Sys2Proof.Machine.execClampLevelRestore s
  | .marginScanDone link unit width height => Sys2Proof.Machine.execMarginScanDone link unit width height s
  | .reqObjPut q => Sys2Proof.Machine.execReqObjPut q s
  | .reqObjGet q => Sys2Proof.Machine.execReqObjGet q s

end Sys2Proof.Machine
end

