-- ==== Sys2Proof/Safety.lean ====
section
/-!
DEFINITION. What counts as a safe run, and the words in which the statements say what a command does: that it completes, what a
thread wrote, what a store left in memory, and what stayed as it was.
-/

namespace Sys2Proof.Machine

/-- The invariant of every state: local memory is in its canonical form, keys rising and no byte listed that reads as 0 anyway. -/
def State.Inv (s : State) : Prop := Memory.wf s.mem

/-- A step answers a next state. -/
def State.Goes (s : State) : Prop := ∃ t, step s = .next t

/-- A state from which `k` steps run without a fault or a refusal. -/
def SafeFor : Nat → State → Prop
  | 0, _ => True
  | k + 1, s => ∃ t, step s = .next t ∧ SafeFor k t

/-- The command answers a next state, and `P` holds of it. -/
def Completes (c : Instr) (s : State) (P : State → Prop) : Prop := ∃ u, exec c s = .next u ∧ P u

/-! ### Threads of the cores -/

/-- The thread issues the instruction of word `w`, fields of `ign` aside: it runs, its core and the memory of the image are clocked,
its pc lies in the image, and the word there is this instruction (R13, R122, R123, R126, R134). -/
def State.canRun (s : State) (t : Fin 512) (w : Nat) (ign : Nat := noField) : Prop :=
  s.threadReady t.val = true ∧ s.domainsRun [3, 4] = true ∧ s.hbmRuns = true ∧ s.fetchOk t.val = true ∧
  reservedWord (s.coreRead (t.val / 8) (s.thread t.val).pc.toNat 4).1 = false ∧
  sameWord (s.coreRead (t.val / 8) (s.thread t.val).pc.toNat 4).1 w ign = true

/-- The node once the thread has fetched its instruction and used an issue slot: the state in which the instruction's own effect
takes place. -/
def State.issued (s : State) (t : Fin 512) : State :=
  (s.coreRead (t.val / 8) (s.thread t.val).pc.toNat 4).2.issueCycle t.val

/-- The command runs on thread `t`, whose next instruction is the word `w`, fields of `ign` aside: it answers a next state, and `P`
relates the node as issued to it. -/
def Issues (c : Instr) (t : Fin 512) (w : Nat) (s : State) (P : State → State → Prop) (ign : Nat := noField) : Prop :=
  s.canRun t w ign → ∃ u, exec c s = .next u ∧ P (s.issued t) u

/-- The registers in which accesses to memory count: LLM_HIT and LLM_MISS, CORE_BUSY_CYC, PUNC_DIR_MISS and PUNC_DIR_INVAL,
HBMC_XTS_DENY, HBMCH_POISON_RD, HBMCH_CAL_STAT with its READS_WAITING, HBMCH_ALLEY_LINES and HBMCH_ALLEY_FULL, and MSA_ATOMICS. -/
def countReg (k : Nat) : Bool :=
  [(0x14, 0x088), (0x14, 0x090), (0x15, 0x0B0), (0x16, 0x090), (0x16, 0x098), (0x18, 0x098), (0x19, 0x090), (0x19, 0x0A0),
    (0x19, 0x0AC), (0x19, 0x0B0), (0x1A, 0x088)].contains (k / 4096 / 512, k % 4096)

/-- The registers in which accesses count are the only ones that differ, and of HBMCH_CAL_STAT only READS_WAITING. -/
def onlyCounts (s u : State) : Prop :=
  (∀ k, countReg k = false → u.regGet k = s.regGet k) ∧
  ∀ i, u.rd rHbmchCalStat i % 2 ^ 24 = s.rd rHbmchCalStat i % 2 ^ 24

/-- No thread but `t` differs. -/
def otherThreads (s u : State) (t : Fin 512) : Prop := ∀ k, k ≠ t.val → u.thread k = s.thread k

/-- What fetching and issuing an instruction leaves: the thread has spent cycles, its caches may hold other lines, and what
accesses count has been counted; nothing else differs. -/
def onlyIssued (s u : State) (t : Fin 512) : Prop :=
  u = { s with fresh := u.fresh, dir := u.dir, regs := u.regs, threads := u.threads } ∧ onlyCounts s u ∧ otherThreads s u t ∧
  u.thread t.val = { s.thread t.val with cycles := (u.thread t.val).cycles } ∧ (s.thread t.val).cycles < (u.thread t.val).cycles

/-- No part of the node differs but the thread. -/
def onlyThread (s u : State) (t : Fin 512) : Prop :=
  u = { s with threads := u.threads } ∧ otherThreads s u t

/-- The thread moved past a 4-byte instruction and wrote register x `rd`; nothing else of the node changed. -/
def wroteX (t : Fin 512) (rd : BitVec 5) (v : Word) (s u : State) : Prop :=
  onlyThread s u t ∧ u.thread t.val = { s.thread t.val with x := (u.thread t.val).x, pc := (s.thread t.val).pc + 4 } ∧
  (u.thread t.val).getX rd = v ∧ ∀ r, r ≠ rd → (u.thread t.val).getX r = (s.thread t.val).getX r

/-- The same with the sticky flags `fl` raised in FPSTAT. -/
def wroteXFlags (t : Fin 512) (rd : BitVec 5) (v : Word) (fl : Flags) (s u : State) : Prop :=
  onlyThread s u t ∧
  u.thread t.val = { s.thread t.val with
    x := (u.thread t.val).x, pc := (s.thread t.val).pc + 4
    fpstat := (s.thread t.val).fpstat ||| BitVec.ofNat 64 fl.bits } ∧
  (u.thread t.val).getX rd = v ∧ ∀ r, r ≠ rd → (u.thread t.val).getX r = (s.thread t.val).getX r

/-- The thread moved past its instruction, wrote register w `wd` and raised the sticky flags `fl`; nothing else changed. -/
def wroteW (t : Fin 512) (wd : BitVec 5) (v : Wide) (fl : Flags) (s u : State) : Prop :=
  onlyThread s u t ∧
  u.thread t.val = { s.thread t.val with
    w := (u.thread t.val).w, pc := (s.thread t.val).pc + 4
    fpstat := (s.thread t.val).fpstat ||| BitVec.ofNat 64 fl.bits } ∧
  (u.thread t.val).getW wd = v ∧ ∀ r, r ≠ wd → (u.thread t.val).getW r = (s.thread t.val).getW r

/-- A scalar floating-point result: the low 64 bits of w `fd`, the others clear (R135). -/
def wroteF (t : Fin 512) (fd : BitVec 5) (r : Nat × Flags) (s u : State) : Prop :=
  wroteW t fd (BitVec.ofNat 512 (r.1 % 2 ^ 64)) r.2 s u

/-- The thread moved past its instruction, wrote mask register `kd` and raised the sticky flags `fl`; nothing else changed. -/
def wroteK (t : Fin 512) (kd : Nat) (v : Word) (fl : Flags) (s u : State) : Prop :=
  onlyThread s u t ∧
  u.thread t.val = { s.thread t.val with
    k := (u.thread t.val).k, pc := (s.thread t.val).pc + 4
    fpstat := (s.thread t.val).fpstat ||| BitVec.ofNat 64 fl.bits } ∧
  (u.thread t.val).getK kd = v ∧ ∀ r, r ≠ kd → (u.thread t.val).getK r = (s.thread t.val).getK r

/-- The flags that the active ones of `n` elements raise (R138). -/
def activeFlags (th : Thread) (k : BitVec 3) (n : Nat) (f : Nat → Nat × Flags) : Flags :=
  ((upTo n).filter fun i => th.active k i).foldl (fun a i => a.or (f i).2) {}

/-- Element-wise result (R138): an active element takes its value, an inactive one keeps the old value or becomes 0; the flags
of the active elements are raised; no other register and no other part of the node changed. -/
def wroteElems (t : Fin 512) (w n : Nat) (k : BitVec 3) (z : Bool) (wd : BitVec 5) (f : Nat → Nat × Flags) (s u : State) : Prop :=
  onlyThread s u t ∧
  u.thread t.val = { s.thread t.val with
    w := (u.thread t.val).w, pc := (s.thread t.val).pc + 4
    fpstat := (s.thread t.val).fpstat ||| BitVec.ofNat 64 (activeFlags (s.thread t.val) k n f).bits } ∧
  (∀ i, i < n → wideElem ((u.thread t.val).getW wd) w i =
    if (s.thread t.val).active k i then (f i).1 % 2 ^ w
    else if z then 0 else wideElem ((s.thread t.val).getW wd) w i) ∧
  ∀ r, r ≠ wd → (u.thread t.val).getW r = (s.thread t.val).getW r

/-- The thread took a fault (R128, Table 7-16): FCAUSE, FEPC and FADDR hold the code, the address of the instruction and the
data address; with a handler the thread runs on at it, with none it is FAULTED where it stood; no other register of it changed.
CORE_FAULTS counts it, the core's first fault stands in its fault registers, and nothing else changed but the pages of the core
and of the host bridge, and its interrupt, sent or pending (R246, R357). -/
def tookFault (t : Fin 512) (code : Nat) (fepc faddr : Word) (s u : State) : Prop :=
  let a := s.thread t.val
  let core := t.val / 8
  u = { s with threads := u.threads, regs := u.regs, out := u.out, hbr := { s.hbr with msixPend := u.hbr.msixPend } } ∧
  otherThreads s u t ∧
  u.thread t.val = { a with
    fcause := BitVec.ofNat 64 code, fepc := fepc, faddr := faddr, wait := none
    run := if a.handler = 0 then .faulted else .running
    inHandler := decide (a.handler ≠ 0) || a.inHandler
    pc := if a.handler = 0 then a.pc else BitVec.ofNat 64 s.imgBase + a.handler } ∧
  (∀ k, k / 4096 / 512 ≠ tyCore → k / 4096 / 512 ≠ tyHbr → u.regGet k = s.regGet k) ∧
  u.rd rCoreFaults core = min (s.rd rCoreFaults core + 1) 0xFFFFFFFF ∧
  (s.rd rCoreFaults core = 0 → u.rd rCoreFaultPc core = fepc.toNat ∧ u.rd rCoreFaultAddr core = faddr.toNat)

/-! ### Memory -/

/-- Every byte of local memory reads as before. -/
def sameMemory (s u : State) : Prop := ∀ x, u.peek x = s.peek x

/-- The `n` bytes at `a` read as the little-endian bytes of `v`; every other byte of local memory reads as before. -/
def storedAt (a n v : Nat) (s u : State) : Prop :=
  ∀ x, u.peek x = if a ≤ x ∧ x < a + n then BitVec.ofNat 8 (v / 2 ^ (8 * (x - a))) else s.peek x

/-- The little-endian number that `n` bytes of local memory hold. -/
def State.numAt (s : State) (a n : Nat) : Nat := natLE (s.peekN a n)

/-- Nothing of the node changed but the thread, the caches and what accesses count (R12, R153, R163, R166, R171). -/
def onlyRead (s u : State) (t : Fin 512) : Prop :=
  u = { s with fresh := u.fresh, dir := u.dir, regs := u.regs, threads := u.threads } ∧ onlyCounts s u ∧ otherThreads s u t

/-- Nothing of the node changed but the parts of `onlyRead`, local memory with the keys of its lines, and the lines pinned in the
Alley (R165, R172). -/
def onlyAccess (s u : State) (t : Fin 512) : Prop :=
  u = { s with
    fresh := u.fresh, dir := u.dir, regs := u.regs, threads := u.threads, mem := u.mem, lineKey := u.lineKey
    cal := { s.cal with pinned := u.cal.pinned } } ∧ onlyCounts s u ∧ otherThreads s u t

/-- What an atomic on local memory may change: the parts of `onlyAccess`, and the rings it wakes (R214). -/
def onlyAtomic (s u : State) (t : Fin 512) : Prop :=
  u = { s with
    fresh := u.fresh, dir := u.dir, regs := u.regs, threads := u.threads, mem := u.mem, lineKey := u.lineKey
    cal := { s.cal with pinned := u.cal.pinned }
    fxp := { s.fxp with woken := u.fxp.woken } } ∧ onlyCounts s u ∧ otherThreads s u t

/-- A core's access of `n` bytes leads to a local address whose memory is clocked (R13, R125, R126, R147). -/
def State.leads (s : State) (addr : Word) (a n : Nat) : Prop := s.coreAddr addr n = .local a ∧ s.addrRuns a = true

/-- An access of `n` bytes at a local address: aligned, on this node, reached by job traffic, its memory clocked and its line neither
poisoned, denied nor fenced (R13, R125, R126, R147, R163, R166, R179). -/
def State.reaches (s : State) (addr : Word) (a n : Nat) : Prop := s.leads addr a n ∧ ∃ k, s.lineState a = .plain k

/-! ### Engines -/

/-- Of the registers, only those of `offs` on the engine's page differ. -/
def onlyRegs (ty inst : Nat) (offs : List Nat) (s u : State) : Prop :=
  ∀ k, (∀ o ∈ offs, k ≠ regKey ty inst o) → u.regGet k = s.regGet k

/-- Of the registers, only those of `offs` on the engine's page and those in which accesses to memory count differ. -/
def onlyRegsRead (ty inst : Nat) (offs : List Nat) (s u : State) : Prop :=
  (∀ k, countReg k = false → (∀ o ∈ offs, k ≠ regKey ty inst o) → u.regGet k = s.regGet k) ∧
  ∀ i, u.rd rHbmchCalStat i % 2 ^ 24 = s.rd rHbmchCalStat i % 2 ^ 24

/-- The byte of local memory at `a` holds part of the element of index `i`: of its encoding, one of eight slices in W64S, or its
scale (R27, R41, R50, R52). -/
def Field.covers (f : Field) (i : Idx) (a : Nat) : Prop :=
  (∃ j : Idx, (j = i ∨ f.fmt = .w64s ∧ ∃ p, p < 8 ∧ j = [i.getD 0 0, i.getD 1 0, i.getD 2 0, p]) ∧
    f.bitAddr j / 8 ≤ a ∧ 8 * a < f.bitAddr j + f.fmt.bits) ∨
  ((f.mx = true ∨ f.fmt = .w64s) ∧ a = f.scaleAddr i)

/-- What an engine that writes local memory may change beside itself and registers: memory with the keys of its lines, the caches,
the lines pinned in the Alley, and its page's interrupt, sent or pending (R12, R165, R172, R357). -/
def State.stored (s u : State) : State :=
  { s with
    fresh := u.fresh, dir := u.dir, regs := u.regs, mem := u.mem, lineKey := u.lineKey, out := u.out
    cal := { s.cal with pinned := u.cal.pinned }
    hbr := { s.hbr with msixPend := u.hbr.msixPend } }

/-- The storage of a vector engine outside a region holds what it held. -/
def Vec.keeps (r : VecRegion) (x y : Vec) : Prop :=
  (∀ k, (∀ first words, r = .file first words → k < first ∨ first + words ≤ k) → SMap.get 0 y.file k = SMap.get 0 x.file k) ∧
  ∀ k, (∀ buf first count, r = .rows buf first count → k < (buf * 128 + first) * 128 ∨ (buf * 128 + first + count) * 128 ≤ k) →
    SMap.get 0 y.bufs k = SMap.get 0 x.bufs k

/-- Vector engine `v` wrote `f k` to each element `k` of a region under a TYPE, its stream went on, and VEC_INSTR_DONE counted the
instruction (R85, R88); the rest of its storage and every other engine hold what they held. -/
def vecWrote (v : Fin 16) (ty : Nat) (r : VecRegion) (f : Nat → Nat) (s u : State) : Prop :=
  let x := s.vec v.val
  let y := u.vec v.val
  u = { s with vecs := u.vecs, regs := u.regs, fresh := u.fresh } ∧ (∀ w, w ≠ v.val → u.vec w = s.vec w) ∧
  y = { x.advance with file := y.file, bufs := y.bufs } ∧ Vec.keeps r x y ∧
  (∀ k, k < r.length ty → (y.readRegion ty r).getD k 0 = f k % 2 ^ (vecFmt ty).bits) ∧
  u.rd rVecInstrDone v.val = min (s.rd rVecInstrDone v.val + 1) 0xFFFFFFFF

/-- An arithmetic instruction of a vector engine: the results are written, VEC_INVALID counts `bad` more NaNs, and of the registers
only it, VEC_STAT, VEC_INSTR_DONE and VEC_BUSY_CYC differ (R87, R94). -/
def vecComputed (v : Fin 16) (ty : Nat) (r : VecRegion) (f : Nat → Nat) (bad : Nat) (s u : State) : Prop :=
  vecWrote v ty r f s u ∧ u.rd rVecInvalid v.val = min (s.rd rVecInvalid v.val + bad) 0xFFFFFFFF ∧
  onlyRegs tyVec v.val [0x080, 0x084, 0x098, 0x0A0] s u

/-- An element-wise instruction: element `k` takes the value of `f k`, and those that `f` marks are NaNs of operands that are none
(R87). -/
def vecMapped (v : Fin 16) (i : VecInstr) (f : Nat → Nat × Bool) (s u : State) : Prop :=
  let r := vecRegion (s.vec v.val).modeB i.dst
  vecComputed v i.ty r (fun k => (f k).1) ((List.range (r.length i.ty)).filter fun k => (f k).2).length s u

/-- Of the registers, only those of the engine's page, those of the host bridge's page, in which its interrupt shows, and those in
which accesses to memory count differ. -/
def onlyPage (ty inst : Nat) (s u : State) : Prop :=
  (∀ k, countReg k = false → k / 4096 ≠ ty * 512 + inst → k / 4096 / 512 ≠ tyHbr → u.regGet k = s.regGet k) ∧
  ∀ i, u.rd rHbmchCalStat i % 2 ^ 24 = s.rd rHbmchCalStat i % 2 ^ 24

/-- Tile `t` ran a command of its stream, which TILE_CMD_DONE counts; no other tile, no engine, no memory and no register but the
tile's own and those that memory accesses and its interrupt show in differ (R56, R60). -/
def tileRan (t : Fin 256) (s u : State) : Prop :=
  u = { s with
    tiles := u.tiles, regs := u.regs, fresh := u.fresh, out := u.out, hbr := { s.hbr with msixPend := u.hbr.msixPend } } ∧ (∀ w, w ≠ t.val → u.tile w = s.tile w) ∧
  u.rd rTileCmdDone t.val = min (s.rd rTileCmdDone t.val + 1) 0xFFFFFFFF ∧ onlyPage tyTile t.val s u

/-- The index of the element that row `i` and column `j` of a result take in its field (Table 4-7, ORIENT). -/
def ResDesc.index (d : ResDesc) (i j : Nat) : Idx :=
  if d.orient then idxAdd (idxAdd d.start 1 j) 0 i else idxAdd (idxAdd d.start 1 i) 0 j

/-- The index of number `q` of the four elements that hold the record of row `i` and column `j` (R64, R77). -/
def ResDesc.recordIndex (d : ResDesc) (i j q : Nat) : Idx :=
  if d.orient then idxAdd (idxAdd d.start 1 j) 0 (4 * i + q) else idxAdd (idxAdd d.start 1 i) 0 (4 * j + q)

/-! ### Host commands -/

/-- SCH takes a host command up at once: the window is open, neither PENDING nor BUSY is set, and SCH is not held (R342, R345). -/
def State.hostReady (s : State) : Prop :=
  s.boot.held = false ∧ s.flag rHifStat 0 = false ∧ s.flag rHifRsp 0 = false ∧ s.down 4 = false

/-- The node as SCH carries the command out: the arguments and the command written, BUSY set (R345). -/
def State.hostTakes (s : State) (op : Nat) (seq : BitVec 16) (args : List (Nat × Word)) : State :=
  let t := args.foldl (fun t x => t.wr rHifArg x.2.toNat 0 (8 * x.1)) s
  let w := ((t.wr rHifCmd ((seq.toNat * 2 ^ 16 + op) &&& 0xFFFF00FF)).setFld rHifRsp 1 0 0).setFlag rHifStat 0 true
  ({ w with sched := { w.sched with cmd := none } }).setFlag rHifRsp 0 true

/-- HIF_RSP holds SEQ, the code and DONE with BUSY clear, and PENDING is clear (R345). -/
def answered (seq : BitVec 16) (err : Nat) (u : State) : Prop :=
  u.rd rHifRsp = seq.toNat * 2 ^ 16 + err * 2 ^ 8 + 2 ∧ u.flag rHifStat 0 = false

/-- The newest event record has a kind and an error code (R37). -/
def posted (kind err : Nat) (u : State) : Prop := ∃ e, u.sched.events.getLast? = some e ∧ e.kind = kind ∧ e.err = err

/-! ### Commands of the enclave -/

/-- SEC takes a command of SEC_CMD up at once: the window is open, neither PENDING nor BUSY is set, and SEC is not held. -/
def State.secReady (s : State) : Prop :=
  s.boot.held = false ∧ s.flag rHifStat 1 = false ∧ s.flag rSecRsp 0 = false ∧ s.secUp = true

/-- SEC_RSP holds the code and DONE with BUSY clear, and PENDING is clear (Table 16-10). -/
def secAnswered (err : Nat) (u : State) : Prop := u.rd rSecRsp = err * 2 ^ 8 + 2 ∧ u.flag rHifStat 1 = false

/-- A SEC command is refused with a code that ERR_CODE shows too; the session stays (R316, R324). -/
def secRefused (err : Nat) (s u : State) : Prop :=
  secAnswered err u ∧ u.hdr tySec 0 hErrCode = err ∧ u.sessState = s.sessState ∧ u.sec.half = s.sec.half

end Sys2Proof.Machine
end

