-- ==== Sys2Proof/Certificates/Slice0/Obligations.lean ====
section
/-!
DEFINITION. The statements for the provers, by the chapters of the spec.
-/

open Sys2Proof Sys2Proof.Machine
/-! ### The machine as a whole -/

/-- For every command and state: with the command at the front of the queue, a step carries it out with the rest of the queue in place; on
an empty queue the fabric side goes on, firmware kicks its watchdogs, lanes lock, and what happens to memory between commands happens (log entries 1
and 89, DESIGN CHOICE). -/
def Obligations.StepRunsFrontCommand : Prop :=
  (∀ (c : Instr) (s : State) (rest : List Instr), s.pending = c :: rest → step s = exec c { s with pending := rest }) ∧
  ∀ s : State, s.pending = [] → step s = .next s.idleStep

/-- From every state whose memory is in its canonical form, a step answers a next state, never a fault or a refusal; the memory of that
state is in its canonical form, and the step has taken exactly the front command off the queue. The model's own choices in it: log entries
1, 89. -/
def Obligations.EveryStepKeepsMemoryAndQueue : Prop :=
  ∀ s : State, s.Inv → ∃ u, step s = .next u ∧ u.Inv ∧ u.pending = s.pending.tail

/-- Every command is carried out in every state, whatever its operands: no command stops the node. The model's own choices in it: log
entries 12, 79. -/
def Obligations.NoCommandStopsTheNode : Prop :=
  ∀ (c : Instr) (s : State), ∃ u, exec c s = .next u ∧ u.pending = s.pending

/-- The state after reset satisfies the invariant, has nothing queued and nothing in memory, no job, no thread, and every register of the
window reads its reset value. The model's own choices in it: log entries 3, 4, 5, 8. -/
def Obligations.ResetStateMeetsInvariant : Prop :=
  State.reset.Inv ∧ State.reset.pending = [] ∧ State.reset.job = none ∧ (∀ a, State.reset.peek a = 0#8) ∧
  (∀ t, (State.reset.thread t).run = .idle) ∧ ∀ k, State.reset.regGet k = regDefault k

/-! ### Integer instructions of the cores (Table 7-6) -/

/-- The register-register instructions: each writes rd with its result from rs1 and rs2 as they were, moves past the instruction, and
changes nothing else of the node. -/
def Obligations.CoreRegisterResults : Prop :=
  ∀ (s : State) (t : Fin 512) (rd rs1 rs2 : BitVec 5),
    let a := (s.thread t.val).getX rs1
    let b := (s.thread t.val).getX rs2
    Issues (.aluAdd t rd rs1 rs2) t (encReg 0x01 rd rs1 rs2 0) s (wroteX t rd (a + b)) ∧
    Issues (.aluSub t rd rs1 rs2) t (encReg 0x01 rd rs1 rs2 1) s (wroteX t rd (a - b)) ∧
    Issues (.aluAnd t rd rs1 rs2) t (encReg 0x01 rd rs1 rs2 2) s (wroteX t rd (a &&& b)) ∧
    Issues (.aluOr t rd rs1 rs2) t (encReg 0x01 rd rs1 rs2 3) s (wroteX t rd (a ||| b)) ∧
    Issues (.aluXor t rd rs1 rs2) t (encReg 0x01 rd rs1 rs2 4) s (wroteX t rd (a ^^^ b)) ∧
    Issues (.aluAndn t rd rs1 rs2) t (encReg 0x01 rd rs1 rs2 5) s (wroteX t rd (a &&& ~~~b)) ∧
    Issues (.aluShl t rd rs1 rs2) t (encReg 0x01 rd rs1 rs2 6) s (wroteX t rd (a <<< (b.toNat % 64))) ∧
    Issues (.aluShrl t rd rs1 rs2) t (encReg 0x01 rd rs1 rs2 7) s (wroteX t rd (a >>> (b.toNat % 64))) ∧
    Issues (.aluShra t rd rs1 rs2) t (encReg 0x01 rd rs1 rs2 8) s (wroteX t rd (a.sshiftRight (b.toNat % 64))) ∧
    Issues (.aluCmpeq t rd rs1 rs2) t (encReg 0x01 rd rs1 rs2 9) s (wroteX t rd (if a = b then 1 else 0)) ∧
    Issues (.aluCmplt t rd rs1 rs2) t (encReg 0x01 rd rs1 rs2 10) s (wroteX t rd (if a.toInt < b.toInt then 1 else 0)) ∧
    Issues (.aluCmpltu t rd rs1 rs2) t (encReg 0x01 rd rs1 rs2 11) s (wroteX t rd (if a.toNat < b.toNat then 1 else 0)) ∧
    Issues (.aluMullo t rd rs1 rs2) t (encReg 0x01 rd rs1 rs2 12) s (wroteX t rd (BitVec.ofNat 64 (a.toNat * b.toNat))) ∧
    Issues (.aluMulhi t rd rs1 rs2) t (encReg 0x01 rd rs1 rs2 13) s
      (wroteX t rd (BitVec.ofInt 64 (a.toInt * b.toInt / 18446744073709551616))) ∧
    Issues (.aluMulhiu t rd rs1 rs2) t (encReg 0x01 rd rs1 rs2 14) s
      (wroteX t rd (BitVec.ofNat 64 (a.toNat * b.toNat / 18446744073709551616))) ∧
    Issues (.aluMin t rd rs1 rs2) t (encReg 0x01 rd rs1 rs2 19) s (wroteX t rd (if a.toInt ≤ b.toInt then a else b)) ∧
    Issues (.aluMax t rd rs1 rs2) t (encReg 0x01 rd rs1 rs2 20) s (wroteX t rd (if b.toInt ≤ a.toInt then a else b)) ∧
    Issues (.aluMinu t rd rs1 rs2) t (encReg 0x01 rd rs1 rs2 21) s (wroteX t rd (if a.toNat ≤ b.toNat then a else b)) ∧
    Issues (.aluMaxu t rd rs1 rs2) t (encReg 0x01 rd rs1 rs2 22) s (wroteX t rd (if b.toNat ≤ a.toNat then a else b))

/-- Division, counting and the immediate forms. Dividing by zero gives 0 and its remainder is the dividend; quotients go towards zero. CLZ
and CTZ of 0 give 64. The 16-bit immediate is sign-extended, the shift amount is 6 bits; IHI and PCHI place a sign-extended 21-bit
immediate at bit 16. -/
def Obligations.CoreDivideCountImmediate : Prop :=
  (∀ (s : State) (t : Fin 512) (rd rs1 rs2 : BitVec 5),
    let a := (s.thread t.val).getX rs1
    let b := (s.thread t.val).getX rs2
    Issues (.aluDivs t rd rs1 rs2) t (encReg 0x01 rd rs1 rs2 15) s
      (wroteX t rd (if b = 0 then 0 else BitVec.ofInt 64 (a.toInt.tdiv b.toInt))) ∧
    Issues (.aluDivu t rd rs1 rs2) t (encReg 0x01 rd rs1 rs2 16) s
      (wroteX t rd (if b = 0 then 0 else BitVec.ofNat 64 (a.toNat / b.toNat))) ∧
    Issues (.aluMods t rd rs1 rs2) t (encReg 0x01 rd rs1 rs2 17) s
      (wroteX t rd (if b = 0 then a else BitVec.ofInt 64 (a.toInt.tmod b.toInt))) ∧
    Issues (.aluModu t rd rs1 rs2) t (encReg 0x01 rd rs1 rs2 18) s
      (wroteX t rd (if b = 0 then a else BitVec.ofNat 64 (a.toNat % b.toNat))) ∧
    (∃ n : Nat, Issues (.aluClz t rd rs1 rs2) t (encReg 0x01 rd rs1 rs2 23) s (wroteX t rd (BitVec.ofNat 64 n)) ∧
      n ≤ 64 ∧ a.toNat < 2 ^ (64 - n) ∧ (n < 64 → 2 ^ (63 - n) ≤ a.toNat)) ∧
    (∃ n : Nat, Issues (.aluCtz t rd rs1 rs2) t (encReg 0x01 rd rs1 rs2 24) s (wroteX t rd (BitVec.ofNat 64 n)) ∧
      n ≤ 64 ∧ (∀ i, i < n → a.getLsbD i = false) ∧ (n < 64 → a.getLsbD n = true)) ∧
    (∃ n : Nat, Issues (.aluPopc t rd rs1 rs2) t (encReg 0x01 rd rs1 rs2 25) s (wroteX t rd (BitVec.ofNat 64 n)) ∧
      n = ((List.range 64).filter fun i => a.getLsbD i).length)) ∧
  ∀ (s : State) (t : Fin 512) (rd rs1 : BitVec 5) (imm : BitVec 16) (sh : BitVec 6) (imm21 : BitVec 21),
    let a := (s.thread t.val).getX rs1
    let i := imm.signExtend 64
    Issues (.iadd t rd rs1 imm) t (encImm 0x02 rd rs1 imm) s (wroteX t rd (a + i)) ∧
    Issues (.iand t rd rs1 imm) t (encImm 0x03 rd rs1 imm) s (wroteX t rd (a &&& i)) ∧
    Issues (.ior t rd rs1 imm) t (encImm 0x04 rd rs1 imm) s (wroteX t rd (a ||| i)) ∧
    Issues (.ixor t rd rs1 imm) t (encImm 0x05 rd rs1 imm) s (wroteX t rd (a ^^^ i)) ∧
    Issues (.icmplt t rd rs1 imm) t (encImm 0x07 rd rs1 imm) s (wroteX t rd (if a.toInt < i.toInt then 1 else 0)) ∧
    Issues (.ishfShl t rd rs1 sh) t (encImm 0x06 rd rs1 (sh.zeroExtend 16)) s (wroteX t rd (a <<< sh.toNat)) ∧
    Issues (.ishfShrl t rd rs1 sh) t (encImm 0x06 rd rs1 (64 + sh.zeroExtend 16)) s (wroteX t rd (a >>> sh.toNat)) ∧
    Issues (.ishfShra t rd rs1 sh) t (encImm 0x06 rd rs1 (128 + sh.zeroExtend 16)) s (wroteX t rd (a.sshiftRight sh.toNat)) ∧
    Issues (.ihi t rd imm21) t (encJmp 0x08 rd imm21) s (wroteX t rd (imm21.signExtend 64 <<< 16)) ∧
    Issues (.pchi t rd imm21) t (encJmp 0x09 rd imm21) s (wroteX t rd ((s.thread t.val).pc + (imm21.signExtend 64 <<< 16)))

/-- Branches, calls, YIELD and FRET. BRZ adds its offset in words where rs1 meets the condition, else moves on; the conditions 7 to 15 are
reserved and fault. CALL and CALLR leave the address of the next instruction in rd; CALLR reads rs1 first and clears [1:0] of the target.
FRET resumes a handler at FEPC, and outside a handler it is reserved. The model's own choices in it: log entry 24. -/
def Obligations.CoreControlFlow : Prop :=
  ∀ (s : State) (t : Fin 512) (rd rs1 : BitVec 5) (cond : BitVec 4) (off : BitVec 17) (off21 : BitVec 21) (imm : BitVec 16),
    let th := s.thread t.val
    let v := (th.getX rs1).toInt
    let moved := fun (pc : Word) (i u : State) => onlyThread i u t ∧ u.thread t.val = { i.thread t.val with pc := pc }
    let met := (cond = 0 ∧ v = 0) ∨ (cond = 1 ∧ v ≠ 0) ∨ (cond = 2 ∧ v < 0) ∨ (cond = 3 ∧ 0 ≤ v) ∨ (cond = 4 ∧ 0 < v) ∨
      (cond = 5 ∧ v ≤ 0) ∨ cond = 6
    (cond.toNat < 7 → met → Issues (.brz t rs1 cond off) t (encBr 0x19 rs1 cond off) s (moved (th.pc + off.signExtend 64 * 4))) ∧
    (cond.toNat < 7 → ¬ met → Issues (.brz t rs1 cond off) t (encBr 0x19 rs1 cond off) s (moved (th.pc + 4))) ∧
    (7 ≤ cond.toNat → Issues (.brz t rs1 cond off) t (encBr 0x19 rs1 cond off) s (tookFault t eBadcmd th.pc 0)) ∧
    Issues (.call t rd off21) t (encJmp 0x1F rd off21) s (fun i u => onlyThread i u t ∧
      u.thread t.val = { i.thread t.val with x := (u.thread t.val).x, pc := th.pc + off21.signExtend 64 * 4 } ∧
      (u.thread t.val).getX rd = th.pc + 4 ∧ ∀ r, r ≠ rd → (u.thread t.val).getX r = th.getX r) ∧
    Issues (.callr t rd rs1 imm) t (encImm 0x20 rd rs1 imm) s (fun i u => onlyThread i u t ∧
      u.thread t.val = { i.thread t.val with x := (u.thread t.val).x, pc := (th.getX rs1 + imm.signExtend 64) &&& ~~~3 } ∧
      (u.thread t.val).getX rd = th.pc + 4 ∧ ∀ r, r ≠ rd → (u.thread t.val).getX r = th.getX r) ∧
    Issues (.yield t) t (encReg 0x22 0 0 0 0x021) s (moved (th.pc + 4)) ∧
    (th.inHandler = true → Issues (.fret t) t (encReg 0x22 0 0 0 0x030) s (fun i u => onlyThread i u t ∧
      u.thread t.val = { i.thread t.val with pc := th.fepc, inHandler := false })) ∧
    (th.inHandler = false → Issues (.fret t) t (encReg 0x22 0 0 0 0x030) s (tookFault t eBadcmd th.pc 0))

/-- The CSRs of Table 7-7. A read gives FPSTAT, the step, the node, the thread, FEPC, FCAUSE, FADDR or a Seed; a write to FPSTAT, FEPC,
FCAUSE or FADDR replaces it and gives the old value; a write to a read-only or reserved CSR, a reserved FPSTAT value and a read of a
reserved CSR fault with E_BADCMD and leave the CSR as it was. The model's own choices in it: log entries 2, 73. -/
def Obligations.CoreCsrAccess : Prop :=
  ∀ (s : State) (t : Fin 512) (rd rs1 : BitVec 5) (csr : BitVec 12),
    let th := s.thread t.val
    let n := csr.toNat
    let v := th.getX rs1
    let fpOk := v.toNat % 8 ≤ 3 ∧ v.toNat / 8 % 32 = 0 ∧ v.toNat < 2 ^ 15
    let get := encImm 0x25 rd 0 (csr.zeroExtend 16)
    let set := encImm 0x25 rd rs1 (0x8000 + csr.zeroExtend 16)
    (n = 0x001 → Issues (ign := noRs1) (.csrRead t rd csr) t get s (wroteX t rd th.fpstat)) ∧
    (n = 0x010 → Issues (ign := noRs1) (.csrRead t rd csr) t get s (wroteX t rd (BitVec.ofNat 64 (s.rd rSchStep)))) ∧
    (n = 0x011 → Issues (ign := noRs1) (.csrRead t rd csr) t get s (wroteX t rd (BitVec.ofNat 64 s.nodeId))) ∧
    (n = 0x012 → Issues (ign := noRs1) (.csrRead t rd csr) t get s (wroteX t rd (BitVec.ofNat 64 t.val))) ∧
    (n = 0x013 → Issues (ign := noRs1) (.csrRead t rd csr) t get s (fun i => wroteX t rd (BitVec.ofNat 64 (i.thread t.val).cycles) i)) ∧
    (n = 0x020 → Issues (ign := noRs1) (.csrRead t rd csr) t get s (wroteX t rd th.fepc)) ∧
    (n = 0x021 → Issues (ign := noRs1) (.csrRead t rd csr) t get s (wroteX t rd th.fcause)) ∧
    (n = 0x022 → Issues (ign := noRs1) (.csrRead t rd csr) t get s (wroteX t rd th.faddr)) ∧
    (∀ i, i < 32 → n = 0x040 + i → Issues (ign := noRs1) (.csrRead t rd csr) t get s
      (wroteX t rd (s.regGet (regKey tySch 0 (0x100 + 8 * i))))) ∧
    (n = 0x001 → fpOk → Issues (.csrWrite t rd rs1 csr) t set s
      (fun i => wroteX t rd th.fpstat (i.setThread t.val { i.thread t.val with fpstat := v }))) ∧
    (n = 0x020 → Issues (.csrWrite t rd rs1 csr) t set s
      (fun i => wroteX t rd th.fepc (i.setThread t.val { i.thread t.val with fepc := v }))) ∧
    (n = 0x021 → Issues (.csrWrite t rd rs1 csr) t set s
      (fun i => wroteX t rd th.fcause (i.setThread t.val { i.thread t.val with fcause := v }))) ∧
    (n = 0x022 → Issues (.csrWrite t rd rs1 csr) t set s
      (fun i => wroteX t rd th.faddr (i.setThread t.val { i.thread t.val with faddr := v }))) ∧
    (n = 0x001 ∧ ¬ fpOk ∨ (n ≠ 0x001 ∧ n ≠ 0x020 ∧ n ≠ 0x021 ∧ n ≠ 0x022) →
      Issues (.csrWrite t rd rs1 csr) t set s (tookFault t eBadcmd th.pc 0)) ∧
    (n ≠ 0x001 ∧ ¬ (0x010 ≤ n ∧ n ≤ 0x013) ∧ ¬ (0x020 ≤ n ∧ n ≤ 0x022) ∧ ¬ (0x040 ≤ n ∧ n ≤ 0x05F) →
      Issues (ign := noRs1) (.csrRead t rd csr) t get s (tookFault t eBadcmd th.pc 0))

/-! ### Memory instructions of the cores -/

/-- Loads from the node itself. An aligned access to memory that job traffic may reach writes the destination with the bytes at the address,
sign- or zero-extended, and the thread moves on; no byte of memory and no other register changes. A 4- or 8-byte load from a page of the
register window gives the page's value. The model's own choices in it: log entries 22, 80. -/
def Obligations.CoreLocalLoads : Prop :=
  ∀ (s : State) (t : Fin 512) (rd rs1 : BitVec 5) (imm : BitVec 16) (a w : Nat),
    let addr := (s.thread t.val).getX rs1 + imm.signExtend 64
    let went := fun (i u : State) => u.thread t.val = { i.thread t.val with
      x := (u.thread t.val).x, w := (u.thread t.val).w, pc := (i.thread t.val).pc + 4, run := .running, wait := none }
    let isX := fun (v : Word) (i u : State) => went i u ∧ (u.thread t.val).w = (i.thread t.val).w ∧
      (u.thread t.val).getX rd = v ∧ ∀ r, r ≠ rd → (u.thread t.val).getX r = (i.thread t.val).getX r
    let gotX := fun (v : Word) (i u : State) => onlyRead i u t ∧ sameMemory i u ∧ isX v i u
    let gotF := fun (v : Nat) (i u : State) => onlyRead i u t ∧ sameMemory i u ∧ went i u ∧
      (u.thread t.val).x = (i.thread t.val).x ∧ (u.thread t.val).getW rd = BitVec.ofNat 512 v ∧
      ∀ r, r ≠ rd → (u.thread t.val).getW r = (i.thread t.val).getW r
    let page := s.coreAddr addr 8 = .window w ∧ winExists w = true ∧ winBcast w = false ∧ winOff w < 0x400
    let page4 := s.coreAddr addr 4 = .window w ∧ winExists w = true ∧ winBcast w = false ∧ winOff w < 0x400
    let value := fun (n : Nat) (i : State) => i.readPage (winType w) (winInst w) (winOff w) n
    (s.leads addr a 1 →
      Issues (.ld8s t rd rs1 imm) t (encImm 0x0A rd rs1 imm) s (gotX ((BitVec.ofNat 8 (s.numAt a 1)).signExtend 64)) ∧
      Issues (.ld8u t rd rs1 imm) t (encImm 0x0B rd rs1 imm) s (gotX (BitVec.ofNat 64 (s.numAt a 1)))) ∧
    (s.leads addr a 2 →
      Issues (.ld16s t rd rs1 imm) t (encImm 0x0C rd rs1 imm) s (gotX ((BitVec.ofNat 16 (s.numAt a 2)).signExtend 64)) ∧
      Issues (.ld16u t rd rs1 imm) t (encImm 0x0D rd rs1 imm) s (gotX (BitVec.ofNat 64 (s.numAt a 2)))) ∧
    (s.leads addr a 4 →
      Issues (.ld32s t rd rs1 imm) t (encImm 0x0E rd rs1 imm) s (gotX ((BitVec.ofNat 32 (s.numAt a 4)).signExtend 64)) ∧
      Issues (.ld32u t rd rs1 imm) t (encImm 0x0F rd rs1 imm) s (gotX (BitVec.ofNat 64 (s.numAt a 4))) ∧
      Issues (.fld32 t rd rs1 imm) t (encImm 0x15 rd rs1 imm) s (gotF (s.numAt a 4))) ∧
    (s.leads addr a 8 →
      Issues (.ld64 t rd rs1 imm) t (encImm 0x10 rd rs1 imm) s (gotX (BitVec.ofNat 64 (s.numAt a 8))) ∧
      Issues (.fld64 t rd rs1 imm) t (encImm 0x16 rd rs1 imm) s (gotF (s.numAt a 8))) ∧
    (page → Issues (.ld64 t rd rs1 imm) t (encImm 0x10 rd rs1 imm) s (fun i u =>
      isX (BitVec.ofNat 64 (value 8 i)) i u ∧ otherThreads i u t ∧ u.mem = i.mem)) ∧
    (page4 → Issues (.ld32u t rd rs1 imm) t (encImm 0x0F rd rs1 imm) s (fun i u =>
      isX (BitVec.ofNat 64 (value 4 i % 2 ^ 32)) i u ∧ otherThreads i u t ∧ u.mem = i.mem))


/-- Stores to local memory: an aligned store to a reachable line outside the image writes the low bytes of its source at the address
computed from rs1 and the immediate; every other byte, every register of the thread and the rest of the node stay, but for the caches and
what accesses count. The model's own choices in it: log entries 22, 76, 80. -/
def Obligations.CoreLocalStores : Prop :=
  ∀ (s : State) (t : Fin 512) (rs2 rs1 : BitVec 5) (imm : BitVec 16) (a : Nat),
    let th := s.thread t.val
    let addr := th.getX rs1 + imm.signExtend 64
    let put := fun (n v : Nat) (i u : State) => onlyAccess i u t ∧ storedAt a n v i u ∧
      u.thread t.val = { i.thread t.val with pc := th.pc + 4, run := .running, wait := none }
    let x := (th.getX rs2).toNat
    let f := (th.getW rs2).toNat
    (s.reaches addr a 1 → s.hitsImage a 1 = false → Issues (.st8 t rs2 rs1 imm) t (encImm 0x11 rs2 rs1 imm) s (put 1 x)) ∧
    (s.reaches addr a 2 → s.hitsImage a 2 = false → Issues (.st16 t rs2 rs1 imm) t (encImm 0x12 rs2 rs1 imm) s (put 2 x)) ∧
    (s.reaches addr a 4 → s.hitsImage a 4 = false → Issues (.st32 t rs2 rs1 imm) t (encImm 0x13 rs2 rs1 imm) s (put 4 x) ∧
      Issues (.fst32 t rs2 rs1 imm) t (encImm 0x17 rs2 rs1 imm) s (put 4 f)) ∧
    (s.reaches addr a 8 → s.hitsImage a 8 = false → Issues (.st64 t rs2 rs1 imm) t (encImm 0x14 rs2 rs1 imm) s (put 8 x) ∧
      Issues (.fst64 t rs2 rs1 imm) t (encImm 0x18 rs2 rs1 imm) s (put 8 f))


/-- Fetching, and where a load or store traps. Fetching and issuing leaves the node but for the thread's cycles, the caches and what
accesses count. An instruction whose fetch lies outside the loaded image faults with E_RANGE whatever it is, a reserved word with
E_BADCMD; a word that is another instruction, a thread that does not run, and a core or a memory that is not clocked leave all as it is.
An address with bits above the node field, a misaligned address and an address of no region fault with E_RANGE, a store into the image or
the register window with E_LOCKED, a load of a broadcast page with E_BCAST_READ; the thread takes the fault at its own instruction. The
model's own choices in it: log entries 22, 23, 24, 82, 90. -/
def Obligations.CoreAccessFaults : Prop :=
  (∀ (s : State) (t : Fin 512), onlyIssued s (s.issued t) t) ∧
  (∀ (s : State) (t : Fin 512) (rd rs1 rs2 : BitVec 5),
    let pc := (s.thread t.val).pc
    let runs := s.threadReady t.val = true ∧ s.domainsRun [3, 4] = true ∧ s.hbmRuns = true
    let word := (s.coreRead (t.val / 8) pc.toNat 4).1
    let all := fun (P : State → Prop) => Completes (.aluAdd t rd rs1 rs2) s P ∧ Completes (.halt t) s P
    (runs → s.fetchOk t.val = false → all (tookFault t eRange pc 0 s)) ∧
    (runs → s.fetchOk t.val = true → reservedWord word = true → all (tookFault t eBadcmd pc 0 (s.issued t))) ∧
    (runs → s.fetchOk t.val = true → reservedWord word = false → word ≠ encReg 0x01 rd rs1 rs2 0 →
      exec (.aluAdd t rd rs1 rs2) s = .next s) ∧
    (runs → s.fetchOk t.val = true → reservedWord word = false → word ≠ encReg 0x22 0 0 0 0x020 → exec (.halt t) s = .next s) ∧
    (¬ runs → exec (.aluAdd t rd rs1 rs2) s = .next s ∧ exec (.halt t) s = .next s)) ∧
  ∀ (s : State) (t : Fin 512) (rd rs1 : BitVec 5) (imm : BitVec 16) (w : Nat),
    let th := s.thread t.val
    let addr := th.getX rs1 + imm.signExtend 64
    let a := addr.toNat % 2 ^ 44
    let own := addr.toNat % 8 = 0 ∧ addr.toNat / 2 ^ 44 = s.nodeId
    (addr.toNat % 8 ≠ 0 ∨ addr.toNat / 2 ^ 58 ≠ 0 ∨ (own ∧ inRegWin a 8 = false ∧ s.memOk a 8 = false) →
      Issues (.ld64 t rd rs1 imm) t (encImm 0x10 rd rs1 imm) s (tookFault t eRange th.pc addr) ∧
      Issues (.st64 t rd rs1 imm) t (encImm 0x14 rd rs1 imm) s (tookFault t eRange th.pc addr)) ∧
    (own → inRegWin a 8 = true → Issues (.st64 t rd rs1 imm) t (encImm 0x14 rd rs1 imm) s (tookFault t eLocked th.pc addr)) ∧
    (s.coreAddr addr 8 = .window w → winExists w = true → winBcast w = true →
      Issues (.ld64 t rd rs1 imm) t (encImm 0x10 rd rs1 imm) s
        (fun i => tookFault t eBcastRead th.pc addr (i.refuse tyNode 0 eBcastRead w 0))) ∧
    (s.leads addr a 8 → s.hitsImage a 8 = true →
      Issues (.st64 t rd rs1 imm) t (encImm 0x14 rd rs1 imm) s (tookFault t eLocked th.pc addr))


/-- Atomics on local memory that is no CLOSE word: rd takes the old word, zero-extended, and the word becomes the operation's result; no
other byte and no other register of the thread changes (Table 7-8). A release form goes ahead where no earlier remote access of the thread
is open. FADD on an ordered region is logged instead: rd takes the word, which stays, and the thread's contribution is entered with its
key and counted. The model's own choices in it: log entries 17, 22, 25, 80. -/
def Obligations.CoreLocalAtomics : Prop :=
  ∀ (s : State) (t : Fin 512) (rd rs1 rs2 : BitVec 5) (ord : BitVec 2) (w : Bool) (a : Nat),
    let n := if w then 8 else 4
    let th := s.thread t.val
    let old := s.numAt a n
    let x := (th.getX rs2).toNat % 2 ^ (8 * n)
    let c := (th.getX rd).toNat % 2 ^ (8 * n)
    let sg := fun (v : Nat) => if v < 2 ^ (8 * n - 1) then (v : Int) else (v : Int) - 2 ^ (8 * n)
    let wrote := fun (i u : State) => (u.thread t.val).getX rd = BitVec.ofNat 64 old ∧
      ∀ r, r ≠ rd → (u.thread t.val).getX r = (i.thread t.val).getX r
    let done := fun (new : Nat) (i u : State) => onlyAtomic i u t ∧ storedAt a n new i u ∧ wrote i u ∧
      u.thread t.val = { i.thread t.val with x := (u.thread t.val).x, pc := th.pc + 4, run := .running, wait := none }
    let passes := ord.getLsbD 1 = true → th.posted = none ∧ s.pointsDone (s.fencePoints t.val) = true
    let open_ := passes ∧ s.reaches (th.getX rs1) a n ∧ s.hitsImage a n = false ∧ s.closeOf a = none
    (open_ → Issues (.amoSwap t rd rs1 rs2 ord w) t (encAmo .swap rd rs1 rs2 ord w) s (done x)) ∧
    (open_ → Issues (.amoAdd t rd rs1 rs2 ord w) t (encAmo .add rd rs1 rs2 ord w) s (done (old + x))) ∧
    (open_ → Issues (.amoAnd t rd rs1 rs2 ord w) t (encAmo .and rd rs1 rs2 ord w) s (done (old &&& x))) ∧
    (open_ → Issues (.amoOr t rd rs1 rs2 ord w) t (encAmo .or rd rs1 rs2 ord w) s (done (old ||| x))) ∧
    (open_ → Issues (.amoXor t rd rs1 rs2 ord w) t (encAmo .xor rd rs1 rs2 ord w) s (done (old ^^^ x))) ∧
    (open_ → Issues (.amoMin t rd rs1 rs2 ord w) t (encAmo .min rd rs1 rs2 ord w) s (done (if sg x < sg old then x else old))) ∧
    (open_ → Issues (.amoMax t rd rs1 rs2 ord w) t (encAmo .max rd rs1 rs2 ord w) s (done (if sg old < sg x then x else old))) ∧
    (open_ → Issues (.amoMinu t rd rs1 rs2 ord w) t (encAmo .minu rd rs1 rs2 ord w) s (done (if x < old then x else old))) ∧
    (open_ → Issues (.amoMaxu t rd rs1 rs2 ord w) t (encAmo .maxu rd rs1 rs2 ord w) s (done (if old < x then x else old))) ∧
    (open_ → Issues (.cas t rd rs1 rs2 ord w) t (encAmo .cas rd rs1 rs2 ord w) s (done (if old = c then x else old))) ∧
    (open_ → s.oregOf a = none →
      Issues (.amoFadd t rd rs1 rs2 ord w) t (encAmo .fadd rd rs1 rs2 ord w) s (done (fAdd (if w then .fp64 else .fp32) old x))) ∧
    (∀ e, open_ → s.oregOf a = some e → th.ordCount < 2 ^ 17 → s.logUsed e (s.stackOf a) < s.logShare e (s.stackOf a) →
      Issues (.amoFadd t rd rs1 rs2 ord w) t (encAmo .fadd rd rs1 rs2 ord w) s (fun i u => wrote i u ∧
        u.thread t.val = { i.thread t.val with
          x := (u.thread t.val).x, pc := th.pc + 4, run := .running, wait := none, ordCount := th.ordCount + 1 } ∧
        ∃ slot, u.msa.log = s.msa.log ++ [⟨e, s.stackOf a, a, s.coreKey t.val, x, n, if w then 0 else 1, slot⟩]))


/-- The atomics without a returned value, and acquire and release, on local memory. ADDP adds and writes no register; LDACQ reads like a
load; STREL and any release form wait for the thread's earlier remote accesses and, with none outstanding, go ahead. A register operand of
ADDP or STREL other than 0 is reserved. The model's own choices in it: log entries 17, 22, 80. -/
def Obligations.CoreAcquireRelease : Prop :=
  ∀ (s : State) (t : Fin 512) (rd rs1 rs2 : BitVec 5) (ord : BitVec 2) (w : Bool) (a : Nat),
    let n := if w then 8 else 4
    let th := s.thread t.val
    let addr := th.getX rs1
    let x := (th.getX rs2).toNat
    let quiet := th.posted = none ∧ s.pointsDone (s.fencePoints t.val) = true
    let passes := ord.getLsbD 1 = true → quiet
    let passed := fun (i u : State) => u.thread t.val = { i.thread t.val with pc := th.pc + 4, run := .running, wait := none }
    let waits := fun (op : CoreOp) (i u : State) => onlyThread i u t ∧
      u.thread t.val = { i.thread t.val with run := .suspended, wait := some (.fence op (s.fencePoints t.val)) }
    (passes → s.reaches addr a n → s.hitsImage a n = false → s.closeOf a = none →
      Issues (.addp t 0 rs1 rs2 ord w) t (encAmo .addp 0 rs1 rs2 ord w) s (fun i u => onlyAtomic i u t ∧ passed i u ∧
        storedAt a n (s.numAt a n + x) i u)) ∧
    (passes → s.leads addr a n →
      Issues (.ldacq t rd rs1 rs2 ord w) t (encAmo .ldacq rd rs1 rs2 ord w) s (fun i u => onlyRead i u t ∧ sameMemory i u ∧
        u.thread t.val = { i.thread t.val with x := (u.thread t.val).x, pc := th.pc + 4, run := .running, wait := none } ∧
        (u.thread t.val).getX rd = BitVec.ofNat 64 (s.numAt a n) ∧
        ∀ r, r ≠ rd → (u.thread t.val).getX r = (i.thread t.val).getX r)) ∧
    (quiet → s.reaches addr a n → s.hitsImage a n = false →
      Issues (.strel t 0 rs1 rs2 ord w) t (encAmo .strel 0 rs1 rs2 ord w) s (fun i u => onlyAccess i u t ∧ passed i u ∧
        storedAt a n x i u)) ∧
    (th.posted = none → s.pointsDone (s.fencePoints t.val) = false → s.accessRuns addr n = true →
      Issues (.strel t 0 rs1 rs2 ord w) t (encAmo .strel 0 rs1 rs2 ord w) s
        (waits (.amo .strel ord n 0 addr x (th.getX 0).toNat))) ∧
    (rd ≠ 0 → Issues (.addp t rd rs1 rs2 ord w) t (encAmo .addp rd rs1 rs2 ord w) s (tookFault t eBadcmd th.pc 0) ∧
      Issues (.strel t rd rs1 rs2 ord w) t (encAmo .strel rd rs1 rs2 ord w) s (tookFault t eBadcmd th.pc 0))


/-- Fences, HALT and accesses to other nodes. FENCE.L passes at once. FENCE.G and HALT pass where every request of the thread is
acknowledged and no refused one is kept; else they suspend the thread at the points reached so far. A kept refusal is taken as a fault at
the fence. With a tag to be had, a load or an atomic with a result sends its request and suspends the thread until the response, a store
and an ADDP send theirs and move on, the ADDP marked acquire waits for its acknowledgement; without a tag the thread waits for one. To a
target whose fallback is taken a load reads all-ones and faults behind itself, and a store moves on and is kept for the next fence. The
model's own choices in it: log entries 22, 24. -/
def Obligations.CoreFencesHaltAndRemoteLoads : Prop :=
  (∀ (s : State) (t : Fin 512),
    let th := s.thread t.val
    let clear := th.posted = none ∧ s.pointsDone (s.fencePoints t.val) = true
    let waits := th.posted = none ∧ s.pointsDone (s.fencePoints t.val) = false
    let passed := fun (i u : State) => onlyThread i u t ∧
      u.thread t.val = { i.thread t.val with pc := th.pc + 4, run := .running, wait := none }
    let ended := fun (i u : State) => onlyThread i u t ∧ u.thread t.val = { i.thread t.val with run := .halted, wait := none }
    let held := fun (op : CoreOp) (i u : State) => onlyThread i u t ∧
      u.thread t.val = { i.thread t.val with run := .suspended, wait := some (.fence op (s.fencePoints t.val)) }
    Issues (.fenceL t) t (encReg 0x22 0 0 0 0x010) s passed ∧
    (clear → Issues (.fenceG t) t (encReg 0x22 0 0 0 0x011) s passed ∧ Issues (.halt t) t (encReg 0x22 0 0 0 0x020) s ended) ∧
    (waits → Issues (.fenceG t) t (encReg 0x22 0 0 0 0x011) s (held (.fence true)) ∧
      Issues (.halt t) t (encReg 0x22 0 0 0 0x020) s (held .halt)) ∧
    (∀ code addr, th.posted = some (code, addr) → Issues (.fenceG t) t (encReg 0x22 0 0 0 0x011) s (fun i =>
      tookFault t code (if code = eFenceTimeout then th.pc + 4 else th.pc) addr
        (i.setThread t.val { i.thread t.val with posted := none })))) ∧
  ∀ (s : State) (t : Fin 512) (rd rs1 rs2 : BitVec 5) (imm : BitVec 16) (ord : BitVec 2) (node a : Nat),
    let th := s.thread t.val
    let addr := th.getX rs1 + imm.signExtend 64
    let x := (th.getX rs2).toNat
    let can := s.threadCanIssue t.val = true
    let sent := fun (typ : ReqType) (opf addr : Nat) (data : List Byte) (u : State) => u.mem = s.mem ∧
      ∃ r ∈ u.fxp.reqs, r.typ = typ ∧ r.owner = .thread t.val ∧ r.copies.map (·.1) = [node] ∧ r.req.opf = BitVec.ofNat 8 opf ∧
        r.req.addr = BitVec.ofNat 64 addr ∧ r.req.payload = data
    let passed := fun (i u : State) => u.thread t.val = { i.thread t.val with pc := th.pc + 4, run := .running, wait := none }
    let waits := fun (w : ThreadWait) (i u : State) => u.thread t.val = { i.thread t.val with run := .suspended, wait := some w }
    let load := CoreOp.load 8 false rd addr
    let add := CoreOp.amo .add ord 8 rd (th.getX rs1) x (th.getX rd).toNat
    let addp := CoreOp.amo .addp ord 8 0 (th.getX rs1) x (th.getX 0).toNat
    (s.coreAddr addr 8 = .remote node a →
      (can → Issues (.ld64 t rd rs1 imm) t (encImm 0x10 rd rs1 imm) s (fun i u => waits (.reply load) i u ∧ sent .load 0 a [] u)) ∧
      (can → Issues (.st64 t rs2 rs1 imm) t (encImm 0x14 rs2 rs1 imm) s (fun i u => passed i u ∧ sent .store 0 a (bytesLE 8 x) u)) ∧
      (¬ can → Issues (.ld64 t rd rs1 imm) t (encImm 0x10 rd rs1 imm) s (fun i u => waits (.tag load) i u ∧ u.mem = i.mem ∧
        u.fxp = i.fxp ∧ u.rd rCoreTagWait (t.val / 8) = min (i.rd rCoreTagWait (t.val / 8) + 1) 0xFFFFFFFF))) ∧
    (s.coreAddr (th.getX rs1) 8 = .remote node a → can → ord.getLsbD 1 = false →
      Issues (.amoAdd t rd rs1 rs2 ord true) t (encAmo .add rd rs1 rs2 ord true) s
        (fun i u => waits (.reply add) i u ∧ sent .atomic 17 a (bytesLE 8 x) u) ∧
      (ord.getLsbD 0 = false → Issues (.addp t 0 rs1 rs2 ord true) t (encAmo .addp 0 rs1 rs2 ord true) s
        (fun i u => passed i u ∧ sent .atomicP 27 a (bytesLE 8 x) u)) ∧
      (ord.getLsbD 0 = true → Issues (.addp t 0 rs1 rs2 ord true) t (encAmo .addp 0 rs1 rs2 ord true) s
        (fun i u => (∃ tag, waits (.acquire addp tag) i u) ∧ sent .atomicP 27 a (bytesLE 8 x) u))) ∧
    (s.coreAddr addr 8 = .gone →
      Issues (.ld64 t rd rs1 imm) t (encImm 0x10 rd rs1 imm) s (fun i =>
        tookFault t eDeadTarget (th.pc + 4) addr (i.setThread t.val ((i.thread t.val).setX rd (BitVec.allOnes 64)))) ∧
      Issues (.st64 t rs2 rs1 imm) t (encImm 0x14 rs2 rs1 imm) s (fun i u => onlyThread i u t ∧ u.thread t.val = { i.thread t.val with
        pc := th.pc + 4, run := .running, wait := none, posted := some (th.posted.getD (eFenceTimeout, addr)) }))


/-! ### Scalar floating point (R135 to R137) -/

/-- Arithmetic in FP64 or FP32: the operands are the low bits of f, the result is rounded once by FPSTAT.RM and written with the upper
bits of w clear, its flags are added to FPSTAT, and nothing else of the node changes. The model's own choices in it: log entry 10. -/
def Obligations.CoreFloatResults : Prop :=
  ∀ (s : State) (t : Fin 512) (ty : FType) (fd fs1 fs2 fs3 : BitVec 5) (var : BitVec 2),
    let th := s.thread t.val
    let f := ty.fmt
    let a := th.fArg ty fs1
    let b := th.fArg ty fs2
    let c := th.fArg ty fs3
    let top := 2 ^ (f.bits - 1)
    Issues (.fadd t ty fd fs1 fs2) t (encFpu ty 0 fd fs1 fs2) s (wroteF t fd (fpAdd f th.rm a b)) ∧
    Issues (.fsub t ty fd fs1 fs2) t (encFpu ty 1 fd fs1 fs2) s (wroteF t fd (fpSub f th.rm a b)) ∧
    Issues (.fmul t ty fd fs1 fs2) t (encFpu ty 2 fd fs1 fs2) s (wroteF t fd (fpMul f th.rm a b)) ∧
    Issues (.fdiv t ty fd fs1 fs2) t (encFpu ty 3 fd fs1 fs2) s (wroteF t fd (fpDiv f th.rm a b)) ∧
    Issues (.fsqrt t ty fd fs1 fs2) t (encFpu ty 4 fd fs1 fs2) s (wroteF t fd (fpSqrt f th.rm a)) ∧
    Issues (.fmin t ty fd fs1 fs2) t (encFpu ty 5 fd fs1 fs2) s (wroteF t fd (fpMin f th.rm a b)) ∧
    Issues (.fmax t ty fd fs1 fs2) t (encFpu ty 6 fd fs1 fs2) s (wroteF t fd (fpMax f th.rm a b)) ∧
    Issues (.fcpys t ty fd fs1 fs2) t (encFpu ty 7 fd fs1 fs2) s (wroteF t fd (a % top + b / top * top, {})) ∧
    Issues (.fmadd t ty var fd fs1 fs2 fs3) t (encMadd 0x24 fd fs1 fs2 fs3 var ty.ft) s
      (wroteF t fd (fpFma f f th.rm (decide (2 ≤ var.toNat)) (decide (var.toNat % 2 = 1)) a b c))

/-- Compares, moves and conversions. A compare writes 0 or 1 to x; FTOX and XTOF move bits; FCVT converts FP64 or FP32 to any of the four
types, and from an integer type it is reserved. The model's own choices in it: log entries 10, 20, 21, 65. -/
def Obligations.CoreFloatMovesAndCompares : Prop :=
  ∀ (s : State) (t : Fin 512) (ty : FType) (src dst : CvtType) (rd rs1 fs1 fs2 : BitVec 5),
    let th := s.thread t.val
    let f := ty.fmt
    let a := th.fArg ty fs1
    let b := th.fArg ty fs2
    let va := decodeFmt f a
    let vb := decodeFmt f b
    let sig := isSignalling f a || isSignalling f b
    let quiet := Config.fcmpQuietInvalid && (va.isNan || vb.isNan)
    Issues (.fcmpeq t ty rd fs1 fs2) t (encFpu ty 8 rd fs1 fs2) s (wroteXFlags t rd (if FVal.eq va vb then 1 else 0) { nv := sig }) ∧
    Issues (.fcmplt t ty rd fs1 fs2) t (encFpu ty 9 rd fs1 fs2) s
      (wroteXFlags t rd (if FVal.lt va vb then 1 else 0) { nv := sig || quiet }) ∧
    Issues (.fcmple t ty rd fs1 fs2) t (encFpu ty 10 rd fs1 fs2) s
      (wroteXFlags t rd (if FVal.lt va vb || FVal.eq va vb then 1 else 0) { nv := sig || quiet }) ∧
    Issues (ign := noRs2) (.ftox t ty rd fs1) t (encFpu ty 12 rd fs1 0) s (wroteX t rd (BitVec.ofNat 64 a)) ∧
    Issues (ign := noRs2) (.xtof t ty fs1 rs1) t (encFpu ty 13 fs1 rs1 0) s (wroteF t fs1 ((th.getX rs1).toNat % 2 ^ f.bits, {})) ∧
    (src = .fp64 ∨ src = .fp32 → Issues (ign := noRs2) (.fcvt t src dst fs2 fs1) t (encFcvt src dst fs2 fs1) s
      (wroteF t fs2 (coreConvert src.fmt dst.fmt (th.getF fs1 % 2 ^ src.fmt.bits)))) ∧
    (src = .int64 ∨ src = .int32 → Issues (ign := noRs2) (.fcvt t src dst fs2 fs1) t (encFcvt src dst fs2 fs1) s
      (tookFault t eBadcmd th.pc 0))

/-! ### The wide-lane extension (R138 to R144) -/

/-- Element-wise floating arithmetic on FP16, BF16, FP32 and FP64: an active element takes the result of its two source elements, rounded
by FPSTAT.RM, with its flags; an inactive one keeps its value or, with Z, becomes 0. The model's own choices in it: log entries 10, 20. -/
def Obligations.WideFloatResults : Prop :=
  ∀ (s : State) (t : Fin 512) (et : ElemType) (k : BitVec 3) (z : Bool) (wd ws1 ws2 : BitVec 5),
    let th := s.thread t.val
    let w := et.width
    let e := fun (r : BitVec 5) (i : Nat) => wideElem (th.getW r) w i
    let top := 2 ^ (w - 1)
    let done := fun (f : Nat → Nat × Flags) => wroteElems t w et.count k z wd f
    et.isFloat = true →
      Issues (.wadd t et k z wd ws1 ws2) t (encW 0x30 wd ws1 ws2 k z et 0) s (done fun i => fpAdd et.fmt th.rm (e ws1 i) (e ws2 i)) ∧
      Issues (.wsub t et k z wd ws1 ws2) t (encW 0x30 wd ws1 ws2 k z et 1) s (done fun i => fpSub et.fmt th.rm (e ws1 i) (e ws2 i)) ∧
      Issues (.wmul t et k z wd ws1 ws2) t (encW 0x30 wd ws1 ws2 k z et 2) s (done fun i => fpMul et.fmt th.rm (e ws1 i) (e ws2 i)) ∧
      Issues (.wdiv t et k z wd ws1 ws2) t (encW 0x30 wd ws1 ws2 k z et 3) s (done fun i => fpDiv et.fmt th.rm (e ws1 i) (e ws2 i)) ∧
      Issues (.wmin t et k z wd ws1 ws2) t (encW 0x30 wd ws1 ws2 k z et 5) s (done fun i => fpMin et.fmt th.rm (e ws1 i) (e ws2 i)) ∧
      Issues (.wmax t et k z wd ws1 ws2) t (encW 0x30 wd ws1 ws2 k z et 6) s (done fun i => fpMax et.fmt th.rm (e ws1 i) (e ws2 i)) ∧
      Issues (.wsgnj t et k z wd ws1 ws2) t (encW 0x30 wd ws1 ws2 k z et 9) s (done fun i => (e ws1 i % top + e ws2 i / top * top, {})) ∧
      Issues (.wsqrt t et k z wd ws1 0) t (encW 0x30 wd ws1 0 k z et 4) s (done fun i => fpSqrt et.fmt th.rm (e ws1 i)) ∧
      Issues (.wabs t et k z wd ws1 0) t (encW 0x30 wd ws1 0 k z et 7) s (done fun i => (e ws1 i % top, {})) ∧
      Issues (.wneg t et k z wd ws1 0) t (encW 0x30 wd ws1 0 k z et 8) s (done fun i => ((e ws1 i + top) % 2 ^ w, {}))

/-- Fused multiply-add of the wide lane (R139): with FT 0 FP64, 1 FP32, 2 FP16 and 3 BF16, WFMA, WFMS, WFNMA and WFNMS give each active
element a·b + c, a·b − c, −a·b + c and −a·b − c, a, b and c the elements of ws1, ws2 and ws3 as they were, rounded once by RM; wd may be
any register, ws3 too. -/
def Obligations.WideFusedMultiplyAdd : Prop :=
  ∀ (s : State) (t : Fin 512) (k : BitVec 3) (z : Bool) (wd ws1 ws2 ws3 : BitVec 5),
    ∀ x ∈ ([(0, .f64), (1, .f32), (2, .f16), (3, .bf16)] : List (BitVec 2 × ElemType)),
      let ft := x.1
      let f := x.2.fmt
      let g := fun (r : BitVec 5) (i : Nat) => wideElem ((s.thread t.val).getW r) x.2.width i
      let fused := fun (negProduct negAddend : Bool) => wroteElems t x.2.width x.2.count k z wd
        (fun i => fpFma f f (s.thread t.val).rm negProduct negAddend (g ws1 i) (g ws2 i) (g ws3 i))
      Issues (.wfma t ft k z wd ws1 ws2 ws3) t (encW3 0x34 wd ws1 ws2 ws3 k z ft) s (fused false false) ∧
      Issues (.wfms t ft k z wd ws1 ws2 ws3) t (encW3 0x35 wd ws1 ws2 ws3 k z ft) s (fused false true) ∧
      Issues (.wfnma t ft k z wd ws1 ws2 ws3) t (encW3 0x36 wd ws1 ws2 ws3 k z ft) s (fused true false) ∧
      Issues (.wfnms t ft k z wd ws1 ws2 ws3) t (encW3 0x37 wd ws1 ws2 ws3 k z ft) s (fused true true)

/-- Element-wise integer arithmetic on 8 to 64 bits, wrapping; shift counts are taken modulo the width. -/
def Obligations.WideIntegerResults : Prop :=
  ∀ (s : State) (t : Fin 512) (et : ElemType) (k : BitVec 3) (z : Bool) (wd ws1 ws2 : BitVec 5), et.isFloat = false →
    let th := s.thread t.val
    let w := et.width
    let a := fun (i : Nat) => wideElem (th.getW ws1) w i
    let b := fun (i : Nat) => wideElem (th.getW ws2) w i
    let sg := fun (v : Nat) => if v < 2 ^ (w - 1) then (v : Int) else (v : Int) - 2 ^ w
    let done := fun (f : Nat → Nat) => wroteElems t w et.count k z wd (fun i => (f i, {}))
    let wrap := fun (v : Int) => (v % 2 ^ w).toNat
    Issues (.wintAdd t et k z wd ws1 ws2) t (encW 0x31 wd ws1 ws2 k z et 0) s (done fun i => a i + b i) ∧
    Issues (.wintSub t et k z wd ws1 ws2) t (encW 0x31 wd ws1 ws2 k z et 1) s (done fun i => a i + 2 ^ w - b i) ∧
    Issues (.wmullo t et k z wd ws1 ws2) t (encW 0x31 wd ws1 ws2 k z et 2) s (done fun i => a i * b i) ∧
    Issues (.wmulhi t et k z wd ws1 ws2) t (encW 0x31 wd ws1 ws2 k z et 3) s (done fun i => wrap (sg (a i) * sg (b i) / 2 ^ w)) ∧
    Issues (.wmulhiu t et k z wd ws1 ws2) t (encW 0x31 wd ws1 ws2 k z et 4) s (done fun i => a i * b i / 2 ^ w) ∧
    Issues (.wintMin t et k z wd ws1 ws2) t (encW 0x31 wd ws1 ws2 k z et 5) s (done fun i => if sg (a i) < sg (b i) then a i else b i) ∧
    Issues (.wintMax t et k z wd ws1 ws2) t (encW 0x31 wd ws1 ws2 k z et 6) s (done fun i => if sg (a i) < sg (b i) then b i else a i) ∧
    Issues (.wminu t et k z wd ws1 ws2) t (encW 0x31 wd ws1 ws2 k z et 7) s (done fun i => min (a i) (b i)) ∧
    Issues (.wmaxu t et k z wd ws1 ws2) t (encW 0x31 wd ws1 ws2 k z et 8) s (done fun i => max (a i) (b i)) ∧
    Issues (.wand t et k z wd ws1 ws2) t (encW 0x31 wd ws1 ws2 k z et 9) s (done fun i => a i &&& b i) ∧
    Issues (.wor t et k z wd ws1 ws2) t (encW 0x31 wd ws1 ws2 k z et 10) s (done fun i => a i ||| b i) ∧
    Issues (.wxor t et k z wd ws1 ws2) t (encW 0x31 wd ws1 ws2 k z et 11) s (done fun i => a i ^^^ b i) ∧
    Issues (.wandn t et k z wd ws1 ws2) t (encW 0x31 wd ws1 ws2 k z et 12) s (done fun i => a i &&& (2 ^ w - 1 - b i)) ∧
    Issues (.wshl t et k z wd ws1 ws2) t (encW 0x31 wd ws1 ws2 k z et 13) s (done fun i => a i * 2 ^ (b i % w)) ∧
    Issues (.wshr t et k z wd ws1 ws2) t (encW 0x31 wd ws1 ws2 k z et 14) s (done fun i => a i / 2 ^ (b i % w)) ∧
    Issues (.wshra t et k z wd ws1 ws2) t (encW 0x31 wd ws1 ws2 k z et 15) s (done fun i => wrap (sg (a i) / 2 ^ (b i % w)))

/-- An instruction on an element type that its table does not allow faults with E_BADCMD, and so do a non-zero third register of the one-
source forms, a mask register number outside 1 to 7, the types that do not widen, and a mask or Z where the instruction takes none. -/
def Obligations.WideReservedFormsFault : Prop :=
  ∀ (s : State) (t : Fin 512) (et : ElemType) (k : BitVec 3) (z : Bool) (wd ws1 ws2 : BitVec 5) (sc : BitVec 2),
    let bad := tookFault t eBadcmd (s.thread t.val).pc 0
    (et.isFloat = false →
      Issues (.wadd t et k z wd ws1 ws2) t (encW 0x30 wd ws1 ws2 k z et 0) s bad ∧
      Issues (.wsqrt t et k z wd ws1 ws2) t (encW 0x30 wd ws1 ws2 k z et 4) s bad ∧
      Issues (.wcmpUnord t et k z wd ws1 ws2) t (encW 0x32 wd ws1 ws2 k z et 6) s bad ∧
      Issues (.fmulwl t et k z wd ws1 ws2) t (encW 0x38 wd ws1 ws2 k z et 4) s bad) ∧
    (et.isFloat = true →
      Issues (.wintAdd t et k z wd ws1 ws2) t (encW 0x31 wd ws1 ws2 k z et 0) s bad ∧
      Issues (.wcmpLtu t et k z wd ws1 ws2) t (encW 0x32 wd ws1 ws2 k z et 4) s bad ∧
      Issues (.mulwl t et k z wd ws1 ws2) t (encW 0x38 wd ws1 ws2 k z et 0) s bad) ∧
    (ws2 ≠ 0 → Issues (.wsqrt t et k z wd ws1 ws2) t (encW 0x30 wd ws1 ws2 k z et 4) s bad ∧
      Issues (.wabs t et k z wd ws1 ws2) t (encW 0x30 wd ws1 ws2 k z et 7) s bad) ∧
    (wd = 0 ∨ 8 ≤ wd.toNat → Issues (.wcmpEq t et k z wd ws1 ws2) t (encW 0x32 wd ws1 ws2 k z et 0) s bad ∧
      Issues (ign := noRs2) (.kmovx t wd ws1) t (encW 0x33 wd ws1 0 0 false .i8 9) s bad) ∧
    (et.width = 64 → Issues (.mulwl t et k z wd ws1 ws2) t (encW 0x38 wd ws1 ws2 k z et 0) s bad ∧
      Issues (.fmawl t et k z wd ws1 ws2) t (encW 0x38 wd ws1 ws2 k z et 6) s bad) ∧
    (k ≠ 0 ∨ z = true → Issues (.wextx t et k z wd ws1 ws2) t (encW 0x33 wd ws1 ws2 k z et 3) s bad ∧
      Issues (.winsx t et k z wd ws1 ws2) t (encW 0x33 wd ws1 ws2 k z et 4) s bad) ∧
    (et ≠ .i8 → Issues (.dot4 t et k z wd ws1 ws2) t (encW 0x39 wd ws1 ws2 k z et 0) s bad) ∧
    (et ≠ .i32 ∨ z = true → Issues (.wphilox t et k z wd ws1 ws2) t (encW 0x3E wd ws1 ws2 k z et 0) s bad) ∧
    (et.width < 32 → Issues (.wgsGather t et k sc wd ws1 ws2) t (encW 0x3D wd ws1 ws2 k false et sc.toNat) s bad ∧
      Issues (.wgsScatter t et k sc wd ws1 ws2) t (encW 0x3D wd ws1 ws2 k true et sc.toNat) s bad)


/-- Compares into a mask register: bit i is the comparison of element i where it is active, else the old bit or, with Z, 0; the bits from
n up are 0; a signalling NaN in an active element raises NV. The model's own choices in it: log entry 10. -/
def Obligations.WideCompareResults : Prop :=
  ∀ (s : State) (t : Fin 512) (et : ElemType) (k : BitVec 3) (z : Bool) (kd ws1 ws2 : BitVec 5),
    1 ≤ kd.toNat → kd.toNat ≤ 7 →
    let th := s.thread t.val
    let a := fun (i : Nat) => wideElem (th.getW ws1) et.width i
    let b := fun (i : Nat) => wideElem (th.getW ws2) et.width i
    let va := fun (i : Nat) => decodeFmt et.fmt (a i)
    let vb := fun (i : Nat) => decodeFmt et.fmt (b i)
    let nan := (List.range et.count).any fun i => th.active k i && (isSignalling et.fmt (a i) || isSignalling et.fmt (b i))
    let done := fun (f : Nat → Bool) (i u : State) => ∃ v : Word, wroteK t kd.toNat v { nv := et.isFloat && nan } i u ∧
      ∀ j, j < 64 → v.getLsbD j = (decide (j < et.count) && if th.active k j then f j else !z && (th.getK kd.toNat).getLsbD j)
    Issues (.wcmpEq t et k z kd ws1 ws2) t (encW 0x32 kd ws1 ws2 k z et 0) s (done fun i => FVal.eq (va i) (vb i)) ∧
    Issues (.wcmpNe t et k z kd ws1 ws2) t (encW 0x32 kd ws1 ws2 k z et 1) s (done fun i => !FVal.eq (va i) (vb i)) ∧
    Issues (.wcmpLt t et k z kd ws1 ws2) t (encW 0x32 kd ws1 ws2 k z et 2) s (done fun i => FVal.lt (va i) (vb i)) ∧
    Issues (.wcmpLe t et k z kd ws1 ws2) t (encW 0x32 kd ws1 ws2 k z et 3) s (done fun i => FVal.le (va i) (vb i)) ∧
    (et.isFloat = false →
      Issues (.wcmpLtu t et k z kd ws1 ws2) t (encW 0x32 kd ws1 ws2 k z et 4) s (done fun i => decide (a i < b i)) ∧
      Issues (.wcmpLeu t et k z kd ws1 ws2) t (encW 0x32 kd ws1 ws2 k z et 5) s (done fun i => decide (a i ≤ b i))) ∧
    (et.isFloat = true →
      Issues (.wcmpUnord t et k z kd ws1 ws2) t (encW 0x32 kd ws1 ws2 k z et 6) s (done fun i => (va i).isNan || (vb i).isNan))

/-- Moves, broadcasts, single elements, permutation, and the mask registers. -/
def Obligations.WideMovesAndMasks : Prop :=
  ∀ (s : State) (t : Fin 512) (et : ElemType) (k : BitVec 3) (z : Bool) (wd ws1 ws2 k1 k2 k3 : BitVec 5),
    let th := s.thread t.val
    let w := et.width
    let e := fun (r : BitVec 5) (i : Nat) => wideElem (th.getW r) w i
    let done := fun (f : Nat → Nat) => wroteElems t w et.count k z wd (fun i => (f i, {}))
    let j := (th.getX ws2).toNat % et.count
    let mask := fun (r : BitVec 5) => 1 ≤ r.toNat ∧ r.toNat ≤ 7
    Issues (ign := noRs2) (.wmov t et k z wd ws1) t (encW 0x33 wd ws1 0 k z et 0) s (done fun i => e ws1 i) ∧
    Issues (ign := noRs2) (.wbcx t et k z wd ws1) t (encW 0x33 wd ws1 0 k z et 1) s (done fun _ => (th.getX ws1).toNat) ∧
    Issues (ign := noRs2) (.wbcf t et k z wd ws1) t (encW 0x33 wd ws1 0 k z et 2) s (done fun _ => th.getF ws1) ∧
    Issues (.wperm t et k z wd ws1 ws2) t (encW 0x33 wd ws1 ws2 k z et 5) s (done fun i => e ws1 (e ws2 i % et.count)) ∧
    Issues (.wextx t et 0 false wd ws1 ws2) t (encW 0x33 wd ws1 ws2 0 false et 3) s (wroteX t wd (sextNat w (e ws1 j))) ∧
    Issues (.winsx t et 0 false wd ws1 ws2) t (encW 0x33 wd ws1 ws2 0 false et 4) s (fun i u => ∃ v : Wide, wroteW t wd v {} i u ∧
      ∀ l, l < et.count → wideElem v w l = if l = j then (th.getX ws1).toNat % 2 ^ w else e wd l) ∧
    (mask k1 → Issues (ign := noRs2) (.kmovx t k1 ws1) t (encW 0x33 k1 ws1 0 0 false .i8 9) s (wroteK t k1.toNat (th.getX ws1) {})) ∧
    (mask k1 → Issues (ign := noRs2) (.xmovk t wd k1) t (encW 0x33 wd k1 0 0 false .i8 10) s (wroteX t wd (th.getK k1.toNat))) ∧
    (mask k1 → mask k2 → mask k3 → Issues (.kand t k1 k2 k3) t (encW 0x33 k1 k2 k3 0 false .i8 11) s
      (wroteK t k1.toNat (th.getK k2.toNat &&& th.getK k3.toNat) {})) ∧
    (mask k1 → mask k2 → mask k3 → Issues (.kor t k1 k2 k3) t (encW 0x33 k1 k2 k3 0 false .i8 12) s
      (wroteK t k1.toNat (th.getK k2.toNat ||| th.getK k3.toNat) {})) ∧
    (mask k1 → mask k2 → mask k3 → Issues (.kxor t k1 k2 k3) t (encW 0x33 k1 k2 k3 0 false .i8 13) s
      (wroteK t k1.toNat (th.getK k2.toNat ^^^ th.getK k3.toNat) {})) ∧
    (mask k1 → mask k2 → Issues (ign := noRs2) (.knot t k1 k2) t (encW 0x33 k1 k2 0 0 false .i8 14) s
      (wroteK t k1.toNat (~~~th.getK k2.toNat) {}))

/-- Reductions by the fixed tree of R89: inactive elements enter as 0, element 0 takes the result and the other bits become 0. Of eight
FP64 elements WREDADD adds neighbours, then pairs, then halves, each sum rounded. The model's own choices in it: log entry 10. -/
def Obligations.WideReductions : Prop :=
  ∀ (s : State) (t : Fin 512) (et : ElemType) (k : BitVec 3) (z : Bool) (wd ws1 : BitVec 5),
    let th := s.thread t.val
    let xs := (List.range et.count).map fun i => if th.active k i then wideElem (th.getW ws1) et.width i else 0
    let sg := signedOf et.width
    let done := fun (r : Nat × Flags) => wroteW t wd (BitVec.ofNat 512 (r.1 % 2 ^ et.width)) r.2
    Issues (ign := noRs2) (.wredadd t et k z wd ws1) t (encW 0x33 wd ws1 0 k z et 6) s (done (tree (fun a b =>
      if et.isFloat then fpAdd et.fmt th.rm a b else ((a + b) % 2 ^ et.width, {})) et.count.log2 xs)) ∧
    Issues (ign := noRs2) (.wredmax t et k z wd ws1) t (encW 0x33 wd ws1 0 k z et 7) s (done (tree (fun a b =>
      if et.isFloat then fpMax et.fmt th.rm a b else (if sg a < sg b then b else a, {})) et.count.log2 xs)) ∧
    Issues (ign := noRs2) (.wredmin t et k z wd ws1) t (encW 0x33 wd ws1 0 k z et 8) s (done (tree (fun a b =>
      if et.isFloat then fpMin et.fmt th.rm a b else (if sg a < sg b then a else b, {})) et.count.log2 xs)) ∧
    (et = .f64 →
      let add := fun (a b : Nat) => (fpAdd .fp64 th.rm a b).1
      let x := fun (i : Nat) => xs.getD i 0
      Issues (ign := noRs2) (.wredadd t .f64 k z wd ws1) t (encW 0x33 wd ws1 0 k z .f64 6) s
        (fun _ u => ((u.thread t.val).getW wd).toNat =
        add (add (add (x 0) (x 1)) (add (x 2) (x 3))) (add (add (x 4) (x 5)) (add (x 6) (x 7))) % 2 ^ 64))

/-- Widening products and dot products: the destination lanes have twice (or four times) the source width, the low or the high half of the
sources feeds them; integer sums wrap, float sums are rounded once. The model's own choices in it: log entry 10. -/
def Obligations.WideningAndDotProducts : Prop :=
  ∀ (s : State) (t : Fin 512) (et : ElemType) (k : BitVec 3) (z : Bool) (wd ws1 ws2 : BitVec 5),
    let th := s.thread t.val
    let w := et.width
    let n := et.count / 2
    let e := fun (r : BitVec 5) (w i : Nat) => wideElem (th.getW r) w i
    let sg := fun (w v : Nat) => signedOf w v
    let wide := fun (f : Nat → Nat × Flags) => wroteElems t (2 * w) n k z wd f
    let dot := fun (win wout m : Nat) (sa sb : Bool) => wroteElems t wout (512 / wout) k z wd (fun j =>
      let val := fun (sgn : Bool) (v : Nat) => if sgn then signedOf win v else (v : Int)
      (patternOf wout ((e wd wout j : Int) + ((List.range m).map fun i =>
        val sa (e ws1 win (m * j + i)) * val sb (e ws2 win (m * j + i))).sum), {}))
    (et.isFloat = false → w < 64 →
      Issues (.mulwl t et k z wd ws1 ws2) t (encW 0x38 wd ws1 ws2 k z et 0) s
        (wide fun i => (patternOf (2 * w) (sg w (e ws1 w i) * sg w (e ws2 w i)), {})) ∧
      Issues (.mulwh t et k z wd ws1 ws2) t (encW 0x38 wd ws1 ws2 k z et 1) s
        (wide fun i => (patternOf (2 * w) (sg w (e ws1 w (n + i)) * sg w (e ws2 w (n + i))), {})) ∧
      Issues (.mulwlu t et k z wd ws1 ws2) t (encW 0x38 wd ws1 ws2 k z et 2) s (wide fun i => (e ws1 w i * e ws2 w i, {})) ∧
      Issues (.mulwhu t et k z wd ws1 ws2) t (encW 0x38 wd ws1 ws2 k z et 3) s (wide fun i => (e ws1 w (n + i) * e ws2 w (n + i), {}))) ∧
    (et.isFloat = true → w < 64 →
      Issues (.fmulwl t et k z wd ws1 ws2) t (encW 0x38 wd ws1 ws2 k z et 4) s (wide fun i => fpMulWide et th.rm (e ws1 w i) (e ws2 w i)) ∧
      Issues (.fmulwh t et k z wd ws1 ws2) t (encW 0x38 wd ws1 ws2 k z et 5) s
        (wide fun i => fpMulWide et th.rm (e ws1 w (n + i)) (e ws2 w (n + i))) ∧
      Issues (.fmawl t et k z wd ws1 ws2) t (encW 0x38 wd ws1 ws2 k z et 6) s
        (wide fun i => fpFma et.fmt (widenFmt et) th.rm false false (e ws1 w i) (e ws2 w i) (e wd (2 * w) i)) ∧
      Issues (.fmawh t et k z wd ws1 ws2) t (encW 0x38 wd ws1 ws2 k z et 7) s
        (wide fun i => fpFma et.fmt (widenFmt et) th.rm false false (e ws1 w (n + i)) (e ws2 w (n + i)) (e wd (2 * w) i))) ∧
    Issues (.dot4 t .i8 k z wd ws1 ws2) t (encW 0x39 wd ws1 ws2 k z .i8 0) s (dot 8 32 4 true true) ∧
    Issues (.dot4u t .i8 k z wd ws1 ws2) t (encW 0x39 wd ws1 ws2 k z .i8 1) s (dot 8 32 4 false false) ∧
    Issues (.dot4su t .i8 k z wd ws1 ws2) t (encW 0x39 wd ws1 ws2 k z .i8 2) s (dot 8 32 4 true false) ∧
    Issues (.dot2 t .i8 k z wd ws1 ws2) t (encW 0x39 wd ws1 ws2 k z .i8 3) s (dot 16 32 2 true true) ∧
    Issues (.dot8 t .i8 k z wd ws1 ws2) t (encW 0x39 wd ws1 ws2 k z .i8 4) s (dot 8 64 8 true true) ∧
    Issues (.dot4w t .i8 k z wd ws1 ws2) t (encW 0x39 wd ws1 ws2 k z .i8 5) s (dot 16 64 4 true true)

/-- Float dot products, conversions and the generator. A lane of FDOT2 is the sum of its two products and its old value, rounded once. WCVT
converts element i of the source to element i of the destination, the narrower side packed in part PART of its register; between equal
formats it copies. WPHILOX fills the active words of four lanes from counter and key. The model's own choices in it: log entries 10, 20. -/
def Obligations.WideDotConvertPhilox : Prop :=
  (∀ (s : State) (t : Fin 512) (k : BitVec 3) (z : Bool) (wd ws1 ws2 : BitVec 5),
    let th := s.thread t.val
    let dot := fun (fin fout : Fmt) => wroteElems t fout.bits (512 / fout.bits) k z wd (fun j =>
      let x := fun (r : BitVec 5) (i : Nat) => wideElem (th.getW r) fin.bits (2 * j + i)
      let a := fun (i : Nat) => decodeFmt fin (x ws1 i)
      let b := fun (i : Nat) => decodeFmt fin (x ws2 i)
      let old := wideElem (th.getW wd) fout.bits j
      let c := decodeFmt fout old
      let p := fun (i : Nat) => FVal.mul (a i) (b i)
      let makesNan := fun (v x y : FVal) => v.isNan && !x.isNan && !y.isNan
      let sum := fun (x y : FVal) => makesNan (FVal.add th.rm x y) x y
      let r := encodeIeee fout th.rm (FVal.add th.rm (FVal.add th.rm (p 0) (p 1)) c)
      (r.1, { r.2 with
        nv := isSignalling fin (x ws1 0) || isSignalling fin (x ws1 1) || isSignalling fin (x ws2 0) || isSignalling fin (x ws2 1) ||
          isSignalling fout old || makesNan (p 0) (a 0) (b 0) || makesNan (p 1) (a 1) (b 1) || sum (p 0) (p 1) || sum (p 0) c ||
          sum (p 1) c
        dz := false }))
    let lane := fun (r : BitVec 5) (l : Nat) => wideElem (th.getW r) 128 l
    Issues (.fdot2h t .i8 k z wd ws1 ws2) t (encW 0x39 wd ws1 ws2 k z .i8 6) s (dot .fp16 .fp32) ∧
    Issues (.fdot2b t .i8 k z wd ws1 ws2) t (encW 0x39 wd ws1 ws2 k z .i8 7) s (dot .bf16 .fp32) ∧
    Issues (.fdot2s t .i8 k z wd ws1 ws2) t (encW 0x39 wd ws1 ws2 k z .i8 8) s (dot .fp32 .fp64) ∧
    Issues (.wphilox t .i32 k false wd ws1 ws2) t (encW 0x3E wd ws1 ws2 k false .i32 0) s (wroteElems t 32 16 k false wd (fun i =>
      (philox (lane ws1 (i / 4)) (lane ws2 (i / 4) % 2 ^ 64) / 2 ^ (32 * (i % 4)) % 2 ^ 32, {})))) ∧
  ∀ (s : State) (t : Fin 512) (src dst part : BitVec 4) (k : BitVec 3) (z : Bool) (wd ws1 : BitVec 5),
    let th := s.thread t.val
    let w := encWc wd ws1 src dst part k z
    (∀ a b, Fmt.ofCode src.toNat = some a → Fmt.ofCode dst.toNat = some b → a.isScalar = true → b.isScalar = true →
      let n := 512 / max a.bits b.bits
      let size := n * min a.bits b.bits
      let at_ := fun (f g : Fmt) => if f.bits < g.bits then part.toNat * size else 0
      let from_ := fun (l : Nat) => (th.getW ws1).toNat / 2 ^ (at_ a b + a.bits * l) % 2 ^ a.bits
      let held := fun (v : Wide) (l : Nat) => v.toNat / 2 ^ (at_ b a + b.bits * l) % 2 ^ b.bits
      let f := fun (l : Nat) => if a = b then (from_ l, ({} : Flags)) else coreConvert a b (from_ l)
      (part.toNat < 512 / size → Issues (.wcvt t src dst part k z wd ws1) t w s (fun i u => ∃ v : Wide,
        wroteW t wd v (activeFlags th k n f) i u ∧
        (∀ l, l < n → held v l = if th.active k l then (f l).1 % 2 ^ b.bits else if z then 0 else held (th.getW wd) l) ∧
        ∀ j, j < 512 → ¬ (at_ b a ≤ j ∧ j < at_ b a + n * b.bits) → v.getLsbD j = (decide (b.bits < a.bits) && (th.getW wd).getLsbD j))) ∧
      (512 / size ≤ part.toNat → Issues (.wcvt t src dst part k z wd ws1) t w s (tookFault t eBadcmd th.pc 0))) ∧
    (((Fmt.ofCode src.toNat).elim false (·.isScalar) && (Fmt.ofCode dst.toNat).elim false (·.isScalar)) = false →
      Issues (.wcvt t src dst part k z wd ws1) t w s (tookFault t eBadcmd th.pc 0))


/-- Wide memory. WLD and WST move the 8-byte words of a line that the mask selects, WST where none of those words lies in the image; with
no word selected they only move on. The model's own choices in it: log entries 13, 22, 80. -/
def Obligations.WideMemoryAccess : Prop :=
  ∀ (s : State) (t : Fin 512) (k : BitVec 3) (wd rs1 : BitVec 5) (off : BitVec 13) (a : Nat),
    let th := s.thread t.val
    let addr := th.getX rs1 + off.signExtend 64 * 64
    let sel := fun (i : Nat) => k = 0 ∨ (th.getK k.toNat).getLsbD i = true
    let on := ∃ i, i < 8 ∧ sel i
    let moved := fun (i u : State) => u.thread t.val = { i.thread t.val with pc := th.pc + 4, run := .running, wait := none }
    (on → s.leads addr a 64 → Issues (.wld t k wd rs1 off) t (encWm 0x3B wd rs1 off k) s (fun i u => onlyRead i u t ∧
      sameMemory i u ∧
      u.thread t.val = { i.thread t.val with w := (u.thread t.val).w, pc := th.pc + 4, run := .running, wait := none } ∧
      (∀ l, l < 8 → (sel l → wideElem ((u.thread t.val).getW wd) 64 l = s.numAt (a + 8 * l) 8) ∧
        (¬ sel l → wideElem ((u.thread t.val).getW wd) 64 l = wideElem (th.getW wd) 64 l)) ∧
      ∀ r, r ≠ wd → (u.thread t.val).getW r = th.getW r)) ∧
    (on → s.reaches addr a 64 → (∀ l, l < 8 → sel l → s.hitsImage (a + 8 * l) 8 = false) →
      Issues (.wst t k wd rs1 off) t (encWm 0x3C wd rs1 off k) s (fun i u => onlyAccess i u t ∧ moved i u ∧
        ∀ x, u.peek x = if a ≤ x ∧ x < a + 64 ∧ sel ((x - a) / 8) then BitVec.ofNat 8 ((th.getW wd).toNat / 2 ^ (8 * (x - a)))
          else s.peek x)) ∧
    (on → s.leads addr a 64 → (∃ l, l < 8 ∧ sel l ∧ s.hitsImage (a + 8 * l) 8 = true) →
      Issues (.wst t k wd rs1 off) t (encWm 0x3C wd rs1 off k) s (tookFault t eLocked th.pc addr)) ∧
    (¬ on → s.accessRuns addr 64 = true →
      Issues (.wld t k wd rs1 off) t (encWm 0x3B wd rs1 off k) s (fun i u => onlyThread i u t ∧ moved i u) ∧
      Issues (.wst t k wd rs1 off) t (encWm 0x3C wd rs1 off k) s (fun i u => onlyThread i u t ∧ moved i u))


/-- Gather and scatter on 4- and 8-byte elements. Where every active element has a reachable local address, a gather writes each active
element of wd with the number there and leaves the others; a scatter leaves every byte that no active element covers, and the highest
active element's bytes are its own; both then move on. The model's own choices in it: log entries 22, 80. -/
def Obligations.WideGatherScatter : Prop :=
  ∀ (s : State) (t : Fin 512) (et : ElemType) (k : BitVec 3) (sc : BitVec 2) (wd rs1 ws2 : BitVec 5) (at_ : Nat → Nat),
    let th := s.thread t.val
    let n := et.width / 8
    let addr := fun (l : Nat) => th.getX rs1 + (sextNat et.width (wideElem (th.getW ws2) et.width l) <<< sc.toNat)
    let on := fun (l : Nat) => l < et.count ∧ th.active k l = true
    (32 ≤ et.width → (∀ l, on l → s.leads (addr l) (at_ l) n) →
      Issues (.wgsGather t et k sc wd rs1 ws2) t (encW 0x3D wd rs1 ws2 k false et sc.toNat) s (fun i u => onlyRead i u t ∧
        sameMemory i u ∧
        u.thread t.val = { i.thread t.val with w := (u.thread t.val).w, pc := th.pc + 4, run := .running, wait := none } ∧
        (∀ l, l < et.count → wideElem ((u.thread t.val).getW wd) et.width l =
          if th.active k l then s.numAt (at_ l) n else wideElem (th.getW wd) et.width l) ∧
        ∀ r, r ≠ wd → (u.thread t.val).getW r = th.getW r)) ∧
    (32 ≤ et.width → (∀ l, on l → s.reaches (addr l) (at_ l) n ∧ s.hitsImage (at_ l) n = false) →
      Issues (.wgsScatter t et k sc wd rs1 ws2) t (encW 0x3D wd rs1 ws2 k true et sc.toNat) s (fun i u => onlyAccess i u t ∧
        u.thread t.val = { i.thread t.val with pc := th.pc + 4, run := .running, wait := none } ∧
        (∀ x, (∀ l, on l → ¬ (at_ l ≤ x ∧ x < at_ l + n)) → u.peek x = s.peek x) ∧
        ∀ l, on l → (∀ j, l < j → ¬ on j) →
          ∀ d, d < n → u.peek (at_ l + d) = BitVec.ofNat 8 (wideElem (th.getW wd) et.width l / 2 ^ (8 * d))))
/-! ### Vector engines (R85 to R94, Table 5-6) -/

/-- Element-wise arithmetic of an engine that is clocked and whose next instruction is the command's: every element of the destination
becomes the result of the three source elements at its place, as FP32, INT32 or FP64, rounded to nearest; NaNs of operands that are none
are counted, the stream goes on, and nothing else of the node differs. The model's own choices in it: log entries 20, 87. -/
def Obligations.VectorArithmetic : Prop :=
  ∀ (s : State) (v : Fin 16) (i : VecInstr), i.ty ≤ 2 →
    let x := s.vec v.val
    let dst := vecRegion x.modeB i.dst
    let at_ := fun (op k : Nat) => (x.source i.ty op i.imm dst).getD k 0
    let f := vecFmt i.ty
    let d := fun (n : Nat) => decodeFmt f n
    let flt := fun (y : FVal) (of_ : List FVal) => ((encodeIeee f .rne y).1, y.isNan && of_.all fun o => !o.isNan)
    let sg := fun (n : Nat) => signedOf 32 n
    let int := fun (y : Int) => ((y % 4294967296).toNat, false)
    let does := fun (c : Instr) (op : Nat) (r : Nat → Nat → Nat → Nat × Bool) => s.vecNext v.val op = some i →
      Completes c s (vecMapped v i (fun k => r (at_ i.src1 k) (at_ i.src2 k) (at_ i.src3 k)) s)
    let isInt := i.ty = 1
    (i.ty = 2 → ∃ a n, dst = .file a n) →
    does (.vecMov v) 0x06 (fun a _ _ => (a, false)) ∧
    does (.vecAdd v) 0x10 (fun a b _ => if isInt then int (sg a + sg b) else flt (FVal.add .rne (d a) (d b)) [d a, d b]) ∧
    does (.vecSub v) 0x11 (fun a b _ => if isInt then int (sg a - sg b) else flt (FVal.add .rne (d a) (d b).neg) [d a, d b]) ∧
    does (.vecMul v) 0x12 (fun a b _ => if isInt then int (sg a * sg b) else flt (FVal.mul (d a) (d b)) [d a, d b]) ∧
    does (.vecFma v) 0x13 (fun a b c => flt (FVal.add .rne (FVal.mul (d a) (d b)) (d c)) [d a, d b, d c]) ∧
    does (.vecMin v) 0x14 (fun a b _ => if isInt then int (min (sg a) (sg b)) else flt (FVal.min (d a) (d b)) [d a, d b]) ∧
    does (.vecMax v) 0x15 (fun a b _ => if isInt then int (max (sg a) (sg b)) else flt (FVal.max (d a) (d b)) [d a, d b]) ∧
    does (.vecAbs v) 0x16 (fun a _ _ => if isInt then int (sg a).natAbs else flt (d a).abs [d a]) ∧
    does (.vecNeg v) 0x17 (fun a _ _ => if isInt then int (-sg a) else flt (d a).neg [d a]) ∧
    does (.vecDiv v) 0x28 (fun a b _ => flt (FVal.div (d a) (d b)) [d a, d b]) ∧
    does (.vecSqrt v) 0x29 (fun a _ _ => flt (d a).sqrt [d a]) ∧
    does (.exp2 v) 0x2A (fun a _ _ => flt (d a).exp2 [d a]) ∧
    does (.log2 v) 0x2B (fun a _ _ => flt (d a).log2v [d a])

/-- The comparing, selecting and bitwise instructions, in the same form: comparisons write all ones or 0. The model's own choices in it:
log entries 20, 87. -/
def Obligations.VectorCompareAndBits : Prop :=
  ∀ (s : State) (v : Fin 16) (i : VecInstr), i.ty ≤ 2 →
    let x := s.vec v.val
    let dst := vecRegion x.modeB i.dst
    let at_ := fun (op k : Nat) => (x.source i.ty op i.imm dst).getD k 0
    let f := vecFmt i.ty
    let d := fun (n : Nat) => decodeFmt f n
    let flt := fun (y : FVal) (of_ : List FVal) => ((encodeIeee f .rne y).1, y.isNan && of_.all fun o => !o.isNan)
    let sg := fun (n : Nat) => signedOf 32 n
    let int := fun (y : Int) => ((y % 4294967296).toNat, false)
    let ones := fun (b : Bool) => (if b then 2 ^ f.bits - 1 else 0, false)
    let does := fun (c : Instr) (op : Nat) (r : Nat → Nat → Nat → Nat × Bool) => s.vecNext v.val op = some i →
      Completes c s (vecMapped v i (fun k => r (at_ i.src1 k) (at_ i.src2 k) (at_ i.src3 k)) s)
    let isInt := i.ty = 1
    (i.ty = 2 → ∃ a n, dst = .file a n) →
    does (.relu v) 0x18 (fun a _ _ =>
      if isInt then int (max (sg a) 0)
      else flt (if (d a).isNan then .nan else if FVal.lt (.fin false 0 0) (d a) then d a else .fin false 0 0) [d a]) ∧
    does (.vecClamp v) 0x19 (fun a b c =>
      if isInt then int (min (max (sg a) (sg b)) (sg c)) else flt (FVal.min (FVal.max (d a) (d b)) (d c)) [d a, d b, d c]) ∧
    does (.vecCmplt v) 0x1A (fun a b _ => ones (if isInt then decide (sg a < sg b) else FVal.lt (d a) (d b))) ∧
    does (.vecCmpeq v) 0x1B (fun a b _ => ones (if isInt then decide (sg a = sg b) else FVal.eq (d a) (d b))) ∧
    does (.sel v) 0x1C (fun a b c => (if c % 2 ^ f.bits ≠ 0 then a else b, false)) ∧
    does (.vecAnd v) 0x1D (fun a b _ => (a &&& b, false)) ∧
    does (.vecOr v) 0x1E (fun a b _ => (a ||| b, false)) ∧
    does (.vecXor v) 0x1F (fun a b _ => (a ^^^ b, false)) ∧
    (i.ty ≠ 2 → does (.vecShl v) 0x20 (fun a b _ => (a * 2 ^ (b % 32), false))) ∧
    (i.ty ≠ 2 → does (.vecShra v) 0x21 (fun a b _ => int (sg a / 2 ^ (b % 32))))

/-- Reductions in the fixed tree of R89. In mode A element 0 of the destination takes the tree over the source vector and the other
elements become 0; in mode B each row, or each column, of the buffer region reduces to its place of the destination vector and the other
places stay. One of a broadcast vector in mode B leaves its destination (log entry 87). -/
def Obligations.VectorReductions : Prop :=
  ∀ (s : State) (v : Fin 16) (i : VecInstr),
    let x := s.vec v.val
    let dst := vecRegion x.modeB i.dst
    let src := x.readRegion i.ty (vecRegion false i.src1)
    let old := fun (k : Nat) => SMap.get 0 x.file (i.dst % 16 * 128 + k)
    let modeA := fun (op : Nat) =>
      let r := vecTree op i.ty src.length.log2 src
      vecComputed v i.ty dst (fun k => if k = 0 then r.1 else 0) r.2 s
    let byRow := fun (op buf first count : Nat) =>
      let r := fun (k : Nat) => vecTree op i.ty 7 ((List.range 128).map fun c => SMap.get 0 x.bufs ((buf * 128 + k) * 128 + c))
      vecComputed v i.ty dst (fun k => if first ≤ k ∧ k < first + count then (r k).1 else old k)
        (((List.range count).map fun k => (r (first + k)).2).foldl (· + ·) 0) s
    let byColumn := fun (op buf first count : Nat) =>
      let r := fun (k : Nat) => vecTree op i.ty count.log2
        ((List.range count).map fun c => SMap.get 0 x.bufs ((buf * 128 + first + c) * 128 + k))
      vecComputed v i.ty dst (fun k => (r k).1) (((List.range 128).map fun k => (r k).2).foldl (· + ·) 0) s
    let skips := fun (u : State) => u = { s with vecs := u.vecs, regs := u.regs } ∧ u.vec v.val = x.advance ∧
      (∀ w, w ≠ v.val → u.vec w = s.vec w) ∧ u.rd rVecInstrDone v.val = min (s.rd rVecInstrDone v.val + 1) 0xFFFFFFFF ∧
      onlyRegs tyVec v.val [0x080, 0x084] s u
    let inA := x.modeB = false ∧ i.dst < 32 ∧ i.src1 < 32 ∧ i.ty ≤ 2
    let inB := x.modeB = true ∧ i.dst < 16 ∧ i.ty < 2
    (s.vecNext v.val 0x30 = some i → inA → Completes (.rsum v) s (modeA 0x30)) ∧
    (s.vecNext v.val 0x31 = some i → inA → Completes (.rmax v) s (modeA 0x31)) ∧
    (s.vecNext v.val 0x32 = some i → inA → Completes (.rmin v) s (modeA 0x32)) ∧
    (∀ buf first count, inB → i.imm % 2 = 0 → vecRegion true i.src1 = .rows buf first count →
      (s.vecNext v.val 0x30 = some i → Completes (.rsum v) s (byRow 0x30 buf first count)) ∧
      (s.vecNext v.val 0x31 = some i → Completes (.rmax v) s (byRow 0x31 buf first count)) ∧
      (s.vecNext v.val 0x32 = some i → Completes (.rmin v) s (byRow 0x32 buf first count))) ∧
    (∀ buf first count, inB → i.imm % 2 = 1 → vecRegion true i.src1 = .rows buf first count →
      (s.vecNext v.val 0x30 = some i → Completes (.rsum v) s (byColumn 0x30 buf first count)) ∧
      (s.vecNext v.val 0x31 = some i → Completes (.rmax v) s (byColumn 0x31 buf first count)) ∧
      (s.vecNext v.val 0x32 = some i → Completes (.rmin v) s (byColumn 0x32 buf first count))) ∧
    (x.modeB = true → i.src1 < 32 →
      (s.vecNext v.val 0x30 = some i → Completes (.rsum v) s skips) ∧
      (s.vecNext v.val 0x31 = some i → Completes (.rmax v) s skips) ∧
      (s.vecNext v.val 0x32 = some i → Completes (.rmin v) s skips))

/-- VLD and VST of a field whose memory is clocked. VLD puts the elements of its field at the top-left of the destination and zero bits in
the rest; VST passes ROWS x COLS elements of its source through the result stage into its field, counts the conversion events, the first
range loss of a job also as an event, and changes no byte that holds none of those elements. The stream then goes on. Where the memory is
not clocked the access is held (R13, log entry 82). -/
def Obligations.VectorLoadStore : Prop :=
  ∀ (s : State) (v : Fin 16) (i : VecInstr) (f : Field), s.field i.desc.field = some f →
    let x := s.vec v.val
    let dst := vecRegion x.modeB i.dst
    let src := vecRegion x.modeB i.src1
    let width := fun (r : VecRegion) => match r with | .rows _ _ _ => 128 | .file _ _ | .none => r.length i.ty
    let rows := (List.range i.desc.rows).map fun r => ((x.readRegion i.ty src).drop (r * width src)).take i.desc.cols
    let r := s.resultStage f (vecFmt i.ty) (i.desc.startAt x.iteration) i.desc.orient rows
    let counts := fun (reg : Reg) (n : Nat) (u : State) => u.rd reg v.val = min (s.rd reg v.val + n) 0xFFFFFFFF
    (s.memRuns f = true → i.ty ≤ 2 → (i.ty = 2 → ∃ a n, dst = .file a n) → s.vecNext v.val 0x01 = some i →
      Completes (.vld v) s (fun u =>
        vecWrote v i.ty dst (fun k => if k / width dst < i.desc.rows ∧ k % width dst < i.desc.cols
          then s.elemRaw f (i.desc.index x.iteration (k / width dst) (k % width dst)) else 0) s u ∧
        onlyRegsRead tyVec v.val [0x080, 0x084] s u)) ∧
    (s.memRuns f = true → s.vecNext v.val 0x02 = some i → Completes (.vst v) s (fun u =>
      u = { s.stored u with vecs := u.vecs } ∧ u.vec v.val = x.advance ∧ (∀ w, w ≠ v.val → u.vec w = s.vec w) ∧
      u.mem = r.1.mem ∧ u.lineKey = r.1.lineKey ∧ counts rVecConvSat r.2.sat u ∧ counts rVecConvNan r.2.nan u ∧
      counts rVecConvRloss r.2.rloss u ∧ counts rVecInstrDone 1 u ∧
      (s.rd rVecConvRloss v.val = 0 → r.2.rloss ≠ 0 →
        u.hdr tyVec v.val hErrCode = eWalnutRange ∧ u.hdr tyVec v.val hErrInfo0 = i.desc.field % 2 ^ 32) ∧
      (i.desc.start.length = 4 → 0 < i.desc.cols → ∀ a, (∀ m n, m < i.desc.rows → n < i.desc.cols → ¬ f.covers (i.desc.index x.iteration m n) a) →
        u.peek a = s.peek a))) ∧
    (s.memRuns f = false →
      (s.vecNext v.val 0x01 = some i → exec (.vld v) s = .next s) ∧ (s.vecNext v.val 0x02 = some i → exec (.vst v) s = .next s))

/-- TAKE, REL and LOOP. TAKE of a FULL half marks it TAKEN and goes on, of any other it waits; REL empties its half and steps its fill
order; LOOP repeats the next instructions. A command whose instruction is not the next of a clocked engine, or whose engine waits, changes
nothing (log entry 12). The model's own choices in it: log entry 36. -/
def Obligations.VectorHalvesAndLoop : Prop :=
  ∀ (s : State) (v : Fin 16) (i : VecInstr) (h : Nat),
    let x := s.vec v.val
    let only := fun (u : State) => u = { s with vecs := u.vecs, regs := u.regs } ∧ (∀ w, w ≠ v.val → u.vec w = s.vec w) ∧
      onlyRegs tyVec v.val [0x080, 0x084] s u
    let went := fun (u : State) => only u ∧ u.rd rVecInstrDone v.val = min (s.rd rVecInstrDone v.val + 1) 0xFFFFFFFF
    (s.vecNext v.val 0x03 = some i → halfOf i.src1 = some h →
      (SMap.get 0 x.halves h = 2 → Completes (.take v) s (fun u => went u ∧
        u.vec v.val = { x.advance with halves := (u.vec v.val).halves, takeWait := none } ∧
        ∀ g, SMap.get 0 (u.vec v.val).halves g = if g = h then 3 else SMap.get 0 x.halves g)) ∧
      (SMap.get 0 x.halves h ≠ 2 → Completes (.take v) s (fun u => only u ∧ u.vec v.val = { x with takeWait := some h } ∧
        u.rd rVecInstrDone v.val = s.rd rVecInstrDone v.val))) ∧
    (s.vecNext v.val 0x04 = some i → halfOf i.src1 = some h → Completes (.rel v) s (fun u => went u ∧
      u.vec v.val = { x.advance with halves := (u.vec v.val).halves, rels := (u.vec v.val).rels } ∧
      (∀ g, SMap.get 0 (u.vec v.val).halves g = if g = h then 0 else SMap.get 0 x.halves g) ∧
      ∀ g, SMap.get 0 (u.vec v.val).rels g = if g = h then SMap.get 0 x.rels h + 1 else SMap.get 0 x.rels g)) ∧
    (s.vecNext v.val 0x05 = some i → Completes (.loop v) s (fun u => went u ∧
      u.vec v.val = { x.advance with loop := some ⟨x.advance.pc, i.imm / 2 ^ 32 % 256, i.imm % 2 ^ 32, 0⟩ })) ∧
    (s.vecNext v.val 0x03 = none → exec (.take v) s = .next s) ∧ (s.vecNext v.val 0x04 = none → exec (.rel v) s = .next s) ∧
    (s.vecNext v.val 0x05 = none → exec (.loop v) s = .next s) ∧ (s.vecNext v.val 0x10 = none → exec (.vecAdd v) s = .next s)

/-! ### Tensor tiles (R57 to R80, Table 4-5) -/

/-- FETCH: the slots from A_SRC on hold, at each row and K position of the command, the converted element that its descriptor names; of a
short format that is the element rounded once into the operand format, of an MX format the element beside its scale. The slots take the
pitch and format, and nothing of the tile differs otherwise. An element of 4 to 64 bits, written at a bit address aligned to its width in
a reachable line, reads back, and every other such element reads as before. The model's own choices in it: log entries 30, 86. -/
def Obligations.TileFetch : Prop :=
  (∀ (s : State) (ba w v k : Nat), w = 4 ∨ w = 8 ∨ w = 16 ∨ w = 32 ∨ w = 64 → ba % w = 0 → s.lineState (ba / 8) = .plain k →
    (s.putBits ba w v).bitsAt ba w = v % 2 ^ w ∧
    ∀ b, b % w = 0 → b ≠ ba → (s.putBits ba w v).bitsAt b w = s.bitsAt b w) ∧
  ∀ (s : State) (t : Fin 256) (c : TileCmd), s.tileNext t.val 0x01 = some c →
    let x := s.tile t.val
    let rows := (s.readOperand t.val c.aFmt c.a c.m c.k false).1
    let cell := fun (r k : Nat) => (rows.getD r []).getD k {}
    (s.operandRuns c.a (walnutCode c.aFmt) = true → c.slotOff + c.k ≤ c.n → Completes (.fetch t) s (fun u => tileRan t s u ∧
      u.tile t.val = { x with
        pos := x.pos + 1, cells := (u.tile t.val).cells, slots := (u.tile t.val).slots, raised := (u.tile t.val).raised } ∧
      (∀ q, SMap.get none (u.tile t.val).slots q =
        if c.aSrc ≤ q ∧ q < c.aSrc + slotCount c.aFmt c.aMx c.m c.n then some ⟨c.n, c.aFmt, c.aMx⟩ else SMap.get none x.slots q) ∧
      (∀ r k, r < c.m → k < c.k →
        SMap.get none (u.tile t.val).cells (cellAddr c.aSrc c.n c.aFmt r (c.slotOff + k)) = some (cell r k)) ∧
      ∀ y, (y / 131072 < c.aSrc ∨ c.aSrc + slotCount c.aFmt c.aMx c.m c.n ≤ y / 131072) →
        (∀ r k, r < c.m → k < c.k → y ≠ cellAddr c.aSrc c.n c.aFmt r (c.slotOff + k)) →
        SMap.get none (u.tile t.val).cells y = SMap.get none x.cells y)) ∧
    (∀ f r k, s.field c.a.field = some f → walnutCode c.aFmt = false → r < c.m → k < c.k →
      let i := c.a.index r k
      cell r k =
        if f.mx then { raw := s.elemRaw f i, scale := s.elemScale f i }
        else { raw := (cvtOperand f.fmt ((Fmt.ofCode c.a.cvt).getD f.fmt) c.a.prescale (s.elemRaw f i)).1 }) ∧
    (s.operandRuns c.a (walnutCode c.aFmt) = false → exec (.fetch t) s = .next s)

/-- MMA: each output element of the bank becomes the products of its row of A and its row of B added to 0, or with ACC to its old value:
exact in INT32 with wrapping, which ACC_WRAP counts, or in FP32 rounded once a group, split at one K-step in a segment that is being
balanced (R30, R268); every other element of the banks stays. The model's own choices in it: log entries 30, 85, 86. -/
def Obligations.TileMma : Prop :=
  ∀ (s : State) (t : Fin 256) (c : TileCmd), s.tileNext t.val 0x02 = some c → c.m ≤ 64 → c.n ≤ 128 →
    let x := s.tile t.val
    let a := s.arrayOperand t.val c.aFmt c.aSrc c.aStream c.a c.m c.k false
    let b := a.2.arrayOperand t.val c.bFmt c.bSrc c.bStream c.b c.n c.k true
    let fa := (Fmt.ofCode c.aFmt).getD .fp32
    let fb := (Fmt.ofCode c.bFmt).getD .fp32
    let key := fun (i j : Nat) => c.bank * 8192 + i * 128 + j
    let old := fun (i j : Nat) => if c.accIn then SMap.get 0 x.banks (key i j) else 0
    let isInt := fa.isInt && !c.aMx
    let int := fun (i j : Nat) => mmaInt fa fb (old i j) (a.1.getD i []) (b.1.getD j [])
    let new := fun (u : State) (i j : Nat) => SMap.get 0 (u.tile t.val).banks (key i j)
    let wraps := (((List.range c.m).map fun i => ((List.range c.n).filter fun j => (int i j).2).length).foldl (· + ·) 0)
    (s.arrayRuns c = true → Completes (.mma t) s (fun u => tileRan t s u ∧
      u.tile t.val = { x with
        pos := x.pos + 1, banks := (u.tile t.val).banks, raised := (u.tile t.val).raised
        intBanks := if isInt then c.bank :: x.intBanks.erase c.bank else x.intBanks.erase c.bank } ∧
      (isInt = true → (∀ i j, i < c.m → j < c.n → new u i j = (int i j).1) ∧
        u.rd rAccWrap t.val = min (s.rd rAccWrap t.val + wraps) 0xFFFFFFFF) ∧
      (isInt = false → s.balanced t.val = false → ∀ i j, i < c.m → j < c.n →
        new u i j = mmaFloat fa fb c.aMx (old i j) (a.1.getD i []) (b.1.getD j [])) ∧
      (isInt = false → s.balanced t.val = true → ∃ cut, cut ≤ c.k ∧ ∀ i j, i < c.m → j < c.n →
        new u i j = mmaSplit fa fb c.aMx (old i j) (a.1.getD i []) (b.1.getD j []) cut) ∧
      ∀ y, (∀ i j, i < c.m → j < c.n → y ≠ key i j) → SMap.get 0 (u.tile t.val).banks y = SMap.get 0 x.banks y)) ∧
    (s.arrayRuns c = false → exec (.mma t) s = .next s)

/-- WMMA and LADD work on the long store: each output element takes the Walnut pass of its rows under the exponents in the alignment
registers, or the records of the field added to it; mismatches of exponents and overflows are counted; the banks and local memory stay.
The model's own choices in it: log entries 30, 86. -/
def Obligations.TileLongStore : Prop :=
  ∀ (s : State) (t : Fin 256) (c : TileCmd), c.m ≤ 64 → c.n ≤ 128 →
    let x := s.tile t.val
    let a := s.arrayOperand t.val c.aFmt c.aSrc c.aStream c.a c.m c.k false
    let b := a.2.arrayOperand t.val c.bFmt c.bSrc c.bStream c.b c.n c.k true
    let old := fun (i j : Nat) => (SMap.get {} x.long (i * 128 + j) : LongCell)
    let new := fun (u : State) (i j : Nat) => (SMap.get {} (u.tile t.val).long (i * 128 + j) : LongCell)
    let total := fun (g : Nat → Nat → Nat) =>
      ((List.range c.m).map fun i => ((List.range c.n).map fun j => g i j).foldl (· + ·) 0).foldl (· + ·) 0
    let ran := fun (mismatch overflow : Nat → Nat → Nat) (u : State) => tileRan t s u ∧
      (∀ y, (∀ i j, i < c.m → j < c.n → y ≠ i * 128 + j) →
        (SMap.get {} (u.tile t.val).long y : LongCell) = SMap.get {} x.long y) ∧
      u.rd rWnSpecial t.val = min (s.rd rWnSpecial t.val + total mismatch) 0xFFFFFFFF ∧
      u.rd rWnOvf t.val = min (s.rd rWnOvf t.val + total overflow) 0xFFFFFFFF
    let pass := fun (i j : Nat) => wmmaCell c.fast c.accIn (old i j) ((a.1.map rowExpOf).getD i 0) ((b.1.map rowExpOf).getD j 0)
      (a.1.getD i []) (b.1.getD j [])
    (s.tileNext t.val 0x03 = some c → s.arrayRuns c = true → Completes (.wmma t) s (fun u =>
      ran (fun i j => (pass i j).2.mismatch) (fun i j => (pass i j).2.overflow) u ∧
      u.tile t.val = { x with
        pos := x.pos + 1, long := (u.tile t.val).long, raised := (u.tile t.val).raised
        alignA := a.1.map rowExpOf, alignB := b.1.map rowExpOf } ∧
      ∀ i j, i < c.m → j < c.n → new u i j = (pass i j).1)) ∧
    (∀ f, s.tileNext t.val 0x05 = some c → s.field c.rOp.field = some f → s.memRuns f = true →
      let w := fun (i j q : Nat) => s.elemRaw f (c.rOp.recordIdx i j q)
      let r := fun (i j : Nat) => laccOf (w i j 0 + w i j 1 * 2 ^ 64 + w i j 2 * 2 ^ 128 + w i j 3 * 2 ^ 192)
      let sum := fun (i j : Nat) => signedOf 160 (old i j).sum + signedOf 160 (r i j).sum
      let outside := fun (i j : Nat) => decide (sum i j < -2 ^ 159) || decide (2 ^ 159 ≤ sum i j)
      let mis := fun (i j : Nat) =>
        decide ((old i j).expA ≠ signedOf 16 (r i j).expA) || decide ((old i j).expB ≠ signedOf 16 (r i j).expB)
      Completes (.ladd t) s (fun u => ran (fun i j => (mis i j).toNat) (fun i j => (outside i j).toNat) u ∧
        u.tile t.val = { x with pos := x.pos + 1, long := (u.tile t.val).long, raised := (u.tile t.val).raised } ∧
        ∀ i j, i < c.m → j < c.n → new u i j = {
          sum := (sum i j % 2 ^ 160).toNat, expA := (old i j).expA, expB := (old i j).expB
          special := (old i j).special || mis i j || outside i j
          fast := (old i j).fast || bitOf (r i j).flags 1
          owed := (old i j).owed || bitOf (r i j).flags 0 || (outside i j && !((old i j).special || mis i j)) })) ∧
    (∀ f, s.field c.rOp.field = some f → s.memRuns f = false → s.tileNext t.val 0x05 = some c → exec (.ladd t) s = .next s) ∧
    (s.tileNext t.val 0x03 = some c → s.arrayRuns c = false → exec (.wmma t) s = .next s)

/-- DRAIN and DRAIN_ACCEPT. A DRAIN to a field passes its bank, or the long store, through the result stage, or stores the records of the
long store as they are, and changes no byte that holds none of its elements; a DRAIN to a half of the vector engine is delivered where the
half is EMPTY and it is the tile's turn, and else waits while the stream goes on; a waiting one is accepted in the same way. The model's
own choices in it: log entries 30, 36, 86, 87. -/
def Obligations.TileDrain : Prop :=
  ∀ (s : State) (t : Fin 256) (c : TileCmd) (f : Field),
    let v := vecOfTile t.val
    let x := s.tile t.val
    let y := s.vec v
    let h := 2 * c.r.tbuf + c.r.half.toNat
    let base := (h / 2 * 128 + h % 2 * 64) * 128
    let counted := fun (u : State) => u.rd rTileCmdDone t.val = min (s.rd rTileCmdDone t.val + 1) 0xFFFFFFFF
    let others := fun (u : State) => ∀ w, w ≠ t.val → u.tile w = s.tile w
    let delivered := fun (x' : Tile) (u : State) => u = { s with tiles := u.tiles, vecs := u.vecs, regs := u.regs } ∧ counted u ∧
      others u ∧ u.tile t.val = x' ∧ (∀ w, w ≠ v → u.vec w = s.vec w) ∧
      (∀ k, k / 4096 ≠ tyTile * 512 + t.val → k / 4096 ≠ tyVec * 512 + v → u.regGet k = s.regGet k) ∧
      u.vec v = { (if y.takeWait = some h then { y.advance with takeWait := none } else y) with
        bufs := (u.vec v).bufs, halves := (u.vec v).halves } ∧
      (∀ g, SMap.get 0 (u.vec v).halves g =
        if g = h then (if y.takeWait = some h then 3 else 2) else SMap.get 0 y.halves g) ∧
      (∀ i j, i < 64 → j < 128 → SMap.get 0 (u.vec v).bufs (base + 128 * i + j) =
        if i < c.m ∧ j < c.n then SMap.get 0 x.banks (c.bank * 8192 + i * 128 + j) else 0) ∧
      ∀ q, q < base ∨ base + 8192 ≤ q → SMap.get 0 (u.vec v).bufs q = SMap.get 0 y.bufs q
    let src : Fmt := if x.intBanks.contains c.bank then .int32 else .fp32
    let staged := fun (m : List Host.Cell × SMap Nat) (u : State) => u = { s.stored u with tiles := u.tiles } ∧ counted u ∧ others u ∧
      u.tile t.val = { x with pos := x.pos + 1 } ∧ (u.mem, u.lineKey) = m ∧ onlyPage tyTile t.val s u
    let bank := s.resultStage f src c.r.start c.r.orient (s.bankRows t.val c)
    let toField := s.tileNext t.val 0x04 = some c ∧ c.r.route ≠ 1 ∧ s.field c.r.field = some f
    (s.tileNext t.val 0x04 = some c → c.r.route = 1 → s.drainFits t.val c = true →
      Completes (.drain t) s (delivered { x with pos := x.pos + 1 })) ∧
    (s.tileNext t.val 0x04 = some c → c.r.route = 1 → s.drainFits t.val c = false → Completes (.drain t) s (fun u =>
      u = { s with tiles := u.tiles, regs := u.regs } ∧ others u ∧ onlyRegs tyTile t.val [0x080] s u ∧
      u.tile t.val = { x with waiting := some c, pos := x.pos + 1 })) ∧
    (toField → s.memRuns f = true → c.r.raw = false → c.long = false → Completes (.drain t) s (fun u =>
      staged (bank.1.mem, bank.1.lineKey) u ∧ u.rd rTileConvSat t.val = min (s.rd rTileConvSat t.val + bank.2.sat) 0xFFFFFFFF ∧
      u.rd rTileConvNan t.val = min (s.rd rTileConvNan t.val + bank.2.nan) 0xFFFFFFFF ∧
      (c.r.start.length = 4 → 0 < c.n → ∀ a, (∀ i j, i < c.m → j < c.n → ¬ f.covers (c.r.index i j) a) → u.peek a = s.peek a))) ∧
    (toField → s.memRuns f = true → c.r.raw = true → Completes (.drain t) s (fun u =>
      staged ((s.drainRaw t.val c f).mem, (s.drainRaw t.val c f).lineKey) u ∧
      (f.fmt = .int64 → f.mx = false → c.r.start.length = 4 → ∀ a,
        (∀ i j q, i < c.m → j < c.n → q < 4 → ¬ f.covers (c.r.recordIndex i j q) a) → u.peek a = s.peek a))) ∧
    (toField → s.memRuns f = true → c.r.raw = false → c.long = true → Completes (.drain t) s (fun u =>
      staged ((s.drainLong t.val c f).mem, (s.drainLong t.val c f).lineKey) u ∧
      (c.r.start.length = 4 → 0 < c.n → ∀ a, (∀ i j, i < c.m → j < c.n → ¬ f.covers (c.r.index i j) a) → u.peek a = s.peek a))) ∧
    (toField → s.memRuns f = false → exec (.drain t) s = .next s) ∧
    (x.waiting = some c → s.drainFits t.val c = true → Completes (.drainAccept t) s (delivered { x with waiting := none })) ∧
    (x.waiting = some c → s.drainFits t.val c = false → exec (.drainAccept t) s = .next s)

/-! ### Assembly units (R100 to R103) -/

/-- CLEAR, GSS and GSP of a unit that is clocked, as is the memory of its fields, and whose next instruction is the command's: they run
their entries in ascending order, write no byte outside the elements of the destination in the window, and the unit moves on. CLEAR writes
+0 where its elements lie in the field and the window. An entry whose indices lie in their fields and whose destination lies in the window
writes the source, the product of two in GSP, times the coefficient, or with ACC one rounding of that plus the old value; any other entry
is skipped: ASM_OOR counts it, the first of a job raises E_RANGE with the unit's position and the entry, and no byte of memory changes.
The model's own choices in it: log entries 12, 35. -/
def Obligations.AssemblyEntries : Prop :=
  (∀ (s : State) (u : Fin 4) (i : AsmInstr) (st : AsmStream) (f : Field), s.field i.dst = some f → f.fmt = .fp64 → f.mx = false →
    let went := fun (r : State) => r = { s.stored r with asms := r.asms } ∧ (∀ w, w ≠ u.val → r.asm w = s.asm w) ∧
      r.asm u.val = { s.asm u.val with pos := (s.asm u.val).pos + 1 } ∧ onlyPage tyAsm u.val s r ∧
      r.rd rAsmInstrDone u.val = min (s.rd rAsmInstrDone u.val + 1) 0xFFFFFFFF ∧
      ∀ a, (∀ n, st.winLo ≤ n → n < st.winHi → n < f.size → ¬ f.covers (f.ofLinear n) a) → r.peek a = s.peek a
    let run := (List.range i.count).foldl (fun t k => t.asmRun u.val i st (i.start + k)) s
    let ends := fun (t r : State) => r.mem = t.mem ∧ r.rd rAsmEntries u.val = t.rd rAsmEntries u.val ∧
      r.rd rAsmOor u.val = t.rd rAsmOor u.val ∧ r.rd rAsmInvalid u.val = t.rd rAsmInvalid u.val
    (s.asmNext u.val 1 = some (i, st) → ∃ r, exec (.clear u) s = .next r ∧ went r ∧
      (i.start + i.count ≤ f.size → st.winLo ≤ i.start → i.start + i.count ≤ st.winHi →
        ends ((List.range i.count).foldl (fun t k => (t.putElem f (i.start + k) 0).bump64 rAsmEntries 1 u.val) s) r)) ∧
    (s.asmNext u.val 2 = some (i, st) → ∃ r, exec (.gss u) s = .next r ∧ went r ∧ ends run r) ∧
    (s.asmNext u.val 3 = some (i, st) → ∃ r, exec (.gsp u) s = .next r ∧ went r ∧ ends run r)) ∧
  (∀ (s : State) (u : Fin 4) (i : AsmInstr) (st : AsmStream) (j : Nat) (f : Field), s.field i.dst = some f →
    let t := s.noteEntry i st j
    (∀ d v bad, s.asmEntry i st j = some (d, v, bad) →
      s.asmRun u.val i st j = ((t.putElem f d v).bump rAsmInvalid bad u.val).bump64 rAsmEntries 1 u.val) ∧
    (s.asmEntry i st j = none → s.asmRun u.val i st j = t.asmSkip u.val j)) ∧
  (∀ (s : State) (u : Fin 4) (j : Nat),
    let t := s.asmSkip u.val j
    t.mem = s.mem ∧ t.asms = s.asms ∧ t.rd rAsmOor u.val = min (s.rd rAsmOor u.val + 1) 0xFFFFFFFF ∧
    (s.rd rAsmOor u.val = 0 → t.hdr tyAsm u.val hErrCode = eRange ∧ t.hdr tyAsm u.val hErrInfo1 = j % 2 ^ 32 ∧
      t.hdr tyAsm u.val hErrInfo0 = ((s.asm u.val).seg.getD 0 % 256 + (s.asm u.val).pos * 256) % 2 ^ 32) ∧
    (s.rd rAsmOor u.val ≠ 0 → t.hdr tyAsm u.val hErrCode = s.hdr tyAsm u.val hErrCode)) ∧
  ∀ (s : State) (i : AsmInstr) (st : AsmStream) (j si di old c : Nat),
    s.indexAt i.directS i.sidx j = some si → s.indexAt i.directD i.didx j = some di → s.gather i.dst di = some old →
    (if i.immCoef then some i.imm else s.gather i.coef j) = some c →
    let made := fun (x bad : Nat) =>
      if di < st.winLo ∨ st.winHi ≤ di then none
      else if i.acc then some (di, (fp64Fma x c old).1, bad + (fp64Fma x c old).2)
      else some (di, (fp64Mul x c).1, bad + (fp64Mul x c).2)
    (∀ a, i.opcode ≠ 3 → s.gather i.src1 si = some a → s.asmEntry i st j = made a 0) ∧
    (∀ a si2 b, i.opcode = 3 → s.gather i.src1 si = some a → s.indexAt i.directS i.sidx2 j = some si2 → s.gather i.src2 si2 = some b →
      s.asmEntry i st j = made (fp64Mul a b).1 (fp64Mul a b).2) ∧
    (s.gather i.src1 si = none → s.asmEntry i st j = none)

/-! ### Solver engines (R107 to R118) -/

/-- FACTOR, SOLVE, RESID and CORR, where every engine of the record stands at the command and engines and memory are clocked. A FACTOR
with reuse on a valid factor of the same pattern, and every SOLVE, RESID and CORR, moves each engine of the record past the command;
another FACTOR begins a factorisation of this step with no task done. SOLVE without a guess leaves the solution of the factor; RESID the
residual, the norms and the two tests in SCB; a sweep of a system that has converged, stagnated or used its sweeps is skipped and counted.
The model's own choices in it: log entries 14, 15, 35. -/
def Obligations.SolverCommands : Prop :=
  ∀ (s : State) (id : Fin 16) (v : Solver) (c : SolvCmd),
    let r := v.record
    let rest := fun (u : State) => u = { s.stored u with solvEngs := u.solvEngs, factors := u.factors, tiles := u.tiles } ∧
      ∀ t, (s.tile t).feed = false → u.tile t = s.tile t
    let moved := fun (u : State) => rest u ∧ u.factors = s.factors ∧
      ∀ e, u.eng e = { s.eng e with pos := (s.eng e).pos + r.engines.count e }
    let good := bitOf (s.factFlags r) 0 && decide (s.roleGet r 9 1 = s.roleGet r scb 0)
    let clean := ((upTo 4).foldl (fun t b => t.scbFlag r b false) (s.rolePut4 r scb 2 0 0))
    let st := s.scbState r
    let skip := bitOf st 0 = true ∨ bitOf st 1 = true ∨ min 16 (s.roleGet r scb 8 % 2 ^ 32) ≤ s.roleGet r scb 2 % 2 ^ 32
    (s.solvReady id.val 1 = some (v, c) → s.run id.val = none → c.reuse = true → good = true →
      ∃ u, exec (.factor id) s = .next u ∧ moved u) ∧
    (s.solvReady id.val 1 = some (v, c) → s.run id.val = none → c.reuse = false ∨ good = false →
      ∃ u, exec (.factor id) s = .next u ∧ rest u ∧ u.tiles = s.tiles ∧ u.solvEngs = s.solvEngs ∧ ∃ f, u.run r.id = some f ∧
        f.done = [] ∧ f.step = s.rd rSchStep ∧ f.events = [] ∧ f.nonfinite = [] ∧ f.fronts = []) ∧
    (s.solvReady id.val 2 = some (v, c) → c.guess = false →
      let t := ((clean.rolePut r scb 3 infF64).rolePut r scb 4 infF64).noteCommand v
        [(4, r.n * r.nrhs), (9, v.factorLen), (8, v.schedLen)]
      ∃ u, exec (.solve id) s = .next u ∧ moved u ∧ u.tiles = s.tiles ∧
        u.mem = ((t.solveInto v 4 fun x i b => x.rolePut r 5 i b).rolePut r scb 1 (t.roleGet r scb 0)).mem) ∧
    (s.solvReady id.val 2 = some (v, c) → c.guess = true →
      ∃ u, exec (.solve id) s = .next u ∧ moved u ∧ u.tiles = s.tiles) ∧
    (s.solvReady id.val 3 = some (v, c) →
      let p := s.patternOf r
      let b := fun (i : Nat) => s.roleGet r 4 i
      let x := fun (i : Nat) => s.roleGet r 5 i
      let cells := (List.range r.nrhs).flatMap fun h => (List.range r.n).map fun i =>
        (h * r.n + i, (s.rowVals r p i).foldl (fun t e => fnmaF e.2 (x (h * r.n + e.1)) t) (b (h * r.n + i)))
      let top := fun (g : Nat → Nat) => (List.range (r.nrhs * r.n)).foldl (fun m i => maxF m (absF (g i))) 0
      let rho := cells.foldl (fun m y => maxF m (absF y.2)) 0
      let tol := ldexpF (addF (mulF (s.anorm r p) (top x)) (top b)) r.tolExp
      let t := s.noteCommand v [(3, p.rowptr.getD p.n 0), (4, r.n * r.nrhs), (5, r.n * r.nrhs)]
      let norms := [(3, rho), (4, s.roleGet r scb 3), (5, s.anorm r p), (6, top x), (7, top b)]
      let kept := norms.foldl (fun t y => t.rolePut r scb y.1 y.2) (cells.foldl (fun t y => t.rolePut r 6 y.1 y.2) t)
      let converged := !(decodeFmt .fp64 rho).isNan && !(decodeFmt .fp64 tol).isNan && !ltF tol rho
      let first := if converged then kept.scbFlag r 0 true else kept
      ∃ u, exec (.resid id) s = .next u ∧ moved u ∧ u.tiles = s.tiles ∧
        u.mem = (if ltF (ldexpF (s.roleGet r scb 3) (-1)) rho then first.scbFlag r 1 true else first).mem) ∧
    (s.solvReady id.val 4 = some (v, c) → skip → ∃ u, exec (.corr id) s = .next u ∧ moved u ∧ u.tiles = s.tiles ∧
      u.mem = ((List.range (r.nrhs * r.n)).foldl (fun t i => t.rolePut r 7 i 0) s).mem ∧
      u.rd rSolvSkipped r.lead = min (s.rd rSolvSkipped r.lead + 1) 0xFFFFFFFF) ∧
    (s.solvReady id.val 4 = some (v, c) → ¬ skip → ∃ u, exec (.corr id) s = .next u ∧ moved u ∧ u.tiles = s.tiles ∧
      let t := s.noteCommand v [(6, r.n * r.nrhs), (9, v.factorLen), (8, v.schedLen)]
      (c.update = false → u.mem = ((t.solveInto v 6 fun t i d => t.rolePut r 7 i d).rolePut4 r scb 2 0
        (s.roleGet r scb 2 % 2 ^ 32 + 1)).mem))

/-- The tasks of a factorisation: where the engine and the memory of its record are clocked, its ready task of lowest index runs on the
front of its supernode; the task is done, the engine counts it, and with the last one the factorisation is over and every engine of the
record moves on. The model's own choices in it: log entries 14, 35. -/
def Obligations.SolverTasks : Prop :=
  ∀ (s : State) (e : Fin 4) (v : Solver) (run : FactorRun) (i : Nat) (t : SolvTask) (n : Supernode),
    let r := v.record
    let front := s.frontOf v run t.sn n
    let last := run.done.length + 1 = v.sched.tasks.length
    let did := fun (m : SMap Nat) (u : State) =>
      u = { s.stored u with solvEngs := u.solvEngs, factors := u.factors, tiles := u.tiles } ∧
      (∀ q, (s.tile q).feed = false → u.tile q = s.tile q) ∧
      u.rd rSolvTaskDone e.val = min (s.rd rSolvTaskDone e.val + 1) 0xFFFFFFFF ∧
      (¬ last → u.solvEngs = s.solvEngs ∧ ∃ f, u.run run.solver = some f ∧ f.done = i :: run.done ∧
        u.frontOf v f t.sn n = m ∧ f.scales = run.scales ∧ f.step = run.step) ∧
      (last → u.run run.solver = none ∧ ∀ x, u.eng x = { s.eng x with pos := (s.eng x).pos + r.engines.count x })
    (∀ child, s.taskNext e.val 1 = some (v, run, i, t, n) → v.sched.nodes[t.child]? = some child →
      Completes (.extadd e) s (did (extAdd child n (s.frontOf v run t.child child) front))) ∧
    (s.taskNext e.val 2 = some (v, run, i, t, n) → Completes (.panel e) s
      (did ((List.range n.ncol).foldl (panelColumn n run.scales (s.patternOf r).perm r) (front, [], [])).1)) ∧
    (s.taskNext e.val 3 = some (v, run, i, t, n) → n.offload = false →
      Completes (.update e) s (fun u => did (updateNative n front) u ∧ (¬ last → u.mem = s.mem))) ∧
    (s.taskNext e.val 3 = some (v, run, i, t, n) → n.offload = true →
      Completes (.update e) s (did (s.updateWalnut v n front).1))

/-! ### The scheduler (chapter 2, R345) -/

/-- Host commands. A command that its state does not accept is answered with E_STATE and changes no state of the job; one written while
PENDING or BUSY is set is discarded and counted by OVERRUN, saturating (R346). RUN and RUN_N dispatch the next step; HOLD and END raise
the target to the present step; CKPT and ARM_CKPT take their destination where it is good and answer its code where it is not; ATTACH
clears LAPSE and gives the step; JOB_LOAD and RESTORE pass to LOADING, or answer the code of the first check that fails; ABORT drops the
job. The model's own choices in it: log entries 16, 38, 39, 64. -/
def Obligations.HostJobCommands : Prop :=
  (∀ (s : State) (seq : BitVec 16), s.boot.held = false → s.flag rHifStat 0 = true ∨ s.flag rHifRsp 0 = true →
    Completes (.run seq) s (fun u => u = { s with regs := u.regs } ∧
      u.fld rHifStat 31 16 = min (s.fld rHifStat 31 16 + 1) 0xFFFF ∧ ∀ k, k ≠ regKey tyHif 0 0x0D0 → u.regGet k = s.regGet k)) ∧
  ∀ (s : State) (seq : BitVec 16) (a b c d : Word), s.hostReady →
    let st := s.jobState
    let step := s.rd rSchStep
    let refused := fun (u : State) => answered seq eState u ∧ u.jobState = st ∧ u.job = s.job ∧ u.rd rSchStep = step
    let still := (st = stReady ∨ st = stHold) ∧ s.ckpt.run = none ∧ step < 2 ^ 64 - 1
    let steps := fun (u : State) => answered seq eNone u ∧ u.rd rSchStep = step + 1 ∧ u.sched.stepping = true ∧
      (u.jobState = stRunning ∨ u.jobState = stDraining) ∧ u.sched.segs = s.segments.map fun _ => .waiting
    let runs := st = stRunning ∧ s.sched.stepping = true ∧ s.job ≠ none
    let holds := fun (u : State) => answered seq eNone u ∧ u.sched.holdOn = true ∧ u.rd rSchHoldAt = max (s.rd rSchHoldAt) step ∧
      (s.rd rSchHoldAt ≤ step → u.jobState = stDraining) ∧ u.rd rSchStep = step
    let load := s.hostTakes 1 seq [(0, a), (1, b), (2, c), (3, d)]
    let loading := (load.noteOk a.toNat b.toNat).beginLoad
    let restore := s.hostTakes 9 seq [(0, a)]
    let reading := restore.beginLoad.noteOk a.toNat (64 + 8 * ((restore.beginLoad.readRestore a.toNat).elim 0 fun r => r.map.length))
    let failed := fun (err : Nat) (u : State) => answered seq err u ∧ u.jobState = stIdle ∧ u.job = s.job
    (acceptedIn 2 st = false → Completes (.run seq) s refused ∧ Completes (.runN seq a) s refused) ∧
    (acceptedIn 4 st = false → Completes (.hold seq) s refused) ∧
    (acceptedIn 5 st = false → Completes (.endJob seq a) s refused ∧ Completes (.ckpt seq a) s refused ∧
      Completes (.armCkpt seq a b) s refused) ∧
    (acceptedIn 1 st = false → Completes (.jobLoad seq a b c d) s refused ∧ Completes (.restore seq a) s refused) ∧
    (st = stIdle → Completes (.abort seq) s refused) ∧
    (still → Completes (.run seq) s (fun u => steps u ∧ u.sched.counted = false)) ∧
    (still → 1 ≤ a.toNat → a.toNat < 2 ^ 32 →
      Completes (.runN seq a) s (fun u => steps u ∧ u.sched.counted = true ∧ u.rd rSchRunLeft = a.toNat)) ∧
    (st = stReady ∨ st = stHold → a = 0 ∨ 2 ^ 32 ≤ a.toNat →
      Completes (.runN seq a) s (fun u => answered seq eRange u ∧ u.jobState = st ∧ u.rd rSchStep = step)) ∧
    (runs → Completes (.hold seq) s (fun u => holds u ∧ 1 ∈ u.sched.causes)) ∧
    (runs → a.toNat % 2 = 0 → Completes (.endJob seq a) s (fun u => holds u ∧ u.sched.endPending = true)) ∧
    (runs → let e := (s.hostTakes 6 seq [(0, a)]).destErr a.toNat
      Completes (.ckpt seq a) s (fun u => answered seq e u ∧ u.jobState = st ∧
        u.rd rSchCkptDest = if e = eNone then a.toNat else s.rd rSchCkptDest)) ∧
    (acceptedIn 7 st = true → let e := (s.hostTakes 7 seq [(0, a), (1, b)]).armErr a.toNat
      (b.toNat % 2 = 0 → Completes (.armCkpt seq a b) s (fun u => answered seq eNone u ∧ u.flag rSchState 6 = false)) ∧
      (b.toNat % 2 = 1 → Completes (.armCkpt seq a b) s (fun u => answered seq e u ∧
        (e = eNone → u.rd rSchCkptDest = a.toNat ∧ u.flag rSchState 6 = true) ∧
        (e ≠ eNone → u.rd rSchCkptDest = s.rd rSchCkptDest ∧ u.flag rSchState 6 = s.flag rSchState 6)))) ∧
    Completes (.attach seq a) s (fun u => answered seq eNone u ∧ u.rd rHifArg = step ∧ u.flag rSchState 7 = false ∧
      u.jobState = st ∧ u.sched.hbStart = s.sched.hbStart.map fun _ => s.now) ∧
    (st ≠ stIdle → s.sched.aborting = false → Completes (.abort seq) s (fun u => u.jobState = stEnding ∧
      u.sched.aborting = true ∧ u.job = none ∧ u.threads = [] ∧ u.tiles = [] ∧ u.vecs = [] ∧ u.flag rHifRsp 0 = true)) ∧
    (st = stIdle → load.loadAllowed (c.toNat % 2 ^ 16) = true → load.inQuiet = false →
      (∀ j, loading.loadImage a.toNat b.toNat (c.toNat % 2 ^ 16) = .inr j →
        Completes (.jobLoad seq a b c d) s (fun u => answered seq eNone u ∧ u.jobState = stLoading ∧ u.job = some j ∧
          u.rd rSchStep = d.toNat ∧ u.sched.loading = true ∧ u.threads = [] ∧ u.msa.log = [])) ∧
      ∀ e, loading.loadImage a.toNat b.toNat (c.toNat % 2 ^ 16) = .inl e → e.code < 256 →
        Completes (.jobLoad seq a b c d) s (failed e.code)) ∧
    (st = stIdle → restore.loadAllowed (natLE (restore.peekN (a.toNat + 0x2A) 2)) = true → restore.inQuiet = false →
      (∀ r, reading.readRestore a.toNat = some r → reading.restoreBad r = none →
        Completes (.restore seq a) s (fun u => answered seq eNone u ∧ u.jobState = stLoading ∧
          u.flag rSchCkptStat 4 = true ∧ ∃ q, u.ckpt.restore = some q ∧ q.step = r.step ∧ q.dest = r.dest)) ∧
      (reading.readRestore a.toNat = none → Completes (.restore seq a) s (failed eRange)))

/-- Loading, quiet time and segments. A load that completes, no LLM mode of it waiting for a REPLAY, leaves READY with LOADED; a ready segment whose domains run starts with every
unit it lists at the start of its stream; a running segment whose streams have ended is done, and the last one ends the step. The model's
own choices in it: log entries 37, 38, 39. -/
def Obligations.SchedulerSegments : Prop :=
  ∀ (s : State) (seg : Fin 256) (g : Segment),
    let ends := s.segState seg.val = .running ∧ s.streamsDone g = true
    let segs := s.sched.segs.set seg.val .done
    let done := (segs.filter fun x => x = SegState.done).length
    let plain := s.rd rSchCkptDest = 0 ∧ s.sched.holdOn = false ∧ s.sched.counted = false ∧ s.rd rSchStopAt = 0 ∧
      s.rd rSchEvtCtrl = 0 ∧ s.rd rSchStep < 2 ^ 64 - 1
    (∀ j, s.job = some j → s.jobState = stLoading → s.sched.loading = true → s.down 4 = false → s.sched.lapseDue = false →
      s.sched.holdOn = false → s.llmHeld j.fields = false → Completes .jobLoadComplete s (fun u => u.jobState = stReady ∧ u.flag rSchJobStat 0 = true ∧
        u.flag rSchJobStat 1 = s.sched.restored ∧ u.sched.loading = false ∧ u.job = some j ∧ posted 8 0 u)) ∧
    (∀ t, s.fxp.quiet = some t →
      let w := { s with now := max s.now (t + 4000000), fxp := { s.fxp with quiet := none } }
      (s.sched.quietCmd = none → Completes .quietEnd s (fun u => u = w)) ∧
      ∀ c, s.sched.quietCmd = some c →
        let w' := { w with sched := { w.sched with quietCmd := none } }
        (w'.loadAllowed (w'.loadSess c) = true → Completes .quietEnd s (fun u => u = w'.runLoad c)) ∧
        (w'.loadAllowed (w'.loadSess c) = false → Completes .quietEnd s (fun u => u = w'.hifDone c.seq eState))) ∧
    (s.segments[seg.val]? = some g → s.segReady seg.val = true → s.domainsRun (wakeDomains g.wake) = true →
      Completes (.segmentStart seg) s (fun u => u.sched.segs = s.sched.segs.set seg.val .running ∧ u.job = s.job ∧ u.mem = s.mem ∧
        (∀ x ∈ g.tile, (u.tile x.tile).seg = some seg.val ∧ (u.tile x.tile).banks = [] ∧
          (x.tile < 256 → u.rd rTileCmdDone x.tile = 0)) ∧
        (∀ x ∈ g.vec, (u.vec x.engine).seg = some seg.val ∧ (u.vec x.engine).pc = 0) ∧
        (∀ x ∈ g.asm, (u.asm x.unit).seg = some seg.val ∧ (u.asm x.unit).pos = 0) ∧
        (∀ x ∈ g.solv, (u.eng x.engine).seg = some seg.val ∧ (u.eng x.engine).pos = 0) ∧
        ∀ x ∈ g.core, (u.thread x.thread).run = .running ∧ (u.thread x.thread).wait = none)) ∧
    (s.segments[seg.val]? = some g → ends → done ≠ s.segments.length →
      Completes (.segmentDone seg) s (fun u => u.sched.segs = segs ∧ u.rd rSchSegDone = done % 2 ^ 64 ∧
        u.sched.stepping = s.sched.stepping ∧ u.rd rSchStep = s.rd rSchStep ∧ u.mem = s.mem ∧
        ∀ x ∈ g.core, (u.thread x.thread).run = .idle)) ∧
    (s.segments[seg.val]? = some g → ends → done = s.segments.length → s.down 4 = true →
      Completes (.segmentDone seg) s (fun u => u.sched.segs = segs ∧ u.sched.stepping = false ∧ u.sched.boundaryDue = true ∧
        u.rd rSchStep = s.rd rSchStep)) ∧
    (s.segments[seg.val]? = some g → ends → done = s.segments.length → s.down 4 = false → plain →
      Completes (.segmentDone seg) s (fun u => u.sched.stepping = true ∧ u.rd rSchStep = s.rd rSchStep + 1 ∧
        u.sched.segs = s.segments.map fun _ => .waiting))

/-- Holds, heartbeats, events, seeds and the end of an ABORT. The model's own choices in it: log entries 2, 38. -/
def Obligations.SchedulerEvents : Prop :=
  ∀ (s : State) (node : BitVec 14) (v : Word) (seed : Fin 16) (word : Fin 2),
    let step := s.rd rSchStep
    let runs := s.jobState = stRunning ∧ s.sched.stepping = true ∧ s.job ≠ none ∧ s.down 4 = false
    let hold := fun (cause : Nat) (u : State) => u.sched.holdOn = true ∧ cause ∈ u.sched.causes ∧
      u.rd rSchHoldAt = max (max (s.rd rSchHoldAt) v.toNat) step
    let seedAt := 8 * (2 * seed.val + word.val)
    (s.boot.held = false → runs → Completes (.schHoldAt none v) s (hold 1)) ∧
    (s.boot.held = false → runs → s.nodeSet.contains node.toNat = true → Completes (.schHoldAt (some node) v) s (hold 5)) ∧
    (s.boot.held = false → runs → s.nodeSet.contains node.toNat = false → Completes (.schHoldAt (some node) v) s (fun u =>
      u.rd rSchHoldAt = s.rd rSchHoldAt ∧ u.sched = s.sched ∧ u.hdr tySch 0 hErrCode = eLocked)) ∧
    (∀ t, s.sched.hbStart = some t → Completes .schHb s (fun u =>
      u = { s with sched := { s.sched with hbStart := some s.now, lapsed := false } })) ∧
    (s.sched.hbStart = none → Completes .schHb s (fun u => u = s)) ∧
    (∀ t, s.sched.hbStart = some t → s.sched.lapsed = false → runs → s.flag rSchState 6 = false →
      Completes .heartbeatLapse s (fun u => u.now = max s.now (t + 5000000000) ∧ u.sched.lapsed = true ∧
        u.flag rSchState 7 = true ∧ u.sched.holdOn = true ∧ 4 ∈ u.sched.causes ∧
        u.rd rSchHoldAt = max (s.rd rSchHoldAt) step)) ∧
    (s.boot.held = false → Completes .schEvtPop s (fun u => u.sched = { s.sched with events := s.sched.events.drop 1 } ∧
      u.fld rSchEvtStat 5 0 = (s.sched.events.length - 1) % 64 ∧ ∀ k, k ≠ regKey tySch 0 0x0CC → u.regGet k = s.regGet k)) ∧
    (s.boot.held = false → s.jobState = stReady → Completes (.seedWrite seed word v) s (fun u =>
      u.rd rSchSeed 0 seedAt = v.toNat ∧ u.flag rSchSeedValid seed.val = true ∧
      (∀ k, k ≠ regKey tySch 0 (0x100 + seedAt) → k ≠ regKey tySch 0 0x0E8 → u.regGet k = s.regGet k))) ∧
    (s.boot.held = false → s.jobState ≠ stReady → Completes (.seedWrite seed word v) s (fun u =>
      u.rd rSchSeed 0 seedAt = s.rd rSchSeed 0 seedAt ∧ u.hdr tySch 0 hErrCode = eState ∧
      u.hdr tySch 0 hErrInfo0 = 0x100 + seedAt))

/-! ### Sessions and the life cycle (chapter 16) -/

/-- The commands of SEC_CMD. IDENTITY gives the public keys where the life cycle has them. OPEN checks its message, the kind, the state
and the regions in that order and then holds a half-open session with the SESS and kind it names. FINISH opens that session where the
signatures and the sealed key check, with the region table it named and the counters at 1, and else discards it; a message of another form or version is refused in ERR_CODE too (R8). CLOSE discards a half-
open session, and of an open one ends the keys and the on-die state and starts the scrub. READOUT counts, or waits for the end of the
step. The model's own choices in it: log entries 11, 51, 58. -/
def Obligations.SessionCommands : Prop :=
  ∀ s : State, s.secReady →
    let m := s.msgBytes 0 3504
    let kind := fieldLE m 6 1
    let sess := fieldLE m 8 2
    let ws := (upTo 16).map (openRegion m)
    let named := fieldLE m 0 4 = 0x4E504F53 ∧ fieldLE m 4 2 = 1 ∧ (kind = 1 ∨ kind = 2) ∧
      ∀ w ∈ ws, bitsOf w.2 57 56 = 0 ∧ bitOf w.2 59 = false
    let free := s.sessState = 0 ∧ s.flag rSecStat 9 = false ∧ s.flag rNodeStat 7 = true
    let f := s.msgBytes 0 3469
    let keys := s.sec.idPub 0 ++ s.sec.idPub 1 ++ s.sec.endorsement.drop 4
    let no := s.rd rSecReadoutNo
    (s.sec.hasIdentity = true → Completes .secIdentity s (fun u => secAnswered eNone u ∧
      ∀ i, i < keys.length → i < 16384 → SMap.get 0 u.sec.msg i = keys.getD i 0)) ∧
    (s.sec.hasIdentity = false → Completes .secIdentity s (secRefused eState s)) ∧
    (¬ named → Completes .secOpen s (secRefused eBadcmd s)) ∧
    (named → kindAllowed kind s.sec.lifeCycle = false → Completes .secOpen s (secRefused eState s)) ∧
    (named → kindAllowed kind s.sec.lifeCycle = true → ¬ free →
      Completes .secOpen s (fun u => secAnswered eState u ∧ u.sessState = s.sessState)) ∧
    (named → kindAllowed kind s.sec.lifeCycle = true → free → sess = 0 ∨ s.regionsOk ws = false →
      Completes .secOpen s (fun u => secAnswered eRange u ∧ u.sessState = 0)) ∧
    (named → kindAllowed kind s.sec.lifeCycle = true → free → sess ≠ 0 → s.regionsOk ws = true →
      Completes .secOpen s (fun u => secAnswered eNone u ∧ u.sessState = 1 ∧ u.fld rSecStat 5 4 = kind ∧
        u.fld rSecStat 31 16 = sess ∧ ∃ h, u.sec.half = some h ∧ h.kind = kind ∧ h.sess = sess ∧ h.regions = ws ∧ h.since = s.now)) ∧
    (s.sec.half = none ∨ s.sessState ≠ 1 → Completes .secFinish s (fun u => secAnswered eState u ∧ u.sessState = s.sessState ∧
      u.sec.half = s.sec.half)) ∧
    (s.sec.half ≠ none → s.sessState = 1 → fieldLE f 0 4 ≠ 0x4E494653 ∨ fieldLE f 4 2 ≠ 1 →
      Completes .secFinish s (secRefused eBadcmd s)) ∧
    (∀ h, s.sec.half = some h → s.sessState = 1 → fieldLE f 0 4 = 0x4E494653 → fieldLE f 4 2 = 1 →
      let signed := h.kind = 2 ∨ (Config.verify 0 h.pubEd h.hash ((f.drop 16).take 64) = true ∧
        Config.verify 1 h.pubMl h.hash ((f.drop 80).take 3309) = true)
      let opened := gcmOpen h.kt (List.replicate 12 0) [] ((f.drop 3389).take 80)
      (∀ text, signed → opened = some text → Completes .secFinish s (fun u => secAnswered eNone u ∧ u.sessState = 2 ∧
        u.sec.half = none ∧ u.sec.kt = h.kt ∧ u.sec.kn = h.kn ∧ u.rd rSecXferNo = 1 ∧ u.rd rSecReadoutNo = 1 ∧
        u.flag rSecStat 3 = ((text.take 32).any fun b => decide (b ≠ 0)) ∧
        ∀ r, r < 16 → regionUsed (h.regions.getD r (0, 0)) = true →
          u.rd rSecRegion 0 (16 * r) = (h.regions.getD r (0, 0)).1 % 2 ^ 64)) ∧
      (¬ signed ∨ opened = none → Completes .secFinish s (fun u => secAnswered eSig u ∧ u.sessState = 0 ∧ u.sec.half = none ∧
        u.hdr tySec 0 hErrCode = eSig))) ∧
    (s.sessState = 0 → Completes .secClose s (fun u => secAnswered eState u ∧ u.sessState = 0)) ∧
    (s.sessState = 1 → Completes .secClose s (fun u => secAnswered eNone u ∧ u.sessState = 0 ∧ u.sec.half = none)) ∧
    (s.sessState = 2 → s.jobState = stIdle → s.sched.aborting = false → Completes .secClose s (fun u => u.sessState = 3 ∧
      u.flag rSecStat 9 = true ∧ u.sec.closing = .scrub ∧ u.sec.keySlot = [] ∧ u.sec.ckptKey = none ∧ u.sec.kt = [] ∧
      u.threads = [] ∧ u.tiles = [] ∧ u.vecs = [] ∧ u.rd rSchStep = 0 ∧ u.rd rSchHoldAt = 0 ∧ u.rd rSchSeedValid = 0 ∧
      ∀ x, llmBase ≤ x → x < llmBase + 0x20000000 → SMap.get 0#8 u.mem x = 0#8)) ∧
    (s.sessState ≠ 2 → Completes .secReadout s (fun u => secAnswered eState u ∧ u.rd rSecReadoutNo = no)) ∧
    (s.sessState = 2 → no < 0xFFFFFFFF → s.sched.stepping = false →
      Completes .secReadout s (fun u => secAnswered eNone u ∧ u.rd rSecReadoutNo = no + 1 ∧ u.sec.readoutDue = false)) ∧
    (s.sessState = 2 → no = 0xFFFFFFFF → Completes .secReadout s (fun u => secAnswered eRange u ∧ u.rd rSecReadoutNo = no)) ∧
    (s.sessState = 2 → no < 0xFFFFFFFF → s.sched.stepping = true →
      Completes .secReadout s (fun u => u.sec.readoutDue = true ∧ u.rd rSecReadoutNo = no ∧ u.flag rSecRsp 0 = true))

/-- Requests of LCY_REQ with physical presence, and what ends without a command: the half-open time limit, presence, the seal, and the end
of an ABORT. A request that its state does not allow is refused and changes no fuse; another commits where no session is open or closing:
its fuses are blown, LCY_LAST names it, and every die starts afresh. Without presence it is refused. The model's own choices in it: log
entries 51, 52, 58. -/
def Obligations.LifeCycleCommands : Prop :=
  ∀ s : State,
    let ready := s.boot.held = false ∧ s.flag rHifStat 2 = false ∧ s.secUp = true
    let err := fun (t : Nat) => s.sec.lcyErr (s.flag rLcyStat 4) t
    let quiet := s.sec.closing = .none ∧ s.sessState ≠ 2 ∧ s.sessState ≠ 3
    let fuses := fun (x : Sec) => (x.provisioned, x.retired, x.toggles, x.last)
    let refused := fun (code : Nat) (u : State) => fuses u.sec = fuses s.sec ∧ u.hdr tyLcy 0 hErrCode = code ∧
      u.flag rHifStat 2 = false ∧ u.sec.trans = none
    let went := fun (t : Nat) (u : State) => u.sec.last = s.sec.lifeCycle + t * 16 + u.sec.toggles * 256 ∧ u.job = none ∧
      u.threads = [] ∧ u.sec.keySlot = [] ∧ u.sec.trans = none ∧ u.boot.held = false ∧ u.fld rAonBootStat 2 0 = 1
    (ready → err 1 ≠ eNone → Completes (.lcyProvision true) s (refused (err 1))) ∧
    (ready → err 2 ≠ eNone → Completes (.lcyDeploy true) s (refused (err 2))) ∧
    (ready → err 3 ≠ eNone → Completes (.lcyService true) s (refused (err 3))) ∧
    (ready → err 4 ≠ eNone → Completes (.lcyRetire true) s (refused (err 4))) ∧
    (ready → err 1 = eNone → quiet → Completes (.lcyProvision true) s (fun u => went 1 u ∧ u.sec.provisioned = true ∧
      u.sec.retired = s.sec.retired ∧ u.sec.toggles = s.sec.toggles)) ∧
    (ready → err 2 = eNone → quiet → Completes (.lcyDeploy true) s (fun u => went 2 u ∧ u.sec.toggles = s.sec.toggles + 1 ∧
      u.sec.provisioned = s.sec.provisioned ∧ u.sec.retired = s.sec.retired)) ∧
    (ready → err 3 = eNone → quiet → Completes (.lcyService true) s (fun u => went 3 u ∧ u.sec.toggles = s.sec.toggles + 1 ∧
      u.sec.provisioned = s.sec.provisioned ∧ u.sec.retired = s.sec.retired)) ∧
    (ready → err 4 = eNone → quiet → Completes (.lcyRetire true) s (fun u => went 4 u ∧ u.sec.retired = true ∧
      u.sec.seed = List.replicate 32 0xFF ∧ u.sec.toggles = s.sec.toggles)) ∧
    (ready → s.boot.policy ≠ 2 → s.sec.trans = none → err 2 = eNone →
      Completes (.lcyDeploy false) s (fun u => refused ePresence u ∧ u.sec.presence = false)) ∧
    (∀ h, s.sec.half = some h → s.secUp = true → s.sessState = 1 → Completes .halfOpenTimeout s (fun u =>
      u.now = max s.now (h.since + 10000000000) ∧ u.sessState = 0 ∧ u.sec.half = none ∧ u.fld rSecStat 31 16 = 0)) ∧
    (s.boot.policy ≠ 2 → s.sec.trans = none → Completes .presenceLapse s (fun u =>
      u.pins.presenceN = true ∧ u.sec.presence = false ∧ fuses u.sec = fuses s.sec ∧
      u.sec.absent = (s.sec.absent || s.sec.req.isSome))) ∧
    (s.boot.policy = 2 → Completes .presenceLapse s (fun u => u = { s with pins := { s.pins with presenceN := true } })) ∧
    (s.boot.policy ≠ 2 → s.boot.sealCloses = false → s.sec.sealDue = false → Completes .sealOpen s (fun u =>
      u = { s with sec := { s.sec with sealClosed := false }, regs := u.regs } ∧
      u.rd rLcySealOpens = min (s.rd rLcySealOpens + 1) 0xFFFFFFFF)) ∧
    (s.boot.policy ≠ 2 → s.boot.sealCloses = true → s.secUp = true → s.sessState = 1 → Completes .sealOpen s (fun u =>
      u.sessState = 0 ∧ u.sec.half = none ∧ u.sec.sealDue = false ∧
      u.rd rLcySealOpens = min (s.rd rLcySealOpens + 1) 0xFFFFFFFF)) ∧
    (s.sched.aborting = true → s.down 4 = false → (∀ i, i < 12 → s.power.wanted.contains (5 + i) = false → s.clkOf (5 + i) ≠ 1 ∧ s.clkOf (5 + i) ≠ 2) →
      s.sec.closing = .none → s.sec.trans = none → Completes .abortComplete s (fun u => u.sched.aborting = false ∧
        u.jobState = stIdle ∧ posted 4 eAborted u ∧ u.sched.hbStart = none ∧ u.rd rHifRsp = s.fld rHifCmd 31 16 * 2 ^ 16 + 2 ∧ u.flag rHifStat 0 = false))

/-! ### Checkpoint and restore (chapter 14) -/

/-- The phases of a checkpoint on this node, and the end of the reads of a restore. With every piece acknowledged, rank 0 stores its rank
entry in its own buffer and waits, another rank sends its entry to the coordinator and is done; the coordinator with every entry puts the
manifest, and with that acknowledged the step is committed; at its time limit it names the first rank that lacks one. A restore stops on
the code of a failed read, and accepts the candidate whose checks pass. The model's own choices in it: log entries 38, 39. -/
def Obligations.CheckpointAndRestore : Prop :=
  (∀ (s : State) (run : CkptRun), s.ckpt.run = some run → s.down 4 = false → run.failed = none → run.after = .nothing →
    let a := run.dest.entryBuf
    let entry := bytesLE 2 s.nodeId ++ [0, 0] ++ bytesLE 4 run.shards ++ bytesLE 8 run.step ++ run.indexHash
    let over_ := fun (u : State) => u.ckpt.run = none ∧ u.fld rSchCkptStat 1 0 = 0 ∧ u.jobState = s.jobState
    let gwOk := (s.gateway run.dest.gwFirst).isSome = true ∧ s.goneNode (2 ^ 15 + run.dest.gwFirst) = false
    (run.phase = .index → run.allWhole = true → s.rank ≠ 0 → s.goneNode (s.nodeSet.headD 0) = false →
      Completes .ckptShardsDurable s (fun u => over_ u ∧ posted 5 eNone u ∧
        ∃ q ∈ u.fxp.reqs, q.typ = .store ∧ q.owner = .rank ∧ q.copies.map (·.1) = [s.nodeSet.headD 0] ∧
          q.req.addr = BitVec.ofNat 64 (a + 64 * s.rank) ∧ q.req.payload = entry)) ∧
    (run.phase = .index → run.allWhole = true → s.rank = 0 → a % 64 = 0 → entry.length = 64 → (∃ k, s.lineState a = .plain k) →
      s.targetWord run.dest ≤ run.step → a + 64 ≤ run.dest.atWord ∨ run.dest.atWord + 8 ≤ a →
      Completes .ckptShardsDurable s (fun u => posted 5 eNone u ∧ u.fld rSchCkptStat 1 0 = 2 ∧
        u.ckpt.run = some { run with phase := .waiting, objs := [], since := s.now } ∧
        ∀ i, i < 64 → u.peek (a + i) = entry.getD i 0)) ∧
    (∀ j, run.phase = .waiting → s.job = some j → s.missingRanks run.dest run.step = [] → gwOk →
      Completes .ckptManifestPut s (fun u => u.flag rSchCkptStat 1 = false ∧ ∃ r, u.ckpt.run = some r ∧ r.phase = .manifest ∧
        r.failed = none ∧ r.step = run.step ∧ r.objs.map (fun o => (o.kind, o.rank, o.gw)) = [(5, 0xFFFF, run.dest.gwFirst)])) ∧
    (run.phase = .manifest → run.allWhole = true → Completes .ckptCommit s (fun u => over_ u ∧ posted 5 eNone u ∧
      u.rd rSchCkptCommit = run.step % 2 ^ 64)) ∧
    (∀ r rs, run.phase = .waiting → s.missingRanks run.dest run.step = r :: rs → Completes .ckptTimeout s (fun u =>
      over_ u ∧ posted 5 eCkptIncomplete u ∧ u.now = max s.now (run.since + s.rd rSchCkptTimeout * 1000000000) ∧
      u.rd rSchCkptFails = min (s.rd rSchCkptFails + 1) 0xFFFFFFFF ∧ u.fld rSchCkptStat 31 24 = eCkptIncomplete ∧
      u.hdr tySch 0 hErrCode = eCkptIncomplete ∧ u.hdr tySch 0 hErrInfo0 = r % 2 ^ 32))) ∧
  ∀ (s : State) (r : Restore), s.ckpt.restore = some r → r.busy = false → s.down 4 = false →
    let fails := fun (code info1 : Nat) (u : State) => u.jobState = stIdle ∧ u.ckpt.restore = none ∧ posted 8 code u ∧
      u.fld rSchCkptStat 31 24 = code ∧ u.hdr tySch 0 hErrCode = code ∧ u.hdr tySch 0 hErrInfo1 = info1 % 2 ^ 32
    (∀ code step, r.stop = some code → r.cur = some step → code < 256 → isInfo code = false →
      Completes .restoreReadDone s (fails code step)) ∧
    (r.stop = none → r.cur = none → r.firstErr = none → Completes .restoreReadDone s (fails eCkptIncomplete 0xFFFFFFFF)) ∧
    (∀ code step, r.stop = none → r.cur = none → r.firstErr = some (code, step) → code < 256 → isInfo code = false →
      Completes .restoreReadDone s (fails code step)) ∧
    (∀ code step, r.stop = none → r.cur = some step → s.checkCandidate r step = .inl code → r.cands = [] → r.more = false →
      Completes .restoreReadDone s (fun u => u.jobState = s.jobState ∧ u.mem = s.mem ∧ ∃ q, u.ckpt.restore = some q ∧ q.cur = none ∧
        q.busy = false ∧ q.firstErr = some (r.firstErr.getD (code, step)))) ∧
    (∀ step man shards j, r.stop = none → r.cur = some step → s.checkCandidate r step = .inr (man, shards) →
      let im := s.restoreImage r shards
      let regs := (shardText shards 3 r.rank).getD []
      r.misfit im.1 man = none → s.llmHeld ((upTo (fieldCount im.1)).map (parseField im.1)) = false → ∀ a, im.2.1 = some a →
      (im.2.2.restoreFields r im.1 a shards).parseImage im.1 a r.sess = .inr j →
      Completes .restoreReadDone s (fun u => u.job = some j ∧ u.rd rSchStep = fieldLE regs 0x100 8 ∧ u.sched.loading = true ∧
        u.sched.restored = true ∧ u.ckpt.restore = none ∧ u.flag rSchCkptStat 4 = false))

/-! ### The transaction layer (chapter 10) -/

/-- Requests at their target. A job request of another session is answered E_STATE, a malformed one E_BADCMD, and an object addressed to a
node always so. A LOAD answers with the bytes. A new STORE, ATOMIC, ATOMIC_P, BLOCK_ADD or NODE_REPORT is performed once, entered in the
ledger and answered; a refused one is entered with its code and changes no byte; an FADD in an ordered region is logged under its key. A
copy is dropped below the floor and answered from the ledger above it; with no room in the ledger the request is held. An answer echoes
TAG and SEQ, and leaves in a packet wherever a path is up. The model's own choices in it: log entries 25, 26, 27, 28, 72, 82. -/
def Obligations.TargetRequests : Prop :=
  (∀ (s : State) (q : Req), s.boot.held = false → s.mine q = true → s.boot.booting = false →
    let t := s.noteStream q
    let a := reqAddr q
    let n := q.len.toNat
    let goes := fun (typ : ReqType) => s.stops typ.code q = false
    let ours := fun (typ : ReqType) => goes typ ∧ s.foreign q = false
    let first := t.served .store q = none ∧ t.foldReqs.any (sameReq q) = false ∧ t.ledgerFull = false
    let new := fun (typ : ReqType) => ours typ ∧ badReq typ q = false ∧ first
    let entered := fun (err : Nat) (data : List Byte) (v : State) =>
      v.fxp.ledger = t.fxp.ledger ++ [⟨q.src.toNat % 2 ^ 14, reqSys q, q.seq.toNat, t.now, err, data⟩]
    let done := fun (typ : ReqType) (err : Nat) (data : List Byte) (P : State → Prop) (u : State) =>
      ∃ v, P v ∧ entered err data v ∧ u = v.answer typ q err false data
    let line := ∃ k, t.lineState a = .plain k
    let still := t.ckpt.run = none
    (∀ typ c, (typ, c) ∈ [(ReqType.load, Instr.reqLoad q), (.store, .reqStore q), (.atomic, .reqAtomic q), (.atomicP, .reqAtomicP q),
        (.blockAdd, .reqBlockAdd q), (.nodeReport, .reqNodeReport q), (.objPut, .reqObjPut q), (.objGet, .reqObjGet q)] →
      (goes typ → s.foreign q = true → Completes c s (fun u => u = s.answer typ q eState false [])) ∧
      (ours typ → badReq typ q = true → Completes c s (fun u => u = t.answer typ q eBadcmd false []))) ∧
    (ours .objPut → Completes (.reqObjPut q) s (fun u => u = t.answer .objPut q eBadcmd false [])) ∧
    (ours .objGet → Completes (.reqObjGet q) s (fun u => u = t.answer .objGet q eBadcmd false [])) ∧
    (ours .load → badReq .load q = false → t.spanErr .load q ≠ eNone →
      Completes (.reqLoad q) s (fun u => u = t.answer .load q (t.spanErr .load q) false [])) ∧
    (ours .load → badReq .load q = false → t.spanErr .load q = eNone → inRegWin a n = false →
      Completes (.reqLoad q) s (fun u => ∃ v : State, v.mem = t.mem ∧ v.fxp = t.fxp ∧ u = v.answer .load q eNone false (t.peekN a n))) ∧
    (ours .load → badReq .load q = false → t.spanErr .load q = eNone → inRegWin a n = true →
      let w := t.winRead (a % 0x8000000) n orgHost
      Completes (.reqLoad q) s (fun u => ∃ v : State, v.mem = w.2.1.mem ∧ v.fxp = w.2.1.fxp ∧ u = v.answer .load q w.2.2 false (bytesLE n w.1))) ∧
    (new .store → t.spanErr .store q ≠ eNone →
      Completes (.reqStore q) s (done .store (t.spanErr .store q) [] fun v => v.mem = t.mem)) ∧
    (new .store → t.spanErr .store q = eNone → inRegWin a n = false → q.opf = 0 → still →
      Completes (.reqStore q) s (done .store eNone [] fun v => v.mem = (t.store a q.payload).mem ∧
        (a % 64 + n ≤ 64 → line → storedAt a n (natLE q.payload) t v))) ∧
    (new .store → t.spanErr .store q = eNone → inRegWin a n = false → q.opf ≠ 0 → a % 64 = 0 → line → still →
      Completes (.reqStore q) s (done .store eNone [] fun v => ∀ x, v.peek x =
        if a ≤ x ∧ x < a + 64 ∧ q.opf.getLsbD ((x - a) / 8) = true then q.payload.getD (x - a) 0 else t.peek x)) ∧
    (new .store → t.spanErr .store q = eNone → inRegWin a n = true →
      let node := if q.orig.toNat % 8 = orgFirmware then some (q.src.toNat % 2 ^ 14) else none
      let w := t.winWrite (a % 0x8000000) n (natLE q.payload) (q.orig.toNat % 8) node
      Completes (.reqStore q) s (fun u => u = (if w.2 = eNone then w.1.bump64 rFxpReqIn else w.1).finish .store q w.2 [])) ∧
    (∀ op bytes, amoOfOpf q.opf.toNat = some (op, bytes) → t.closeOf a = none → t.oregOf a = none → line → still →
      let v := amoArgs op bytes q.body
      let old := t.numAt a bytes
      (new .atomic → t.spanErr .atomic q = eNone → Completes (.reqAtomic q) s
        (done .atomic eNone (bytesLE bytes old) (storedAt a bytes (amoNew op bytes old v.1 v.2) t))) ∧
      (new .atomicP → t.spanErr .atomicP q = eNone → Completes (.reqAtomicP q) s
        (done .atomicP eNone [] (storedAt a bytes (amoNew op bytes old v.1 v.2) t)))) ∧
    (∀ e bytes, amoOfOpf q.opf.toNat = some (.fadd, bytes) → t.closeOf a = none → t.oregOf a = some e → new .atomic →
      t.spanErr .atomic q = eNone →
      (q.keyed = false → Completes (.reqAtomic q) s (done .atomic eBadcmd [] fun v => v.mem = t.mem ∧ v.msa = t.msa)) ∧
      (q.keyed = true → t.logUsed e (t.stackOf a) < t.logShare e (t.stackOf a) → Completes (.reqAtomic q) s
        (done .atomic eNone (t.peekN a bytes) fun v => ∃ x, v.msa.log = t.msa.log ++ [x] ∧ x.oreg = e ∧ x.addr = a ∧ x.key = q.key ∧
          x.val = fieldLE q.body 0 bytes ∧ x.bytes = bytes))) ∧
    (∀ e typ c, (typ, c) ∈ [(ReqType.atomic, Instr.reqAtomic q), (.atomicP, .reqAtomicP q)] → new typ → t.spanErr typ q = eNone →
      t.closeOf a = some e → Completes c s (fun u => u = t.closeStart e (.request q (decide (typ = .atomicP)) []))) ∧
    (new .blockAdd → t.spanErr .blockAdd q = eNone →
      let r := t.blockAdd q.opf.toNat a (if q.keyed then some q.key else none) q.body
      Completes (.reqBlockAdd q) s
        (fun u => u = (if r.2 = eNone then r.1.bump64 rFxpReqIn else r.1).finish .blockAdd q r.2 [])) ∧
    (new .nodeReport → fieldLE q.payload 0 1 ≠ 0x10 → fieldLE q.payload 0 1 ≠ 0x11 → t.hbr.queue.length < 64 →
      Completes (.reqNodeReport q) s (done .nodeReport eNone [] fun v => v.hbr.queue = t.hbr.queue ++ [q.payload])) ∧
    (new .nodeReport → fieldLE q.payload 0 1 = 0x10 ∨ fieldLE q.payload 0 1 = 0x11 →
      Completes (.reqNodeReport q) s (done .nodeReport eNone [] fun v => v.hbr.queue = t.hbr.queue ∧
        v.flag rHbrPend (fieldLE q.payload 2 2 % 32) = true)) ∧
    (ours .store → badReq .store q = false → seqLt q.seq.toNat (SMap.get 0 t.fxp.floors (reqStream q)) = true →
      Completes (.reqStore q) s (fun u => u = t.bump rFxpDupDrop)) ∧
    (∀ e, ours .store → badReq .store q = false → seqLt q.seq.toNat (SMap.get 0 t.fxp.floors (reqStream q)) = false →
      t.ledgerFind q = some e →
      Completes (.reqStore q) s (fun u => u = (t.bump rFxpDupHit).answer .store q e.err true e.result)) ∧
    (ours .store → badReq .store q = false → t.served .store q = none → t.foldReqs.any (sameReq q) = false → t.ledgerFull = true →
      Completes (.reqStore q) s (fun u => u.fxp.hold = t.fxp.hold ++ [⟨.store, q, t.now, false⟩] ∧ u.mem = t.mem ∧
        u.rd rFxpLedgerFull = min (t.rd rFxpLedgerFull + 1) 0xFFFFFFFF)) ∧
    (s.stops 2 q = true → Completes (.reqStore q) s (· = s))) ∧
  ∀ (v : State) (typ : ReqType) (q : Req) (err : Nat) (dup : Bool) (data : List Byte),
    let p : Rsp := { err := BitVec.ofNat 8 err, flags := BitVec.ofNat 8 dup.toNat, src := BitVec.ofNat 16 v.nodeId, dst := q.src
                     tag := q.tag, age := 0, seq := q.seq, data := if err = 0 then data else [] }
    let c : Cargo := .response (BitVec.ofNat 8 (rspCode typ err)) p
    let u := v.answer typ q err dup data
    u = { v with sw := u.sw, ports := u.ports, regs := u.regs, out := u.out } ∧
    (v.pathTo (q.src.toNat % 2 ^ 14) c = true → ∃ port k, .packet port k ∈ u.out ∧ k.cargo = c)

/-- Multicast, floors and the life of a ledger entry. A multicast packet becomes one STORE to each marked member of the own group, in
ascending order with its sequence, and this node's own copy arrives as a request; one whose extension does not fit is answered
E_BADCMD. A floor update raises the floor and frees the entries below it; an entry is freed 4 ms after its creation. The model's own
choices in it: log entries 4, 27, 61, 66. -/
def Obligations.MulticastAndFloors : Prop :=
  ∀ (s : State) (q : Req) (mask : BitVec 32) (seqs : List (BitVec 32)) (src : BitVec 14) (sys : Bool) (seq : BitVec 32),
    s.boot.held = false → s.boot.booting = false →
    let g := q.dst.toNat % 2 ^ 14 / 32
    let copy := fun (m : Nat) (x : BitVec 32) =>
      { q with flags := BitVec.ofNat 8 (q.flags.toNat % 2 + (if q.flags.getLsbD 4 then 16 else 0) + 0x0A),
               dst := BitVec.ofNat 16 (g * 32 + m), seq := x }
    let marked := (List.range 32).filter fun i => mask.getLsbD i
    let fits := q.flags.toNat < 0x20 ∧ seqs.length = marked.length
    let k := reqStream q
    let f := q.ackFloor.toNat
    let below := fun (e : LedgerEntry) => streamKey e.src e.sys = k ∧ seqLt e.seq f = true
    let it := fun (e : LedgerEntry) => e.src = src.toNat ∧ e.sys = sys ∧ e.seq = seq.toNat
    let alone := s.fxp.hold = [] ∧ s.piaz.kerb = [] ∧ ∀ p, (s.port p).rxStop = []
    (g = s.nodeId / 32 → s.stops 0x06 q = false → fits → s.nodeId % 32 ∉ marked →
      Completes (.reqMcast q mask seqs) s (fun u => u.mem = s.mem ∧ u =
        (marked.zip seqs).foldl (fun t x => (t.bump64 rFxpReqOut).inject (g * 32 + x.1) (.request 2 (copy x.1 x.2))) s)) ∧
    (∀ x, g = s.nodeId / 32 → s.stops 0x06 q = false → fits → marked = [s.nodeId % 32] → seqs = [x] →
      s.stops 0x02 (copy (s.nodeId % 32) x) = false →
      exec (.reqMcast q mask seqs) s = exec (.reqStore (copy (s.nodeId % 32) x)) s) ∧
    (g = s.nodeId / 32 → s.stops 0x06 q = false → ¬ fits →
      Completes (.reqMcast q mask seqs) s (fun u => u = s.answer .store q eBadcmd false [])) ∧
    (g ≠ s.nodeId / 32 → exec (.reqMcast q mask seqs) s = .next s) ∧
    (s.mine q = true → s.foreign q = false → q.flags.getLsbD 3 = false → seqGt f (SMap.get 0 s.fxp.floors k) = true → alone →
      Completes (.reqFloorUpd q) s (fun u => SMap.get 0 u.fxp.floors k = f ∧ u.mem = s.mem ∧
        (∀ e, e ∈ u.fxp.ledger ↔ e ∈ s.fxp.ledger ∧ ¬ below e))) ∧
    (s.mine q = true → q.flags.getLsbD 3 = true ∨ seqGt f (SMap.get 0 s.fxp.floors k) = false →
      Completes (.reqFloorUpd q) s (· = s)) ∧
    (∀ e, s.fxp.ledger.find? (fun e => decide (it e)) = some e → alone → Completes (.ledgerExpiry src sys seq) s (fun u =>
      u.now = max s.now (e.created + 4000000) ∧ u.mem = s.mem ∧ ∀ x, x ∈ u.fxp.ledger ↔ x ∈ s.fxp.ledger ∧ ¬ it x))

/-- COLL messages, the end of an ordered fold, the collective watchdog and the reply to the CLOSE of home reduction. A contribution that
its home takes is entered and answered, one that it cannot take yet is held; results, notices and failures are answered at once. Once the
adders have finished, the contributions are applied, the CLOSE is performed and the next fold begins. The watchdog notifies, 100 ms after
the admission, the members of whom nothing has arrived. The model's own choices in it: log entries 26, 28, 29. -/
def Obligations.CollectiveMessages : Prop :=
  (∀ (s : State) (q : Req) (m : CollMsg), s.boot.held = false → s.mine q = true → s.boot.booting = false → s.stops 7 q = false →
    s.foreign q = false → badReq .coll q = false → readColl (q.src.toNat % 2 ^ 14) q.payload = some m →
    let t := s.noteStream q
    t.served .coll q = none → t.foldReqs.any (sameReq q) = false → t.ledgerFull = false →
    let entry := fun (v : State) => (⟨q.src.toNat % 2 ^ 14, reqSys q, q.seq.toNat, v.now, eNone, []⟩ : LedgerEntry)
    let acked := fun (v u : State) => ∃ w : State, w.fxp = { v.fxp with ledger := v.fxp.ledger ++ [entry v] } ∧ w.mem = v.mem ∧
      w.piaz = v.piaz ∧ u = w.answer .coll q eNone false []
    let c := t.takeContrib m
    (m.ckind = 1 → c.2 = true → Completes (.reqCollContrib q) s (fun u => ∃ v, acked c.1 v ∧ u = v.homeGo)) ∧
    (m.ckind = 1 → c.2 = false → Completes (.reqCollContrib q) s (fun u =>
      u = { c.1 with fxp := { c.1.fxp with hold := c.1.fxp.hold ++ [⟨.coll, q, c.1.now, true⟩] } })) ∧
    (m.ckind = 2 → Completes (.reqCollResult q) s (acked (t.takeResult m))) ∧
    (m.ckind = 3 → Completes (.reqCollNotice q) s (acked (t.takeNotice m))) ∧
    (m.ckind = 4 → Completes (.reqCollFailed q) s (acked (t.takeFailed m)))) ∧
  (∀ (s : State) (f : Fold), s.msa.fold = some f →
    let folded := (foldSort f.entries).foldl State.foldEntry s
    let closed := (s.foldApply f).closeDone f.who
    (s.foldApply f).mem = folded.mem ∧ (s.foldApply f).msa.fold = none ∧ (s.foldApply f).msa.log = f.entries.foldl List.erase s.msa.log ∧
    (s.foldApply f).rd rMsaFolds = min (s.rd rMsaFolds + 1) 0xFFFFFFFF ∧
    (f.who = .homeReduction → closed = { s.foldApply f with piaz := { s.piaz with
      batch := s.piaz.batch.map (fun b => { b with closed := true }) } }) ∧
    (∀ q posted, f.who = .request q posted [] → closed = (s.foldApply f).amoRequest (if posted then .atomicP else .atomic) q) ∧
    (closed.msa.waiting = [] → Completes .orderedFoldDone s (· = closed)) ∧
    (∀ e who rest, closed.msa.waiting = (e, who) :: rest → Completes .orderedFoldDone s (fun u =>
      u = ({ closed with msa := { closed.msa with waiting := rest } }).closeStart e who))) ∧
  (∀ (s : State) (cn : Word), s.watchRuns = true →
    (∀ c, s.collOf cn.toNat = some c → c.resultSent = false →
      let v := { s with now := max s.now (c.since + 100000000) }
      let due := c.members.filter fun n => !(v.heardOf c).contains n && !c.noticed.contains n
      Completes (.collWatchdog cn) s (fun u => u.mem = s.mem ∧ u.now = v.now ∧
        ∃ d, u.collOf cn.toNat = some d ∧ d = { c with noticed := c.noticed ++ due })) ∧
    (∀ c, s.collOf cn.toNat = some c → c.resultSent = true → Completes (.collWatchdog cn) s (· = s)) ∧
    (s.collOf cn.toNat = none → (s.piaz.kerb.any fun m => m.cn = cn.toNat) = true → cn.toNat ∉ s.piaz.raised →
      Completes (.collWatchdog cn) s (fun u => u.piaz.raised = s.piaz.raised ++ [cn.toNat] ∧ u.mem = s.mem ∧
        u.rd rPiazStalls = min (s.rd rPiazStalls + 1) 0xFFFFFFFF ∧ (s.piaz.stalled = false → u.piaz.stalled = true ∧
          u.rd rPiazStallOwed = cn.toNat ∧ u.hdr tyPiaz 0 hErrCode = eCollStall)))) ∧
  ∀ (s : State) (b : HredBatch), s.piaz.batch = some b → b.closed = true →
    let idle := { s with piaz := { s.piaz with batch := none } }
    (s.collOf b.cn = none → Completes .hredCloseReply s (fun u => u = idle.hredKick (s.piaz.colls.length + 1))) ∧
    ∀ c, s.collOf b.cn = some c →
      let on := { c with pieces := c.pieces.map fun p =>
        let mine := b.items.filter fun x => x.1 = p.off
        { p with next := p.next + mine.length, staged := p.staged.filter fun i => !mine.any fun x => x.2 = i } }
      (c.dead = true → Completes .hredCloseReply s (fun u => u = ((idle.putColl on).collRelease b.cn).homeGo)) ∧
      (c.dead = false → on.folded = false → Completes .hredCloseReply s (fun u => u = (idle.putColl on).homeGo)) ∧
      (c.dead = false → on.folded = true → Completes .hredCloseReply s (fun u => u = ((idle.putColl on).sendResult on).homeGo))

/-- The source side. In BOOT the port discards a response (R340). A response that matches no outstanding copy is counted; a matching one
takes its copy off and lets its owner and whatever waited go on. A resend puts the copy on the fabric once more with the next RETRY; at
the end of the retry window, or where a resend finds no route, its target is dead; after FXP_DEAD_LIMIT its fallback is taken; a floor
update carries the acknowledged sequence 20 us after it advanced. What is put on the fabric leaves in a packet wherever a path is up. The
model's own choices in it: log entries 66, 92. -/
def Obligations.RequestEnds : Prop :=
  (∀ (s : State) (p : Rsp) (tag : BitVec 13) (dst : BitVec 16) (node : BitVec 14) (sys : Bool),
    let stale := fun (u : State) => u = s.bump rFxpRspStale
    let k := streamKey node.toNat sys
    let acked := SMap.get 0 s.fxp.acked k
    let fits := fun (r : OutReq) (c : Nat × Nat) => r ∈ s.fxp.reqs ∧ c ∈ r.copies ∧ r.sent.isSome = true ∧
      c.1 % 2 ^ 14 = p.src.toNat % 2 ^ 14 ∧ r.tag = some p.tag.toNat ∧ c.2 = p.seq.toNat
    (s.boot.booting = true → ∀ u, u = s.bump rFswDiscard →
      exec (.rspData p) s = .next u ∧ exec (.rspAck p) s = .next u ∧ exec (.rspErr p) s = .next u) ∧
    (s.boot.booting = false → (∀ r c, ¬ fits r c) →
      Completes (.rspData p) s stale ∧ Completes (.rspAck p) s stale ∧ Completes (.rspErr p) s stale) ∧
    (∀ r c, s.boot.booting = false → s.matching p = some (r, c) →
      let s1 := s.dropCopy r c true
      fits r c ∧
      Completes (.rspData p) s (fun u => u = (s1.ended r (p.data.take r.wants)).goOn) ∧
      Completes (.rspAck p) s (fun u => u = (s1.ended r []).goOn) ∧
      Completes (.rspErr p) s (fun u => u = ((s1.bump rFxpErrRsp).failed r c.1 p.err.toNat false).goOn)) ∧
    (∀ r c t0 d, s.outstanding tag.toNat dst.toNat = some (r, c) → r.sent = some t0 →
      resendAt[SMap.get 0 r.resent c.1]? = some d → r.owner.sys = true ∨ s.deadOf c.1 = none →
      let v := { s with now := max s.now (t0 + d) }
      (v.pathTo c.1 r.cargo = true → Completes (.requestResend tag dst) s (fun u => ∃ (w : State) (q : Req),
        u = (w.inject c.1 (.request (BitVec.ofNat 8 r.typ.code) q)).bump rFxpRetries ∧
        w = { v with fxp := w.fxp, regs := w.regs } ∧ q.seq = BitVec.ofNat 32 c.2 ∧ q.payload = r.req.payload ∧
        q.dst = BitVec.ofNat 16 (c.1 % 2 ^ 15) ∧ q.ackFloor = BitVec.ofNat 32 (SMap.get 0 s.fxp.acked (streamKey c.1 r.owner.sys)) ∧
        q.orig = BitVec.ofNat 8 (r.owner.orig + 8 * (SMap.get 0 r.resent c.1 + 1)))) ∧
      (v.pathTo c.1 r.cargo = false → Completes (.requestResend tag dst) s (fun u => u = (v.targetLost r c).goOn))) ∧
    (∀ r c t0, s.outstanding tag.toNat dst.toNat = some (r, c) → r.sent = some t0 →
      let v := { s with now := max s.now (t0 + 2000000) }
      (s.deadOf c.1 = none → Completes (.deadTarget tag dst) s (fun u => ∃ w : State, u = w.goOn ∧ w.now = v.now ∧ w.mem = s.mem ∧
        w.deadOf c.1 = some ⟨c.1, v.now, false⟩ ∧ w.rd rFxpDeadCount = min (s.rd rFxpDeadCount + 1) 0xFFFFFFFF)) ∧
      (s.deadOf c.1 ≠ none → Completes (.deadTarget tag dst) s (fun u => u = (if r.owner.sys then v.failSystem r c else v).goOn))) ∧
    (∀ d, s.deadOf dst.toNat = some d → d.fellBack = false → s.job ≠ none → Completes (.deadFallback dst) s (fun u => ∃ w : State,
      u = (((s.copiesTo false d.target).foldl (fun t x => t.failed x.1 d.target eDeadTarget true) w).fenceFaults d.target).goOn ∧
      w.now = max s.now (d.since + s.rd rFxpDeadLimit * 1000000) ∧ w.deadOf dst.toNat = some { d with fellBack := true } ∧
      w.copiesTo false d.target = [] ∧ w.mem = s.mem ∧
      SMap.get 0 w.fxp.acked (streamKey d.target false) = SMap.get 0 s.fxp.next (streamKey d.target false))) ∧
    (SMap.get 0 s.fxp.carried k ≠ acked → sys = true ∨ s.deadOf node.toNat = none →
      (∀ q, s.pathTo node.toNat (.request 0x0A q) = true) → Completes (.floorUpdSend node sys) s (fun u => ∃ (w : State) (q : Req),
        u = w.inject node.toNat (.request 0x0A q) ∧
        w = { s with now := max s.now (SMap.get 0 s.fxp.ackedAt k + 20000), fxp := w.fxp, regs := w.regs } ∧
        SMap.get 0 w.fxp.carried k = acked ∧ w.fxp.reqs = s.fxp.reqs ∧ q.ackFloor = BitVec.ofNat 32 acked ∧
        q.dst = node.setWidth 16 ∧ q.orig = BitVec.ofNat 8 (1 + sys.toNat))) ∧
    (SMap.get 0 s.fxp.carried k = acked → Completes (.floorUpdSend node sys) s (· = s))) ∧
  ∀ (v : State) (target : Nat) (c : Cargo),
    let u := v.inject target c
    u = { v with sw := u.sw, ports := u.ports, regs := u.regs, out := u.out } ∧
    (v.pathTo target c = true → ∃ port k, .packet port k ∈ u.out ∧ k.cargo = c)

/-- Transfer rings. An atomic on TAIL wakes a ring, which the engine works off while HEAD is below TAIL. A descriptor whose fields are in
order is entered as started with the pieces into which its transfer or vector is cut, and the rings' pieces are issued in turn; a
collective enters its number and is admitted at its home. The request of a piece has its address, its length and, for the kinds that carry
data, the bytes at the local address when it is issued; a contribution goes to the home. A descriptor that breaks its table is refused. A
completed descriptor leaves, and DONE_ADDR takes its value. The model's own choices in it: log entry 46. -/
def Obligations.TransferRings : Prop :=
  (∀ (s : State) (ring : Fin 16) (i : Nat) (b : List Byte) (index : Nat),
    let v := s.noteRange (s.slotAddr ring.val i) 64
    let loc := fieldLE b 8 8
    let remote := fieldLE b 0x10 8
    let len := fieldLE b 0x18 8
    let desc := fun (kind : Nat) (items : List RingItem) =>
      ({ ring := ring.val, index := i, kind := kind, doneAddr := fieldLE b 0x30 8, doneVal := fieldLE b 0x38 8, slot := b
         todo := items, issuing := true } : RingDesc)
    let whole := fun (ps : List (Nat × Nat)) => ps.map fun p => ({ off := p.1, len := p.2 } : RingItem)
    let runs := fun (kind : Nat) => s.ringSlot ring.val = some (i, b) ∧ fieldLE b 0 1 = kind ∧ s.job.isSome = true ∧
      s.hbmRuns = true ∧ s.mayStart ring.val i b = true
    let starts := fun (kind : Nat) (items : List RingItem) (u : State) => u = (v.openDesc (desc kind items)).ringGo
    let refused := fun (u : State) => u = (v.ringRefuse ring.val i b).ringSettle ring.val ringFuel
    let woken := ({ s with fxp := { s.fxp with
      woken := s.fxp.woken.filter (· ≠ ring.val)
      active := if s.fxp.active.contains ring.val then s.fxp.active else s.fxp.active ++ [ring.val] } }).noteRange (s.ringBase ring.val) 16
    let cap := if bitOf (fieldLE b 1 1) 1 then 4088 / etypeBytes (fieldLE b 2 1) * etypeBytes (fieldLE b 2 1) else 4096
    (s.fxp.woken.contains ring.val = true → woken.ringSlot ring.val = some (i, b) → kindKnown (fieldLE b 0 1) = true →
      Completes (.tailAtomic ring) s (fun u => u = woken)) ∧
    (s.fxp.woken.contains ring.val = true → woken.ringTail ring.val ≤ woken.ringHead ring.val →
      Completes (.tailAtomic ring) s (fun u => ring.val ∉ u.fxp.woken ∧ ring.val ∉ u.fxp.active ∧ u.mem = s.mem)) ∧
    (v.transferOk b = true →
      (runs 1 → Completes (.ringPut ring) s (starts 1 (whole (transferPieces loc remote len)))) ∧
      (runs 2 → Completes (.ringGet ring) s (starts 2 (whole (transferPieces loc remote len)))) ∧
      (runs 4 → Completes (.ringReduce ring) s (starts 4 (whole (reducePieces remote len cap))))) ∧
    (runs 3 → v.transferOk b = true →
      let w := v.noteRange (fieldLE b 0x20 8) (2 * fieldLE b 4 2)
      (∀ ids, w.mcastList b = some ids → Completes (.ringMcast ring) s (fun u =>
        u = (w.openDesc (desc 3 ((transferPieces loc remote len).flatMap fun p =>
          (byGroup ids).map fun ms => { off := p.1, len := p.2, members := ms }))).ringGo)) ∧
      (w.mcastList b = none → Completes (.ringMcast ring) s (fun u =>
        u = (w.ringRefuse ring.val i b).ringSettle ring.val ringFuel))) ∧
    (v.transferOk b = false → (runs 1 → Completes (.ringPut ring) s refused) ∧ (runs 2 → Completes (.ringGet ring) s refused) ∧
      (runs 3 → Completes (.ringMcast ring) s refused) ∧ (runs 4 → Completes (.ringReduce ring) s refused)) ∧
    (∀ j kind, s.job = some j → runs kind →
      let does := fun (P : State → Prop) => (kind = ckAllreduce → Completes (.ringAllreduce ring) s P) ∧
        (kind = ckReduce → Completes (.ringCollReduce ring) s P) ∧ (kind = ckBcast → Completes (.ringBcast ring) s P) ∧
        (kind = ckBarrier → Completes (.ringBarrier ring) s P)
      let cn := fieldLE b 8 8
      let home := fieldLE b 4 2
      let n := fieldLE b 0x28 4
      let items := (List.range (fieldLE b 6 2)).flatMap fun p =>
        (contribPieces kind n).map fun x => ({ off := x.1, len := x.2, part := p } : RingItem)
      let w := ({ v with piaz := { v.piaz with issued := cn :: v.piaz.issued } }).openDesc
        { desc kind items with cn := cn, home := home, result := fieldLE b 0x18 8, len := n }
      let x := w.noteRange (fieldLE b 0x20 8) (8 + 2 * natLE (w.peekN (fieldLE b 0x20 8) 4))
      (v.collOk j b = false → does refused) ∧
      (v.collOk j b = true → home ≠ v.nodeId → does (fun u => u = w.ringGo)) ∧
      (∀ ids m, v.collOk j b = true → home = v.nodeId → x.memberRecord (fieldLE b 0x20 8) = some (ids, m) →
        does (fun u => u = (x.admitColl cn kind (fieldLE b 2 1) n (fieldLE b 0x18 8) (fieldLE b 0x10 8) m ids).ringGo))) ∧
    (∀ d, (s.fxp.descs.find? fun d => decide (d.ring = ring.val) && decide (d.index = index)) = some d → s.descReady d = true →
      let val := match d.failed with | some c => failValue c | none => d.doneVal
      let ended := fun (x : State) => x.fxp.descs = s.fxp.descs.filter (· ≠ d) ∧
        x.rd rFxpRingErr = if d.failed.isSome then min (s.rd rFxpRingErr + 1) 0xFFFFFFFF else s.rd rFxpRingErr
      (d.doneAddr = 0 → Completes (.ringDescDone ring index) s (fun u => ∃ x : State, u = x.ringGo ∧ x.mem = s.mem ∧ ended x)) ∧
      (d.doneAddr ≠ 0 → s.memOk d.doneAddr 8 = true → d.doneAddr % 64 ≤ 56 → (∃ k, s.lineState d.doneAddr = .plain k) →
        Completes (.ringDescDone ring index) s (fun u => ∃ x : State, u = x.ringGo ∧ storedAt d.doneAddr 8 val s x ∧ ended x))) ∧
    (∀ d, (s.fxp.descs.find? fun d => decide (d.ring = ring.val) && decide (d.index = index)) = some d → s.descReady d = false →
      Completes (.ringDescDone ring index) s (· = s))) ∧
  ∀ (v : State) (d : RingDesc) (x : RingItem),
    let node := fieldLE d.slot 4 2
    let loc := fieldLE d.slot 8 8
    let remote := fieldLE d.slot 0x10 8
    let keyed := bitOf (fieldLE d.slot 1 1) 1
    let there := fun (n : Nat) => n ≠ v.nodeId ∧ v.goneNode n = false
    let issues := fun (typ : ReqType) (loc_ : Nat) (targets : List Nat) (opf addr n : Nat) (data : List Byte) => ∃ (w : State) (q : OutReq),
      v.issueItem d x = (w.enqueue q).pump ∧ w.mem = v.mem ∧ w.fxp = v.fxp ∧ q.typ = typ ∧
      q.owner = .ring d.ring d.index loc_ ∧ q.copies.map (·.1) = targets ∧ q.tag = none ∧ q.req.opf = BitVec.ofNat 8 opf ∧
      q.req.addr = BitVec.ofNat 64 addr ∧ q.req.len = BitVec.ofNat 16 n ∧ q.req.payload = data
    (d.kind = 1 → there node → issues .store 0 [node] 0 (remote + x.off) x.len (v.peekN (loc + x.off) x.len)) ∧
    (d.kind = 2 → there node → issues .load (loc + x.off) [node] 0 (remote + x.off) x.len []) ∧
    (d.kind = 3 → x.members ≠ [] → (∀ n ∈ x.members, there n) →
      issues .store 0 x.members 0 (remote + x.off) x.len (v.peekN (loc + x.off) x.len)) ∧
    (d.kind = 4 → there node → issues .blockAdd 0 [node] (fieldLE d.slot 2 1) (remote + x.off) (x.len + if keyed then 8 else 0)
      ((if keyed then bytesLE 8 (fieldLE d.slot 0x28 8) else []) ++ v.peekN (loc + x.off) x.len)) ∧
    (0x10 ≤ d.kind → there d.home →
      let m : CollMsg := ⟨d.cn, 1, d.kind, fieldLE d.slot 2 1, 0, fieldLE d.slot 0x2C 4 + x.part, x.off, d.len, d.result, v.nodeId,
        if d.kind = ckBcast ∨ d.kind = ckBarrier then [] else v.peekN (remote + x.part * d.len + x.off) x.len⟩
      issues .coll 0 [d.home] 0 0 m.bytes.length m.bytes) ∧
    ((d.kind = 1 ∨ d.kind = 2 ∨ d.kind = 4) → node ≠ v.nodeId → v.goneNode node = true →
      v.issueItem d x = v.failDesc d.ring d.index eDeadTarget)

/-! ### HBM calibration and repair (chapter 9) -/

/-- Scrubbing, slices, retrains, evacuations and margin scans. A scrub moves the position by a line and counts, or poisons, what it finds;
slices and retrains start only where R168 allows and otherwise wait; a retrain passes DRAIN, TRAIN and REPLAY and ends ACTIVE, and one
whose old settings fail fences the channel and ends the job; an evacuation retires the channel for its spare. The model's own choices in
it: log entries 42, 44, 45, 76. -/
def Obligations.MemoryCalibration : Prop :=
  ∀ (s : State) (a : BitVec 40) (ch : Fin 512) (drift : BitVec 8) (waited height : BitVec 16) (dirty : BitVec 20),
    let c := ch.val
    let st := c / 32
    let die := c / 128
    let line := a.toNat / 64 * 64
    let lc := s.hbmchOf line
    let scrubs := s.memUp = true ∧ s.flag rHbmcMap 31 = true ∧ s.hbmAwake = true ∧ s.inHbm line 64 = true ∧
      (s.chState lc = chActive ∨ s.chState lc = chEvacuating)
    let moved := fun (u : State) => u.mem = s.mem ∧ u.job = s.job ∧
      u.rd rHbmcScrubPos (s.stackOf line) = (s.rd rHbmcScrubPos (s.stackOf line) + 64) % (s.hbmSize / 16)
    let calm := ∀ x ∈ dieChans die, (s.chan x).wantEvac = false
    let phase := fun (u : State) => u.fld rHbmchCalStat 2 0 c
    let due := (s.chan c).wantRetrain = true ∨ s.tempMoved c = true
    let may := s.calOk = true ∧ due ∧ s.chState c = chActive ∧ s.flag rLlmStat 0 die = false
    let spare := 32 * st + s.fld rHbmcMap 4 0 st
    (scrubs → Completes (.scrubAccess a .clean) s moved) ∧
    (scrubs → Completes (.scrubAccess a .corrected) s (fun u => moved u ∧
      u.rd rHbmchCe lc = min (s.rd rHbmchCe lc + 1) 0xFFFFFFFF)) ∧
    (scrubs → SMap.get false s.poison (line / 64) = true → Completes (.scrubAccess a .uncorrectable) s (fun u => moved u ∧
      u.poison = s.poison ∧ u.rd rHbmchUe lc = s.rd rHbmchUe lc)) ∧
    (scrubs → SMap.get false s.poison (line / 64) = false → (s.chan lc).ueTimes.length < 15 → Completes (.scrubAccess a .uncorrectable) s (fun u => moved u ∧
      u.poison = SMap.set false s.poison (line / 64) true ∧ u.rd rHbmchUe lc = min (s.rd rHbmchUe lc + 1) 0xFFFFFFFF)) ∧
    (s.memUp = true → (∀ x, x < 512 → s.rd rHbmchCe x - (s.chan x).ceLast ≤ s.rd rHbmcCeLimit (x / 32)) →
      Completes .ceRateEval s (fun u => u.now = (s.now / 1000000000 + 1) * 1000000000 ∧ ∀ x, x < 512 →
        u.rd rHbmchCeRate x = s.rd rHbmchCe x - (s.chan x).ceLast ∧ (u.chan x).ceLast = s.rd rHbmchCe x ∧
        (u.chan x).watch = none)) ∧
    (s.calOk = true → s.chState c = chActive → (∀ x ∈ stackChans st, s.chState x ≠ chSlice) →
      Completes (.sliceStart ch) s (fun u => u.chState c = chSlice ∧ phase u = 0 ∧ u.mem = s.mem ∧
        u.now = max s.now ((s.chan c).sliceFrom + s.rd rHbmcSliceInterval st * 1000000))) ∧
    (s.calOk = true → s.chState c = chActive → (∃ x ∈ stackChans st, s.chState x = chSlice) →
      Completes (.sliceStart ch) s (fun u => u.chState c = chActive ∧ (u.chan c).wantSlice = true)) ∧
    (s.chState c = chSlice → calm → Completes (.sliceEnd ch drift waited) s (fun u => u.chState c = chActive ∧
      u.fld rHbmchCalStat 23 16 c = drift.toNat ∧ u.rd rHbmchSlices c = min (s.rd rHbmchSlices c + 1) 0xFFFFFFFF ∧
      u.rd rHbmchWaitMax c = max (s.rd rHbmchWaitMax c) (min 500 waited.toNat) ∧
      (u.chan c).corrected = min (s.rd rHbmcDriftLimit st) drift.toNat ∧
      (s.rd rHbmcDriftLimit st < drift.toNat → (u.chan c).wantRetrain = true))) ∧
    (may → s.dieBusy die = true → Completes (.retrainStart ch dirty) s (fun u => u.chState c = chActive ∧
      (u.chan c).wantRetrain = true)) ∧
    (may → s.dieBusy die = false → Completes (.retrainStart ch dirty) s (fun u => u.chState c = chRetrain ∧ phase u = 1 ∧
      (u.chan c).wantRetrain = false ∧ u.rd rHbmchAlleyLines c = if s.flag rLlmStat 1 die then 0 else dirty.toNat)) ∧
    (s.chState c = chRetrain → phase s = 1 →
      Completes (.retrainDrainDone ch) s (fun u => u.chState c = chRetrain ∧ phase u = 2 ∧ u.mem = s.mem)) ∧
    (s.chState c = chRetrain → phase s = 2 → Completes (.retrainTrainDone ch .done waited) s (fun u =>
      u.chState c = chRetrain ∧ phase u = 3 ∧ u.rd rHbmchWaitMax c = max (s.rd rHbmchWaitMax c) (min 22000 waited.toNat))) ∧
    (s.chState c = chRetrain → phase s = 2 → Completes (.retrainTrainDone ch .aborted waited) s (fun u =>
      u.chState c = chRetrain ∧ phase u = 3 ∧ (u.chan c).aborted = true ∧ u.hdr tyHbmch c hErrCode = eCalAbort)) ∧
    (s.chState c = chRetrain → phase s = 2 → s.jobState ≠ stIdle → s.down 4 = false → Completes (.retrainTrainDone ch .failed waited) s (fun u =>
      u.chState c = chFenced ∧ u.job = none ∧ u.jobState = stIdle ∧ u.rd rHbmchAlleyLines c = 0)) ∧
    (s.chState c = chRetrain → phase s = 3 → (s.chan c).aborted = false → calm → Completes (.retrainReplayDone ch) s (fun u =>
      u.chState c = chActive ∧ phase u = 0 ∧ u.rd rHbmchAlleyLines c = 0 ∧
      u.rd rHbmchRetrains c = min (s.rd rHbmchRetrains c + 1) 0xFFFFFFFF ∧ (u.chan c).watch = some 0 ∧
      (u.chan c).tempAt = some (s.stackTemp st))) ∧
    (s.chState c = chEvacuating → spare ≠ c → calm → Completes (.evacuationDone ch) s (fun u => u.chState c = chRetired ∧
      u.chState spare = chActive ∧ u.fld rHbmcMap 17 16 st = 1 ∧ u.fld rHbmcMap 12 8 st = c % 32 ∧
      u.rd rHbmchEvacPos c = 2 ^ 22)) ∧
    (c ∈ s.cal.linkScans → Completes (.marginScanDone true ch waited height) s (fun u =>
      u = { s with cal := { s.cal with
        linkEyes := SMap.set (0, 0) s.cal.linkEyes c (waited.toNat, height.toNat)
        linkScans := s.cal.linkScans.filter (· ≠ c) } })) ∧
    (s.power.uses.contains (.margin c) = true → s.hbmAwake = true → Completes (.marginScanDone false ch waited height) s (fun u =>
      (u.chan c).eye = some (waited.toNat, height.toNat) ∧ HbmUse.margin c ∉ u.power.uses))

/-! ### Links (chapter 11) -/

/-- Training of a port. Every event moves its port from the one state that takes it, and no other port: light, received power, lane lock,
codeword lock, the partner's identity checked against the wiring, the key exchange, the time limits, loss of light, a retune and RETRY.
The model's own choices in it: log entries 48, 49. -/
def Obligations.LinkTraining : Prop :=
  ∀ (s : State) (p : Fin 48) (power : List (BitVec 16)) (r : IdentRec) (m : KeyMsg),
    let st := s.portState p.val
    let went := fun (x cause : Nat) (u : State) => u.portState p.val = x ∧ u.fld rFportStat 11 8 p.val = cause ∧ u.mem = s.mem ∧
      ∀ q, q < 48 → q ≠ p.val → u.portState q = s.portState q
    let lit := ∀ j, j < 8 → -1000 < (power.getD j 0x8000).toInt
    let bound := fun (ns : Nat) (u : State) => u.now = max s.now ((s.port p.val).since + ns)
    let trains := s.trains p.val = true
    let credited := fun (u : State) => (u.port p.val).credit = (List.range 7).map fun i => (r.credits.getD i 0).toNat
    let partner := r.kind.toNat * 2 ^ 30 + r.port.toNat * 2 ^ 24 + r.node.toNat
    (st = poLight → Completes (.lightReady p) s (fun u => went poDetect 0 u ∧ u.laserBit (p.val / 12) 3 = true)) ∧
    (st = poDetect → s.trains p.val = true → s.flag rClkRefStat 2 = false → lit → Completes (.rxPowerDetect p power) s (went poLock 0)) ∧
    (st = poFailed → (s.port p.val).lightLost = true → lit → Completes (.rxPowerDetect p power) s (went poDetect 0)) ∧
    (¬ lit → Completes (.rxPowerDetect p power) s (fun u => u = { s with regs := u.regs } ∧ u.portState p.val = st)) ∧
    (st = poLock → trains → Completes (.laneLock p) s (fun u => went poAlign 0 u ∧
      u.fld rFportStat 31 24 p.val = 0xFF)) ∧
    (st = poAlign → trains → Completes (.codewordLock p) s (fun u => went poIdentify 0 u ∧
      u.out.getLast? = some (.identity p.val (s.ownIdentity p.val (s.isBootPort p.val))))) ∧
    (s.trains p.val = false → Completes (.laneLock p) s (· = s) ∧ Completes (.codewordLock p) s (· = s) ∧
      Completes (.identityRecord p r) s (· = s)) ∧
    (st = poIdentify → trains → s.wiringOk p.val r = false → Completes (.identityRecord p r) s (fun u => went poFailed 1 u ∧
      u.rd rFportPartner p.val = partner ∧ u.hdr tyFport p.val hErrCode = eLinkFail)) ∧
    (st = poIdentify → trains → s.wiringOk p.val r = true → r.boot = true ∨ s.isBootPort p.val = true →
      Completes (.identityRecord p r) s (fun u => went poBoot 0 u ∧ u.rd rFportPartner p.val = partner ∧ credited u)) ∧
    (st = poIdentify → trains → s.wiringOk p.val r = true → r.boot = false → s.isBootPort p.val = false →
      Completes (.identityRecord p r) s (fun u => went poKey 0 u ∧ u.rd rFportPartner p.val = partner ∧ credited u ∧
        ((u.port p.val).exchange.isSome = s.secUp))) ∧
    (∀ mine xs ks, (s.port p.val).exchange = some (mine, xs, ks) → st = poKey → s.secUp = true →
      let d := s.freeBytes 33 32
      let ct := Config.encapsulate d.1 m.mlkem
      let w := s.rd rFportPartner p.val
      let low := decide (s.nodeId * 64 + p.val < bitsOf w 13 0 * 64 + bitsOf w 29 24)
      let h := if low then exchangeHash mine m ct m.ct else exchangeHash m mine m.ct ct
      let good := s.vouched p.val m = true ∧ Config.verify 0 m.idEd h m.sigEd = true ∧ Config.verify 1 m.idMl h m.sigMl = true
      (good → Completes (.keyExchange p m) s (fun u => went poUp 0 u ∧ (u.port p.val).exchange = none ∧ (u.port p.val).txSlot = 0 ∧
        u.flag rFportStat 16 p.val = true)) ∧
      (¬ good → Completes (.keyExchange p m) s (fun u => went poFailed 3 u ∧ u.hdr tyFport p.val hErrCode = eSig))) ∧
    (st = poLight → Completes (.portStateTimeout p) s (fun u => went poFailed 6 u ∧ bound 1000000 u)) ∧
    (st = poLock → Completes (.portStateTimeout p) s (fun u => went poDetect 0 u ∧ bound 2000000 u)) ∧
    (st = poAlign ∨ st = poIdentify → Completes (.portStateTimeout p) s (fun u => went poDetect 0 u ∧ bound 100000 u)) ∧
    (st = poKey → s.secUp = true → Completes (.portStateTimeout p) s (fun u => went poFailed 3 u ∧ bound 10000000 u)) ∧
    (poLock ≤ st → st ≠ poFailed → Completes (.lossOfLight p) s (fun u => went poDetect 0 u ∧ (st = poUp ∨ st = poRetune →
      u.rd rFportDowns p.val = min (s.rd rFportDowns p.val + 1) 0xFFFFFFFF ∧ (u.port p.val).keys = []))) ∧
    (st = poFailed → Completes (.lossOfLight p) s (fun u => u = { s with ports := u.ports } ∧ (u.port p.val).lightLost = true)) ∧
    (s.boot.held = false → st = poFailed → Completes (.fportRetry p) s (went poDetect 0)) ∧
    (s.boot.held = false → st ≠ poFailed → Completes (.fportRetry p) s (· = s)) ∧
    (st = poRetune → Completes (.retuneEnd p true) s (went poUp 0)) ∧
    (st = poRetune → Completes (.retuneEnd p false) s (fun u => went poDetect 0 u ∧ bound 50000 u))

/-- Laser modules, frames, the switch and what FAB does with the ports. A frame that cannot be corrected, whose tag fails or that comes
too early is dropped and asked for again; one in order returns its credit and gives its packets to the switch; a NAK has the frames kept
sent again, and eight in a row take the port to LOCK. A packet is delivered where it is addressed, as the request or response it carries;
one too old or of too many hops is discarded; any other leaves on the port that leads on. The model's own choices in it: log entries 47,
48, 82, 92. -/
def Obligations.LinkTraffic : Prop :=
  ∀ (s : State) (p : Fin 48) (m : Fin 4) (f : Frame) (k : Packet) (spent : BitVec 16) (member : Fin 32) (up : Bool),
    let st := s.portState p.val
    let me := s.nodeId % 32
    let runs := s.linkRuns p.val = true
    let out := fun (u : State) => ∀ q ∈ modulePorts m.val, u.portState q = if s.portState q = poDark then poDark else poFailed
    let age := min 0xFFFF (k.cargo.age + spent.toNat)
    let aged := k.cargo.withAge age
    let young := age < 1000 ∧ k.hops.toNat ≤ 5
    let mine := k.target.toNat % 2 ^ 14 = s.nodeId
    let plain := p.val < 31 ∧ k.nonmin = false
    let bad := f.uncorrectable ≠ 0
    let s0 := s.bump64 rFportFecCorr f.corrected.toNat p.val
    let v := splitFrame f.bytes
    let fseq := fieldLE v.control 0 8
    let nak := bitOf (fieldLE v.control 0x10 1) 0
    let next := (s.port p.val).rxNext
    let asks := fun (w u : State) => u = w.sendFrame p.val [] flagNak ∧ w.portState p.val = st ∧ (w.port p.val).rxNext = next ∧ w.mem = s.mem
    let wired := (List.range 48).filter fun q => (s.expected q).isSome
    let rate := min (s.rd rFportFecCorr p.val - (s.port p.val).fecLast) 0xFFFFFFFF
    let window := (s.wr rFportFecRate rate p.val).onPort p.val fun x => { x with fecLast := s.rd rFportFecCorr p.val }
    Completes (.laserRemove m) s (fun u => out u ∧ ∀ b, b < 4 → u.laserBit m.val b = false) ∧
    Completes (.laserFault m) s (fun u => out u ∧ u.laserBit m.val 2 = true ∧ u.laserBit m.val 1 = false ∧ u.laserBit m.val 3 = false) ∧
    (s.fabUp = true → Completes (.laserInsert m true) s (fun u => u.laserBit m.val 0 = true ∧ u.laserBit m.val 1 = true ∧
      u.laserBit m.val 2 = false ∧ ∀ q ∈ modulePorts m.val,
        (s.portState q = poFailed ∧ s.fld rFportStat 11 8 q = 6 → u.portState q = poLight) ∧
        (s.portState q ≠ poFailed ∧ s.portState q ≠ poDark → u.portState q = s.portState q))) ∧
    (s.fabUp = false → s.boot.booting = false → Completes (.laserInsert m false) s (fun u => u.laserBit m.val 0 = true ∧
      u.laserBit m.val 2 = false ∧ ∀ q, q < 48 → u.portState q = s.portState q)) ∧
    (s.linkRuns p.val = false → Completes (.linkFrame p f) s (· = s) ∧ Completes (.packetForward p k spent) s (· = s)) ∧
    (runs → bad → Completes (.linkFrame p f) s (fun u => ∃ w, asks w u ∧
      w.rd rFportFecUncorr p.val = min (s.rd rFportFecUncorr p.val + f.uncorrectable.toNat) 0xFFFFFFFF)) ∧
    (runs → ¬ bad → s0.frameText p.val v = none → ((s.port p.val).tagFails.filter fun t => decide (s.now < t + 1000000)).length < 15 →
      Completes (.linkFrame p f) s (fun u => ∃ w, asks w u ∧
        w.rd rFportAuthFail p.val = min (s.rd rFportAuthFail p.val + 1) 0xFFFFFFFF)) ∧
    (runs → ¬ bad → s0.frameText p.val v = none → 15 ≤ ((s.port p.val).tagFails.filter fun t => decide (s.now < t + 1000000)).length →
      Completes (.linkFrame p f) s (fun u => u.portState p.val = poFailed ∧ u.fld rFportStat 11 8 p.val = 5 ∧
        u.hdr tyFport p.val hErrCode = eLinkAuth)) ∧
    (∀ text, runs → ¬ bad → s0.frameText p.val v = some text → next < fseq → Completes (.linkFrame p f) s (asks s0)) ∧
    (∀ text, runs → ¬ bad → s0.frameText p.val v = some text → fseq < next → Completes (.linkFrame p f) s (· = s0)) ∧
    (∀ text, runs → ¬ bad → s0.frameText p.val v = some text → fseq = next → nak = false →
      let bs := dataBlocks v.types text
      Completes (.linkFrame p f) s (fun u => ∃ w : State, u = (bs.foldl (fun t b => t.blockIn p.val b) w).rxGo ∧ w.mem = s.mem ∧
        w.out = s.out ∧ (w.port p.val).rxNext = next + 1 ∧ (w.port p.val).naks = 0 ∧
        (w.port p.val).credit = (List.range 7).map (fun i => (s.port p.val).credit.getD i 0 + fieldLE v.control (0x12 + 2 * i) 2) ∧
        w.rd rFportRxBlocks p.val = min (s.rd rFportRxBlocks p.val + bs.length) 0xFFFFFFFFFFFFFFFF)) ∧
    (∀ text, runs → ¬ bad → s0.frameText p.val v = some text → fseq = next → nak = true →
      let ack := fieldLE v.control 8 8
      let n := if (s.port p.val).nakOf = ack then (s.port p.val).naks + 1 else 1
      let again := (s.port p.val).replay.filter fun x => decide (ack ≤ x.1)
      (n < 8 ∨ st = poBoot → Completes (.linkFrame p f) s (fun u => ∃ w : State,
        u = ((dataBlocks v.types text).foldl (fun t b => t.blockIn p.val b) w).rxGo ∧
        w.out = s.out ++ again.map (fun x => .frame p.val x.2) ∧ (w.port p.val).naks = n ∧
        w.rd rFportReplays p.val = min (s.rd rFportReplays p.val + again.length) 0xFFFFFFFF)) ∧
      (8 ≤ n → st = poUp → Completes (.linkFrame p f) s (fun u =>
        u.portState p.val = if s.fabUp then poLock else poDetect))) ∧
    (runs → st = poUp → ¬ young → Completes (.packetForward p k spent) s (· = s.bump rFswDiscard)) ∧
    (∀ q, runs → st = poUp → young → mine → plain → k.cargo = .request 1 q →
      exec (.packetForward p k spent) s = exec (.reqLoad { q with age := BitVec.ofNat 16 age }) s) ∧
    (∀ q, runs → st = poUp → young → mine → plain → k.cargo = .request 2 q →
      exec (.packetForward p k spent) s = exec (.reqStore { q with age := BitVec.ofNat 16 age }) s) ∧
    (∀ r, runs → st = poUp → young → mine → plain → k.cargo = .response 0x10 r →
      exec (.packetForward p k spent) s = exec (.rspData { r with age := BitVec.ofNat 16 age }) s) ∧
    (runs → st = poUp → young → ¬ mine → plain → k.cargo.isMcast = false → s.nextHop { k with cargo := aged } = none →
      Completes (.packetForward p k spent) s (· = s.bump rFswUnreach)) ∧
    (runs → st = poUp → young → ¬ mine → plain → k.cargo.isMcast = false → k.target.toNat % 2 ^ 14 / 32 = s.nodeId / 32 →
      let port := localPort me (k.target.toNat % 32)
      s.portKeyed port = true → Completes (.packetForward p k spent) s (fun u =>
        u = { s with regs := u.regs, ports := u.ports, out := u.out } ∧ ∃ fs,
        u.out = s.out ++ .packet port { k with cargo := aged, hops := k.hops + 1 } :: fs ∧ ∀ x ∈ fs, ∃ b, x = .frame port b)) ∧
    (member.val ≠ me → Completes (.linkStateRecord member p up) s (fun u => u = { s with regs := u.regs } ∧
      u.portUp member.val p.val = up ∧ ∀ q, q < 48 → q ≠ p.val → u.portUp member.val q = s.portUp member.val q)) ∧
    (member.val = me → Completes (.linkStateRecord member p up) s (· = s)) ∧
    (rate ≤ s.rd rFportFecLimit p.val → Completes (.fecRateEval p) s (· = window)) ∧
    (s.rd rFportFecLimit p.val < rate → st = poUp → s.fabUp = true → window.onlyPath p.val = false →
      (∀ q ∈ modulePorts (p.val / 12), s.portState q ≠ poRetune) → Completes (.fecRateEval p) s (fun u =>
        u.rd rFportFecRate p.val = rate ∧ u.portState p.val = poRetune ∧
        u.rd rFportRetunes p.val = min (s.rd rFportRetunes p.val + 1) 0xFFFFFFFF)) ∧
    (s.fabUp = true → wired ≠ [] → (∀ q ∈ wired, s.portState q = poUp) → s.flag rFswRouteCtrl 0 = false →
      Completes .adaptEnable s (fun u => u.flag rFswRouteCtrl 0 = true ∧ u.flag rFswStat 1 = true ∧
        ∀ q ∈ wired, (s.port q).since + 10000000 ≤ u.now)) ∧
    (s.boot.booting = true → (∀ i, i < 6 → s.fwRunning i = true) → s.fabUp = true →
      Completes .bootPortRelease s (fun u => u.boot.booting = false ∧
        (s.portState s.bootPort = poBoot → u.portState s.bootPort = poDetect)))

/-! ### Register accesses (chapter 18, R245, R246) -/

/-- The register window. An access that the window refuses reports its code, the offset and the originator in the page it meant, or in
NODE, and leaves the memory and the job alone; SMBus writes nothing; a write of SCRATCH writes it and nothing else; clearing ERR_CODE
clears ERR_INFO with it, in every page that a broadcast selects; the relay reaches the bridge's own window directly and every other
member's by a request. The model's own choices in it: log entries 61, 64. -/
def Obligations.RegisterAccess : Prop :=
  ∀ (s : State) (by_ : Requester) (a : BitVec 27) (bytes : BitVec 8) (v : Word) (member : Fin 32) (wide : Bool), s.boot.held = false →
    let w := a.toNat
    let ty := winType w
    let inst := winInst w
    let off := winOff w
    let n := bytes.toNat
    let single := winExists w = true ∧ winBcast w = false
    let report := fun (ty inst code info : Nat) (org : Nat) (u : State) => u.mem = s.mem ∧ u.job = s.job ∧
      u.hdr ty inst hErrCode = code ∧ u.hdr ty inst hErrInfo0 = info ∧ u.hdr ty inst hErrInfo1 = org ∧
      bitOf (u.hdr ty inst hIntStat) 0 = true
    let bad := (n ≠ 4 ∧ n ≠ 8) ∨ off % 4 ≠ 0 ∨ 4096 < off + n
    let scratch := fun (x : Nat) (u : State) => u = { s with regs := u.regs } ∧ u.hdr ty inst hScratch = x ∧
      ∀ k, k ≠ regKey ty inst hScratch → u.regGet k = s.regGet k
    let page := w / 4096 * 4096 + hErrCode
    let cleared := fun (i : Nat) (u : State) => u.hdr (winType page) i hErrCode = 0 ∧ u.hdr (winType page) i hErrInfo0 = 0 ∧
      u.hdr (winType page) i hErrInfo1 = 0
    let own := member.val = s.nodeId % 32
    let target := s.nodeId / 32 * 32 + member.val
    let m := if wide then 8 else 4
    let sent := fun (typ : ReqType) (o : Owner) (data : List Byte) (u : State) => ∃ q, u = (s.enqueue q).pump ∧
      q.typ = typ ∧ q.owner = o ∧ q.copies.map (·.1) = [target] ∧ q.tag = none ∧
      q.req.addr = BitVec.ofNat 64 (regWinBase + w) ∧ q.req.len = BitVec.ofNat 16 m ∧ q.req.payload = data
    (winExists w = false → Completes (.registerWrite by_ a bytes v) s (report tyNode 0 eRange w (orgOf by_)) ∧
      Completes (.registerReadRefused by_ a bytes) s (report tyNode 0 eRange w (orgOf by_)) ∧
      Completes (.registerReadRefused .host a bytes) s (fun u => u.out.getLast? = some (.value 0))) ∧
    (single → bad → Completes (.registerWrite by_ a bytes v) s (report ty inst eRange off (orgOf by_)) ∧
      Completes (.registerReadRefused by_ a bytes) s (report ty inst eRange off (orgOf by_))) ∧
    (single → ¬ bad → Completes (.registerWrite .smbus a bytes v) s (report ty inst eLocked off orgSmbus)) ∧
    (single → off = hScratch → Completes (.registerWrite .host a 4 v) s (scratch (v.toNat % 2 ^ 32))) ∧
    (∀ b, b = withBit w 26 true → winExists b = true → Completes (.bcastRead by_ a) s (report tyNode 0 eBcastRead (b % 2 ^ 27) (orgOf by_)) ∧
        Completes (.bcastRead .host a) s (fun u => u.out.getLast? = some (.value 0))) ∧
    (winExists page = true → Completes (.errCodeClear a) s (fun u => u = { s with regs := u.regs } ∧
      (winBcast page = false → cleared (winInst page) u) ∧
      (winBcast page = true → ∀ i ∈ s.selected (winType page) (winInst page), cleared i u))) ∧
    Completes .hbrRptPop s (fun u => u = { s with hbr := { s.hbr with queue := s.hbr.queue.drop 1 }, regs := u.regs } ∧
      u.rd rHbrRptCount = (s.hbr.queue.length - 1) % 2 ^ 64) ∧
    (s.isBridge = false → Completes (.relayRead member a wide) s (· = s) ∧ Completes (.relayWrite member a wide v) s (· = s)) ∧
    (s.isBridge = true → own → single → off = hScratch →
      Completes (.relayRead member a false) s (fun u => u = { s with fresh := u.fresh, out := u.out } ∧
        u.out = s.out ++ [.value (s.hdr ty inst hScratch % 2 ^ 32)]) ∧
      Completes (.relayWrite member a false v) s (scratch (v.toNat % 2 ^ 32))) ∧
    (s.isBridge = true → own → exec (.relayRead member a wide) s = exec (.registerReadRefused .host a (BitVec.ofNat 8 m)) s ∧
      exec (.relayWrite member a wide v) s = exec (.registerWrite .host a (BitVec.ofNat 8 m) v) s) ∧
    (s.isBridge = true → ¬ own →
      Completes (.relayRead member a wide) s (sent .load (.relayRead (member.val * 2 ^ 27 + w)) []) ∧
      Completes (.relayWrite member a wide v) s (sent .store (.relayWrite (member.val * 2 ^ 27 + w)) (bytesLE m v.toNat)))

/-! ### Power, temperature and ageing (chapters 9 and 15) -/

/-- The quantum, the PWR loop, clamps, rail faults and samples. The model's own choices in it: log entries 31, 33, 37, 38, 43, 75, 77. -/
def Obligations.PowerAndAgeing : Prop :=
  ∀ (s : State) (rises : List Int) (mv da : List (BitVec 16)) (mw : List (BitVec 32)) (rail : Fin 14) (die : Fin 6) (k : Fin 64)
      (t : BitVec 16) (ms : List (BitVec 16 × BitVec 16)) (hbm links : List (BitVec 16 × List Byte)),
    let watts := powerOf (mv.map (·.toNat)) (da.map (·.toNat))
    let r := rail.val
    let d := die.val
    let kd := k.val / 8
    let ready := if k.val < 48 then s.pins.resetN = true else 4 ≤ s.fld rAonBootStat 2 0
    Completes (.quantum rises) s (fun u => u.now = s.now + 250 ∧ u.power.quantum = s.power.quantum + 1 ∧ u.mem = s.mem ∧
      u.job = s.job) ∧
    (s.power.plan = [] → s.power.queue = [] → Completes (.quantum rises) s (fun u => u.power.up = s.power.up ∧
      u.pins.loadstep = 0)) ∧
    (∀ x, s.power.plan = [x] → s.power.queue = [] → x.quantum = s.power.quantum + 1 → x.dom ∉ s.power.dead →
      Completes (.quantum rises) s (fun u => SMap.get 0 u.power.up x.dom =
        if x.up then SMap.get 0 s.power.up x.dom + 1 else SMap.get 0 s.power.up x.dom - 1)) ∧
    (s.pwrUp = true → Completes (.pwrLoop mv da mw) s (fun u => u.now = (s.now / 1000000 + 1) * 1000000 ∧
      u.rd rPwrNodePower = watts % 2 ^ 64 ∧ u.mem = s.mem ∧
      ∀ x, x < 14 → bitsOf (u.rd rPwrRail 0 (8 * x)) 31 16 = (da.map (·.toNat)).getD x 0)) ∧
    (s.pwrUp = true → watts ≤ s.rd rPwrLimit →
      (∀ x, x < 6 → s.clamped x = false ∧ (s.rd rThmTarget : Int) * 10 < s.dieTemp x) →
      Completes (.pwrLoop mv da mw) s (fun u => ∀ x, x < 6 → u.level x = min 8 (s.level x + 1))) ∧
    (s.pwrUp = false → Completes (.pwrLoop mv da mw) s (· = s)) ∧
    Completes (.railFault rail) s (fun u => u.pins.faultN = false ∧ u.flag rPwrStat 22 = true ∧ u.hdr tyPwr 0 hErrCode = eRail ∧
      (s.down 4 = false → u.jobState = stIdle ∧ (s.jobState ≠ stIdle → u.job = none)) ∧
      (s.down 4 = true → s.jobState ≠ stIdle → s.sched.endDue = none → u.sched.endDue = some (4, eRail)) ∧
      ∀ x ∈ railDomains r, u.clkOf x = 0) ∧
    (s.flag rPwrStat r = false → Completes (.currentClamp rail) s (fun u => u.flag rPwrStat r = true ∧ u.mem = s.mem ∧
      (∀ x ∈ railDies r, u.level x = 8) ∧ u.rd rPwrClamps = min (s.rd rPwrClamps + 1) 0xFFFFFFFF ∧
      (s.power.clampSeen = false → u.hdr tyPwr 0 hErrCode = ePwrClamp))) ∧
    (s.flag rPwrStat r = true → Completes (.currentClamp rail) s (· = s)) ∧
    Completes (.currentClampRelease rail) s (fun u => u = { s with regs := u.regs, mgmt := u.mgmt, pins := u.pins } ∧
      u.rd rPwrStat = withBit (s.rd rPwrStat) r false ∧ ∀ x, x ≠ regKey tyPwr 0 0x080 → u.regGet x = s.regGet x) ∧
    (s.pwrUp = false → Completes .clampLevelRestore s (fun u => u.now = (s.now / 1000000 + 1) * 1000000 ∧ u.mem = s.mem ∧
      ∀ x, x < 6 → let b := SMap.get 0 s.power.before x
        u.level x = if b = 0 ∨ s.clamped x = true ∨ s.level x ≤ b - 1 then s.level x else s.level x - 1)) ∧
    (s.pwrUp = true → Completes .clampLevelRestore s (· = s)) ∧
    (ready → Completes (.sensorSample k t) s (fun u => u.mem = s.mem ∧ u.sensor k.val = t.toInt ∧
      (k.val < 48 → 1030 ≤ t.toInt → kd ∈ u.power.hot ∧
        (kd ∉ s.power.hot → u.level kd = 8 ∧ u.hdr tyThm 0 hErrCode = eTherm ∧ u.flag rThmStat 0 = true)) ∧
      (t.toInt < 1030 → u.power.hot = s.power.hot) ∧
      (1250 ≤ t.toInt → u.pins.thermtripN = false ∧ (s.pins.thermtripN = true → u.pins.gates = 0)))) ∧
    (¬ ready → Completes (.sensorSample k t) s (· = s)) ∧
    (d ∈ s.power.hot → s.dieTemp d < 980 → Completes (.thermalClampRelease die) s (fun u => d ∉ u.power.hot ∧ u.mem = s.mem ∧
      (∀ x, x ≠ d → x ∈ s.power.hot → x ∈ u.power.hot) ∧ u.flag rThmStat 0 = !u.power.hot.isEmpty)) ∧
    (d ∉ s.power.hot ∨ 980 ≤ s.dieTemp d → Completes (.thermalClampRelease die) s (· = s)) ∧
    (s.pwrUp = true → Completes (.ageSample ms) s (fun u => u.mem = s.mem ∧ ∀ i delay m, i < 12 → ms[i]? = some (delay, m) →
      u.rd rAgeDelay i = delay.toNat ∧ u.rd rAgeMargin i = (m.toInt % 2 ^ 32).toNat ∧
      u.rd rAgeSamples i = min (s.rd rAgeSamples i + 1) 0xFFFFFFFF)) ∧
    (s.pwrUp = false → Completes (.ageSample ms) s (· = s)) ∧
    (∀ x m, s.pwrUp = true → s.age.least = [(x, m)] → let gb := SMap.get 0 s.age.gb x
      (m < 20 → gb < 60 → Completes (.ageEval [] [] true) s (fun u => SMap.get 0 u.age.gb x = gb + 5 ∧ u.age.least = [])) ∧
      (20 ≤ m → Completes (.ageEval [] [] true) s (fun u => u.age.gb = s.age.gb ∧ u.age.least = []))) ∧
    Completes (.ageEval hbm links false) s (fun u => u.flash = s.flash ∧ u.logFrozen = true ∧ u.hdr tyAge 0 hErrCode = eRange)

/-! ### Resets, clocks and the start (chapter 19, R244) -/

/-- The resets, the reference clocks, the stages of the start, and the PCIe link of the bridge. The model's own choices in it: log entries
8, 52, 53, 54. -/
def Obligations.ResetsAndStart : Prop :=
  ∀ (s : State) (strap flit x16 present : Bool) (rate : BitVec 3) (failed : List (Fin 512)) (ms : BitVec 16),
    let wiped := fun (u : State) => u.boot.held = true ∧ u.job = none ∧ u.threads = [] ∧ u.fxp = {} ∧ u.flash = s.flash ∧
      ∀ a, llmBase ≤ a → SMap.get 0 u.mem a = 0
    let cause := fun (c : Nat) (u : State) => u.rd rAonResetCause = c + 16 * (!s.pins.thermtripN).toNat
    let stage := s.fld rAonBootStat 2 0
    let at_ := fun (n : Nat) (u : State) => u.fld rAonBootStat 2 0 = n ∧ u.mem = s.mem
    let notDown := s.boot.held = false
    let lost := fun (b : Nat) (u : State) => u.flag rClkRefStat b = true ∧ u.pins.faultN = false ∧ u.boot.held = true ∧
      (notDown → u.job = none ∧ u.boot.needFall = true)
    Completes .aonReset s (fun u => wiped u ∧ u.mem = [] ∧ u.pins.resetN = false ∧ u.pins.pwrok = false ∧ u.pins.thermtripN = true ∧
      ∀ k, u.regGet k = regDefault k) ∧
    (s.pins.pwrok = true → Completes .powerOnReset s (fun u => wiped u ∧ u.mem = [] ∧ u.pins.pwrok = false ∧ cause 2 u)) ∧
    (s.pins.pwrok = false → Completes .powerOnReset s (· = s)) ∧
    (s.pins.pwrok = true → s.pins.resetN = true → Completes .warmReset s (fun u => wiped u ∧ u.pins.resetN = false ∧ cause 4 u ∧
      u.lineKey = s.lineKey ∧ u.poison = s.poison ∧ (∀ a, a < llmBase → SMap.get 0 u.mem a = SMap.get 0 s.mem a) ∧
      (SMap.wf regDefault s.regs = true → ∀ ty inst, ty < 32 → inst < 512 → u.hdr ty inst hScratch = s.hdr ty inst hScratch))) ∧
    (s.pins.pwrok = false ∨ s.pins.resetN = false → Completes .warmReset s (· = s)) ∧
    (s.boot.held = true → (s.boot.needFall = false ∨ s.pins.resetN = false) → s.tap.takesLands = false →
      Completes (.resetRelease strap true) s (fun u => u.boot.held = false ∧ at_ 1 u ∧ u.now = max s.now (s.boot.fell + 20000) ∧
        u.pins.resetN = true ∧ u.pins.pwrok = true ∧ u.pins.faultN = true ∧ u.isBridge = strap ∧ u.flag rSecStat 9 = true ∧
        u.job = s.job)) ∧
    (s.boot.held = true → (s.boot.needFall = false ∨ s.pins.resetN = false) →
      Completes (.resetRelease strap false) s (fun u => u.boot.held = true ∧ u.boot.needFall = true ∧ u.regs = s.regs ∧
        u.mem = s.mem)) ∧
    (s.boot.held = false ∨ (s.boot.needFall = true ∧ s.pins.resetN = true) → Completes (.resetRelease strap true) s (· = s)) ∧
    Completes (.refclkLoss .sys) s (lost 0) ∧ Completes (.refclkLoss .xtal) s (lost 3) ∧
    (notDown → Completes (.refclkLoss .fab) s (fun u => u.flag rClkRefStat 2 = true ∧ u.mem = s.mem ∧ ∀ q, q < 48 →
      u.portState q = if s.portState q = poDark ∨ s.portState q = poFailed then s.portState q else poDetect)) ∧
    Completes (.refclkLoss .pcie) s (fun u => u = { s with regs := u.regs } ∧ u.flag rClkRefStat 1 = true ∧
      (s.isBridge = true → notDown → u.rd rHbrStat = 2)) ∧
    (s.flag rClkRefStat 2 = true → Completes .refclkFabReturn s (fun u =>
      u = { s with now := s.now + 1000000, regs := u.regs, pins := { s.pins with gates := u.pins.gates } } ∧
      u.rd rClkRefStat = withBit (s.rd rClkRefStat) 2 false ∧ (s.boot.held = true → u.pins.gates = s.pins.gates) ∧
      (notDown → ∀ q, q < 48 → bitOf u.pins.gates q = (sendsLight (s.portState q) && s.pins.thermtripN)))) ∧
    (s.flag rClkRefStat 2 = false → Completes .refclkFabReturn s (· = s)) ∧
    Completes .refclkPcieReturn s (fun u => u = { s with regs := u.regs } ∧
      u.rd rClkRefStat = withBit (s.rd rClkRefStat) 1 false) ∧
    (s.pins.perstN = false → Completes .hostBridgeReset s (· = s)) ∧
    (s.pins.perstN = true → notDown → (∀ l, s.fwLoad = some l → l.inst < 6) → Completes .hostBridgeReset s (fun u =>
      u.pins.perstN = false ∧ u.rd rHbrStat = 0 ∧ u.mem = s.mem ∧ u.job = s.job ∧
      ∀ l, s.fwLoad = some l → (l.staged = true → u.fwLoad = some l) ∧
        (l.staged = false → u.fwLoad = none ∧ u.hdr tyFwp l.inst hErrCode = eState))) ∧
    Completes .perstNRise s (fun u => u = { s with pins := { s.pins with perstN := true } }) ∧
    (notDown → s.isBridge = true → s.pins.perstN = true → 2 ≤ stage → s.flag rClkRefStat 1 = false →
      let good := flit = true ∧ x16 = true ∧ rate ≠ 0 ∧ rate ≠ 7
      Completes (.pcieLinkUp flit x16 rate) s (fun u => u = { s with regs := u.regs } ∧
        (good → u.rd rHbrStat = 1 + 16 * rate.toNat) ∧ (¬ good → u.rd rHbrStat = 2))) ∧
    (notDown → stage = 1 → Completes (.settingsReadDone present) s (fun u => at_ 2 u ∧
      u.rd rCfgfSize = (if present then 65536 else 0) ∧ (present = false → u.logFrozen = true))) ∧
    (stage ≠ 1 → Completes (.settingsReadDone present) s (· = s)) ∧
    (notDown → stage = 2 → Completes .ageLogReadDone s (fun u => at_ 3 u ∧ u = { s with age := u.age, regs := u.regs } ∧
      (s.logFrozen = true → u.age.table = []))) ∧
    (stage ≠ 2 → Completes .ageLogReadDone s (· = s)) ∧
    (notDown → stage = 3 → s.boot.spared = false → (∀ ch, ch < 512 → s.age.find 5 ch = none) →
      Completes (.hbmTrainDone [] ms) s (fun u => at_ 4 u ∧ u.rd rAonBootMs = ms.toNat ∧
        u.now = max s.now (s.boot.rose + ms.toNat * 1000000) ∧ ∀ ch, ch < 512 → u.chState ch = chActive)) ∧
    (notDown → stage = 3 → (∃ x ∈ failed, ∃ y ∈ failed, x ≠ y ∧ x.val / 32 = y.val / 32) →
      Completes (.hbmTrainDone failed ms) s (at_ 5))

/-! ### Firmware, log and flash (chapters 17 to 19) -/

/-- A START before stage LOAD is refused with E_STATE and changes nothing of the load or the processor; PERST_N falling stops a load in
LOADING, whose processor returns to its state before START (R371). DBG_LOG_SEL takes any sequence; a read of DBG_LOG_DATA gives the bytes
of the entry selected, or zeros, with E_RANGE and the sequence in ERR_INFO, where the ring does not hold it (R349). -/
def Obligations.LoadsBeforeStageAndLogReads : Prop :=
  ∀ (s : State) (p : Fin 6) (host v : Word) (len : BitVec 32) (q : Fin 4), s.boot.held = false →
    let i := p.val
    let n := s.rd rDbgLogSel
    let held := s.rd rDbgLogTail ≤ n ∧ n < s.rd rDbgLogHead
    let entry := s.peekN (s.slotBase 6 + 32 * (n % 262144)) 32
    (s.fld rAonBootStat 2 0 < 4 → Completes (.fwpLoad p host len) s (fun u => u.hdr tyFwp i hErrCode = eState ∧
      u.fwLoad = s.fwLoad ∧ u.fld rFwpStat 3 0 i = s.fld rFwpStat 3 0 i ∧ u.mem = s.mem)) ∧
    (∀ l, s.pins.perstN = true → s.fwLoad = some l → l.inst < 6 → l.staged = false → Completes .hostBridgeReset s (fun u =>
      u.fwLoad = none ∧ u.fld rFwpStat 3 0 l.inst = l.prior % 16 ∧ u.hdr tyFwp l.inst hErrCode = eState ∧ u.mem = s.mem)) ∧
    Completes (.registerWrite .host (BitVec.ofNat 27 (tyDbg * 2 ^ 21 + 0x090)) 8 v) s (fun u => u = { s with regs := u.regs } ∧
      u.rd rDbgLogSel = v.toNat ∧ ∀ k, k ≠ regKey tyDbg 0 0x090 → u.regGet k = s.regGet k) ∧
    (held → Completes (.logRead q .host) s (fun u => u = { s with fresh := s.fresh + 1, out := u.out } ∧
      u.out = s.out ++ [.value (fieldLE entry (8 * q.val) 8)])) ∧
    (¬ held → Completes (.logRead q .host) s (fun u => u.mem = s.mem ∧ (∃ rest, u.out = s.out ++ .value 0 :: rest) ∧
      u.hdr tyDbg 0 hErrCode = eRange ∧ u.hdr tyDbg 0 hErrInfo0 = n % 2 ^ 32 ∧ u.hdr tyDbg 0 hErrInfo1 = n / 2 ^ 32))

/-- Image loads, lone restarts, held pages, the start-up scrub, the log ring and the configuration flash. The model's own choices in it:
log entries 32, 50, 54, 59, 60. -/
def Obligations.FirmwareAndFlash : Prop :=
  ∀ (s : State) (p : Fin 6) (host : Word) (len : BitVec 32) (data : List Byte) (pc : BitVec 32) (ms : BitVec 16) (memory : Bool)
      (a n : BitVec 32) (q : Fin 4),
    let i := p.val
    let state := fun (x : Nat) (u : State) => u.fld rFwpStat 3 0 i = x
    let notDown := s.boot.held = false
    let outside := fun (lo n : Nat) (u : State) => ∀ x, ¬ (lo ≤ x ∧ x < lo + n) → u.peek x = s.peek x
    let plain := fun (lo n : Nat) => ∀ x, lo ≤ x → x < lo + n → ∃ k, s.lineState x = .plain k
    let refusedLoad := fun (l : FwLoad) (e : Nat) (u : State) => u.fwLoad = none ∧ u.hdr tyFwp l.inst hErrCode = e ∧
      u.fld rFwpStat 3 0 l.inst = l.prior % 16
    let few := fun (now : Nat) => ((s.fw i).recent.filter fun t => decide (now < t + 10000000000)).length < 3
    let lapse := max s.now ((s.fw i).kickAt + (s.fw i).period * 1000000)
    let restarted := fun (cause now : Nat) (u : State) => u.now = now ∧ u.down i = true ∧ (u.fw i).cause = cause ∧ u.mem = s.mem ∧
      u.rd rFwpRestarts i = min (s.rd rFwpRestarts i + 1) 0xFFFFFFFF ∧ u.hdr tyFwp i hErrCode = eFwWdog ∧
      u.hdr tyFwp i hErrInfo0 = pc.toNat ∧ (few now → state 4 u) ∧ (¬ few now → state 5 u)
    let alone := s.fwLoad = none
    let path := s.pathRuns = true
    let h := s.rd rDbgLogHead
    let flashOk := notDown ∧ s.flag rCfgfStat 0 = false ∧ s.secUp = true
    let flashDone := fun (e : Nat) (u : State) => u.flag rCfgfStat 0 = false ∧ u.flag rCfgfStat 1 = true ∧
      bitsOf (u.rd rCfgfStat) 15 8 = e ∧ u.mem = s.mem
    let sector := a.toNat / 4096 * 4096
    (notDown → s.fld rAonBootStat 2 0 = 4 → alone → len.toNat ≤ maxImage → Completes (.fwpLoad p host len) s (fun u =>
      u.fwLoad = some { inst := i, host := host.toNat, len := len.toNat, prior := s.fld rFwpStat 3 0 i } ∧ state 1 u)) ∧
    (notDown → s.fld rAonBootStat 2 0 ≠ 4 ∨ s.fwLoad ≠ none → Completes (.fwpLoad p host len) s (fun u =>
      u.fwLoad = s.fwLoad ∧ u.hdr tyFwp i hErrCode = eState ∧ u.mem = s.mem)) ∧
    (∀ l, path → s.fwLoad = some l → l.inst < 6 → l.staged = false →
      let base := s.slotBase 7
      (data.length < l.len → Completes (.fwpImageStaged data) s (fun u => refusedLoad l eRange u ∧ u.mem = s.mem)) ∧
      (l.len ≤ data.length → Completes (.fwpImageStaged data) s (fun u => u.fwLoad = some { l with staged := true } ∧
        u.fld rFwpStat 3 0 l.inst = 2 ∧ outside base l.len u ∧ (plain base l.len → u.peekN base l.len = data.take l.len)))) ∧
    (s.pathRuns = false → Completes (.fwpImageStaged data) s (· = s) ∧ Completes .fwpVerifyDone s (· = s) ∧
      Completes (.fwpRestartHashDone p) s (· = s) ∧ Completes .hbmScrubDone s (· = s) ∧ Completes .logDrain s (· = s)) ∧
    (∀ l, path → s.fwLoad = some l → l.inst < 6 → l.staged = true → l.verified = false →
      let img := s.stagedImage l
      let err := imageErr img l.inst
      (err ≠ eNone → Completes .fwpVerifyDone s (fun u => refusedLoad l err u ∧ u.mem = s.mem)) ∧
      (err = eNone → s.tenantOpen = false → s.sessState ≠ 3 → Completes .fwpVerifyDone s (fun u => u.fwLoad = none ∧
        u.fld rFwpStat 3 0 l.inst = 3 ∧ u.rd rFwpImageVer l.inst = fieldLE img 8 4 ∧
        (∀ w, w < 6 → u.rd rFwpMeasure l.inst (8 * w) = fieldLE (sha384 img) (8 * w) 8) ∧
        outside (s.slotBase l.inst) l.len u ∧ (plain (s.slotBase l.inst) l.len → u.peekN (s.slotBase l.inst) l.len = img)))) ∧
    (alone → s.fld rFwpStat 3 0 i = 3 → Completes (.fwpWatchdog p pc) s (restarted 1 lapse)) ∧
    (alone → s.fld rFwpStat 3 0 i = 3 ∨ s.fld rFwpStat 3 0 i = 4 →
      Completes (.fwpCrash p memory pc) s (restarted (if memory then 4 else 2) s.now)) ∧
    (s.fwState i ≠ 3 → Completes (.fwpWatchdog p pc) s (· = s)) ∧
    (s.fwState i ≠ 3 → s.fwState i ≠ 4 → Completes (.fwpCrash p memory pc) s (· = s)) ∧
    (alone → path → s.fld rFwpStat 3 0 i = 4 →
      let same := sha384 (s.peekN (s.slotBase i) (s.fw i).len) = s.measures.getD i []
      (same → Completes (.fwpRestartHashDone p) s (fun u => state 3 u ∧ u.mem = s.mem)) ∧
      (¬ same → Completes (.fwpRestartHashDone p) s (fun u => state 5 u ∧ u.mem = s.mem ∧
        u.hdr tyFwp i hErrCode = eFwImage))) ∧
    (alone → s.sec.trans = none → s.fld rFwpStat 3 0 i = 3 → s.down i = true → Completes (.heldClear p ms) s (fun u =>
      u.down i = false ∧ (u.fw i).ran = true ∧ (u.fw i).cause = 0 ∧
      ((s.fw i).cause ≠ 0 → (s.fw i).cause < 8 → u.rd rFwpLastCause i =
        (s.fw i).cause * 2 ^ 16 + min 0xFFFF ((max s.now ((s.fw i).haltAt + ms.toNat * 1000000) - (s.fw i).haltAt) / 1000000)))) ∧
    (path → s.memUp = true → s.sec.startScrub = true → s.flag rHbmcMap 31 = true → Completes .hbmScrubDone s (fun u =>
      u.flag rNodeStat 7 = true ∧ u.flag rSecStat 9 = false ∧ u.sec.startScrub = false ∧ ∀ x,
        SMap.get 0 u.mem x = if x < s.protBase then 0 else SMap.get 0 s.mem x)) ∧
    (s.memUp = false → Completes .hbmScrubDone s (· = s)) ∧
    Completes (.cmdTakeUp 0) s (· = s.hifTake) ∧ Completes (.cmdTakeUp 1) s (· = s.secTake) ∧
    Completes (.cmdTakeUp 2) s (· = s.lcyTake) ∧
    (∀ e rest, path → s.domainsRun [24] = true → s.log.queue = e :: rest → s.down 5 = false →
      let lo := s.slotBase 6 + 32 * (h % 262144)
      let entry := bytesLE 4 (h % 2 ^ 32) ++ e
      Completes .logDrain s (fun u => u.log.queue = rest ∧ u.rd rDbgLogHead = (h + 1) % 2 ^ 64 ∧
        u.rd rDbgLogTail = (if s.rd rDbgLogTail + 262144 ≤ h then h + 1 - 262144 else s.rd rDbgLogTail) ∧
        outside lo entry.length u ∧ (plain lo entry.length → u.peekN lo entry.length = entry))) ∧
    (s.log.queue = [] ∨ s.down 5 = true → Completes .logDrain s (· = s)) ∧
    Completes (.logRead q .smbus) s (· = s) ∧
    (flashOk → 1 ≤ n.toNat → n.toNat ≤ 256 → a.toNat + n.toNat ≤ s.rd rCfgfSize * 1024 → Completes (.flashRead a n) s (fun u =>
      flashDone eNone u ∧ u.flash = s.flash ∧ ∀ j, j < n.toNat →
        bitsOf (u.rd rCfgfData 0 (j / 4 * 4)) (8 * (j % 4) + 7) (8 * (j % 4)) = (s.flashByte (a.toNat + j)).toNat)) ∧
    (flashOk → 1 ≤ n.toNat → n.toNat ≤ 256 → data.length = n.toNat →
      let e := s.flashErr a.toNat n.toNat false
      (e ≠ eNone → Completes (.flashProgram a n data true) s (fun u => flashDone e u ∧ u.flash = s.flash)) ∧
      let area := (a.toNat, a.toNat + n.toNat)
      let header := meets area (bankBase s.inactiveBank, bankBase s.inactiveBank + 64)
      let spare := meets area (0x1000, 0x100000) || meets area (0x300000, 0x400000)
      let c := (s.flashProgram a.toNat data).commitErr s.inactiveBank
      let written := fun (u : State) => ∀ x, u.flashByte x =
        if a.toNat ≤ x ∧ x < a.toNat + n.toNat then s.flashByte x &&& data.getD (x - a.toNat) 0 else s.flashByte x
      (e = eNone → header = false → spare = false →
        Completes (.flashProgram a n data true) s (fun u => flashDone eNone u ∧ written u)) ∧
      (e = eNone → header = false → spare = true →
        Completes (.flashProgram a n data true) s (fun u => flashDone eNone u ∧ u.flash = s.flash)) ∧
      (e = eNone → header = true → c = eNone →
        Completes (.flashProgram a n data true) s (fun u => flashDone eNone u ∧ written u ∧ u.flag rCfgfActive 2 = true)) ∧
      (e = eNone → header = true → c ≠ eNone →
        Completes (.flashProgram a n data true) s (fun u => flashDone c u ∧ u.flash = s.flash))) ∧
    (flashOk →
      let e := s.flashErr sector 4096 false
      (e ≠ eNone → Completes (.flashErase a true) s (fun u => flashDone e u ∧ u.flash = s.flash)) ∧
      (e = eNone → Completes (.flashErase a true) s (fun u => flashDone eNone u ∧ ∀ x, u.flashByte x =
        if sector ≤ x ∧ x < sector + 4096 then 0xFF#8 else s.flashByte x)))

/-! ### Host transfers (R327, R328, R335) -/

/-- The four forms of host transfer. SEC takes one up whole or refuses it whole with the code of its limits; each chunk moves up to 64 KiB
between the host and local memory or the message buffer, sealed in the sealed forms; a tag that fails, or a session that has begun to
close, ends the transfer. The model's own choices in it: log entries 11, 70. -/
def Obligations.HostTransfers : Prop :=
  ∀ (s : State) (host loc len : Word) (buffer : Bool) (data : List Byte),
    let x0 := fun (form : Nat) => ({ form := form, buffer := buffer, host := host.toNat, loc := loc.toNat, len := len.toNat } : Xfer)
    let started := fun (form : Nat) (u : State) => u.mem = s.mem ∧
      let e := s.xferErr (x0 form)
      (e = eNone → u.sec.xfer = some { x0 form with checked := true } ∧ u.rd rSecXferStat = 1) ∧
      (e ≠ eNone → u.sec.xfer = none ∧ u.rd rSecXferStat = 2 + 256 * e ∧ u.rd rSecXferNo = s.rd rSecXferNo)
    let kept := fun (u : State) => u.mem = s.mem ∧ u.sec.xfer = s.sec.xfer
    (s.boot.held = false → s.sec.xfer = none → s.secUp = true → 1 ≤ len.toNat → len.toNat ≤ 2 ^ 40 →
      Completes (.clearIn host loc len buffer) s (started 0) ∧ Completes (.clearOut host loc len buffer) s (started 1) ∧
      Completes (.sealedIn host loc len buffer) s (started 2) ∧ Completes (.sealedOut host loc len buffer) s (started 3)) ∧
    (s.boot.held = true ∨ s.sec.xfer ≠ none →
      Completes (.clearIn host loc len buffer) s kept ∧ Completes (.clearOut host loc len buffer) s kept ∧
      Completes (.sealedIn host loc len buffer) s kept ∧ Completes (.sealedOut host loc len buffer) s kept) ∧
    (s.sec.xfer = none ∨ s.secUp = false → Completes (.hostXferChunk data) s (· = s)) ∧
    (∀ x, s.sec.xfer = some x → x.buffer = false → s.pathRuns = false → Completes (.hostXferChunk data) s (· = s)) ∧
    ∀ x, s.sec.xfer = some x → x.checked = true → s.secUp = true → x.buffer = true ∨ s.pathRuns = true →
      let n := min chunkBytes (x.len - x.moved)
      let lo := x.loc + x.moved
      let last := x.len ≤ x.moved + n
      let at_ := x.host + x.moved + (if 2 ≤ x.form then 16 else 0) * (x.moved / chunkBytes)
      let ends := fun (err : Nat) (u : State) => u.sec.xfer = none ∧ bitsOf (u.rd rSecXferStat) 15 8 = err ∧
        bitOf (u.rd rSecXferStat) 0 = false ∧
        (s.sessState = 2 → u.rd rSecXferNo = min (s.rd rSecXferNo + 1) 0xFFFFFFFF)
      let moved := fun (u : State) => (last → ends eNone u) ∧ (¬ last → u.sec.xfer = some { x with moved := x.moved + n } ∧
        bitOf (u.rd rSecXferStat) 0 = true)
      let wrote := fun (bs : List Byte) (u : State) => u.mem = s.mem ∧ ∃ rest, u.out = s.out ++ .hostWrite at_ bs :: rest
      let put := fun (bs : List Byte) (u : State) =>
        (x.buffer = true → u.mem = s.mem ∧ ∀ j, j < n → lo + j < 16384 → SMap.get 0 u.sec.msg (lo + j) = bs.getD j 0) ∧
        (x.buffer = false → (∀ y, ¬ (lo ≤ y ∧ y < lo + n) → u.peek y = s.peek y) ∧
          ((∀ y, lo ≤ y → y < lo + n → ∃ k, s.lineState y = .plain k) → u.peekN lo n = bs))
      let held := if x.buffer then s.msgBytes lo n else s.peekN lo n
      let does := fun (P : State → Prop) => Completes (.hostXferChunk data) s P
      (x.stop = true → does (fun u => ends eState u ∧ u.mem = s.mem)) ∧
      (x.stop = false →
        (x.form % 2 = 0 → data.length ≠ n + (if 2 ≤ x.form then 16 else 0) → does (· = s)) ∧
        (x.form = 0 → data.length = n → s.ckpt.run = none → does (fun u => moved u ∧ put data u)) ∧
        (x.form = 1 → does (fun u => moved u ∧ wrote held u)) ∧
        (x.form = 2 → data.length = n + 16 → s.ckpt.run = none →
          (∀ text, gcmOpen s.sec.kt (s.chunkNonce x) [] data = some text → text.length = n →
            does (fun u => moved u ∧ put text u)) ∧
          (gcmOpen s.sec.kt (s.chunkNonce x) [] data = none → does (fun u => ends eSig u ∧ u.mem = s.mem))) ∧
        (x.form = 3 → does (fun u => moved u ∧ wrote (gcmSeal s.sec.kn (s.chunkNonce x) [] held) u)))

/-! ### Management and test access (chapter 20) -/

/-- MCTP control, PLDM and the SMBus alert response, and the TAP: identification, bypass, boundary scan and the debug bridge. The model's
own choices in it: log entries 3, 19, 55, 56, 57, 82. -/
def Obligations.ManagementAndTap : Prop :=
  ∀ (s : State) (op : BitVec 2) (eid typ : BitVec 8) (handle : BitVec 32) (sensor : BitVec 16) (dr : List Bool) (a : BitVec 44) (v : Word),
    let sent := fun (m : OutMsg) (u : State) => u = { s with out := s.out ++ [m] }
    let control := fun (cmd : Nat) (body : List Byte) => sent (.mctp 0 (bytesLE 1 cmd ++ bytesLE 1 ccSuccess ++ body))
    let pldm := fun (c : Instr) (cmd : Nat) (body : List Byte) =>
      (s.down 5 = false → Completes c s (sent (.mctp 1 (bytesLE 1 cmd ++ bytesLE 1 ccSuccess ++ body)))) ∧
      (s.down 5 = true → Completes c s (sent (.mctp 1 (bytesLE 1 cmd ++ bytesLE 1 ccNotReady))))
    let ir := OutMsg.tdo (bitList 8 1)
    let through := fun (code : Nat) (captured : List Bool) (u : State) =>
      u = { s with tap := { s.tap with ir := code }, out := s.out ++ [ir, .tdo ((captured ++ dr).take dr.length)] }
    let taken := fun (code : Nat) (u : State) => u.boot.held = true ∧ u.tap.ir = code ∧
      (s.boot.held = false → u.job = none ∧ u.boot.needFall = true)
    let scanned := fun (code : Nat) (u : State) => u.tap.ir = code ∧ ∃ bits, u.out = s.out ++ [ir, .tdo bits] ∧
      bits.length = dr.length ∧ u.tap.scan.length = 107 ∧
      ∀ c, c < 75 → c % 3 = 0 → c < dr.length → ∀ b, s.landLevel (c / 3) = some b → bits[c]? = some b
    let bridge := s.bridgePresent = true ∧ s.boot.held = false ∧ s.domainUp tyDbg 0 = true
    let clocked := s.addrRuns a.toNat = true
    let hbm := inRegWin a.toNat 1 = false ∧ a.toNat % 8 = 0 ∧ clocked
    (s.smbusUp = true →
      (op.toNat ≤ 1 → eid ≠ 0 → eid ≠ 0xFF → Completes (.setEndpointId op eid) s (fun u =>
        u = { s with mgmt := { s.mgmt with eid := eid.toNat }, out := u.out } ∧ u.out.length = s.out.length + 1)) ∧
      (op.toNat ≤ 1 → eid = 0 ∨ eid = 0xFF →
        Completes (.setEndpointId op eid) s (sent (.mctp 0 (bytesLE 1 1 ++ bytesLE 1 ccInvalid)))) ∧
      (2 ≤ op.toNat → Completes (.setEndpointId op eid) s (control 1 (bytesLE 1 s.mgmt.eid))) ∧
      Completes .getEndpointId s (control 2 (bytesLE 1 s.mgmt.eid)) ∧
      Completes (.getMctpVersionSupport typ) s (control 4 (Config.mgmtAnswer 0 4 typ.toNat)) ∧
      Completes .getMessageTypeSupport s (control 5 [1, 1]) ∧
      pldm .getTid 0x02 (Config.mgmtAnswer 1 0x02 0) ∧ pldm (.getPldmVersion typ) 0x03 (Config.mgmtAnswer 1 0x03 typ.toNat) ∧
      pldm .getPldmTypes 0x04 (bytesLE 8 5) ∧ pldm (.getPldmCommands typ) 0x05
        (if typ = 0 then bytesLE 32 (2 ^ 0x02 + 2 ^ 0x03 + 2 ^ 0x04 + 2 ^ 0x05)
         else if typ = 2 then bytesLE 32 (2 ^ 0x0B + 2 ^ 0x11 + 2 ^ 0x50 + 2 ^ 0x51) else Config.mgmtAnswer 1 0x05 typ.toNat) ∧
      pldm .getPdrRepositoryInfo 0x50 (Config.mgmtAnswer 1 0x50 0) ∧ pldm (.getPdr handle) 0x51 (Config.mgmtAnswer 1 0x51 handle.toNat) ∧
      (∀ x, s.sensorReading sensor.toNat = some x → pldm (.getSensorReading sensor) 0x11 (bytesLE 4 (BitVec.ofInt 32 x).toNat)) ∧
      (s.sensorReading sensor.toNat = none → pldm (.getSensorReading sensor) 0x11 (Config.mgmtAnswer 1 0x11 sensor.toNat)) ∧
      (s.mgmt.events = [] → pldm .pollForPlatformEventMessage 0x0B []) ∧
      (∀ k x y rest, s.mgmt.events = (k, x, y) :: rest → s.down 5 = false →
        Completes .pollForPlatformEventMessage s (fun u => u.mgmt.events = rest ∧ u.pins.smbAlertN = rest.isEmpty ∧
          u.out = s.out ++ [.mctp 1 (bytesLE 1 0x0B ++ bytesLE 1 ccSuccess ++ (bytesLE 2 k ++ bytesLE 1 x ++ bytesLE 1 y))])) ∧
      (s.pins.smbAlertN = false → Completes .smbusAlertResponse s (sent (.alertResponse s.boot.smbAddr)))) ∧
    Completes (.tapIdcode dr) s (through 1 (bitList 32 0x148161E3)) ∧ Completes (.tapBypass dr) s (through 0xFF [false]) ∧
    Completes (.tapClamp dr) s (taken 3) ∧ Completes (.tapHighz dr) s (taken 4) ∧
    Completes (.tapSamplePreload dr) s (scanned 2) ∧ Completes (.tapExtest dr) s (fun u => scanned 0 u ∧ taken 0 u) ∧
    Completes (.tapExtestPulse dr) s (fun u => scanned 5 u ∧ taken 5 u) ∧
    Completes (.tapExtestTrain dr) s (fun u => scanned 6 u ∧ taken 6 u) ∧
    Completes .tapReset s (fun u => u = { s with tap := { s.tap with ir := 1 } }) ∧
    (bridge → hbm → s.bridgeMemErr false a.toNat = eNone → Completes (.dbgBridgeRead a) s (fun u => u.mem = s.mem ∧
      u.tap.done_ = true ∧ u.tap.err = false ∧ u.tap.data = s.numAt a.toNat 8)) ∧
    (bridge → hbm → s.bridgeMemErr true a.toNat = eNone → (∃ k, s.lineState a.toNat = .plain k) → s.ckpt.run = none →
      Completes (.dbgBridgeWrite a v) s (fun u => storedAt a.toNat 8 v.toNat s u ∧ u.tap.done_ = true ∧ u.tap.err = false)) ∧
    (bridge → inRegWin a.toNat 1 = false → ¬ clocked →
      Completes (.dbgBridgeRead a) s (fun u => u.mem = s.mem ∧ u.tap.done_ = false ∧ u.tap.err = false) ∧
      Completes (.dbgBridgeWrite a v) s (fun u => u.mem = s.mem ∧ u.tap.done_ = false ∧ u.tap.err = false)) ∧
    (bridge → inRegWin a.toNat 1 = false → clocked → a.toNat % 8 ≠ 0 →
      Completes (.dbgBridgeRead a) s (fun u => u.mem = s.mem ∧ u.tap.err = true ∧ u.hdr tyNode 0 hErrCode = eRange) ∧
      Completes (.dbgBridgeWrite a v) s (fun u => u.mem = s.mem ∧ u.tap.err = true ∧ u.hdr tyNode 0 hErrCode = eRange)) ∧
    (s.bridgePresent = false →
      Completes (.dbgBridgeRead a) s (fun u => u.tap = { s.tap with ir := 0x10 } ∧ u.mem = s.mem ∧ u.regs = s.regs) ∧
      Completes (.dbgBridgeWrite a v) s (fun u => u.tap = { s.tap with ir := 0x10 } ∧ u.mem = s.mem ∧ u.regs = s.regs))
end

