-- ==== Sys2Proof/Laws/Keep.lean ====
section
/-!
SUPPORT. What every operation of the machine keeps: the queue of waiting commands, and the canonical form of local memory. One
lemma for each operation follows in the files Laws/Keep*.lean; these are the rules they are built from.
-/

namespace Sys2Proof.Machine

theorem SMap.wfAbove_mono {α : Type} [DecidableEq α] {d : Nat → α} {m : SMap α} {lo lo' : Nat} (h : lo' ≤ lo)
    (hm : SMap.wfAbove d lo m = true) : SMap.wfAbove d lo' m = true := by
  cases m with
  | nil => rfl
  | cons e m =>
    simp only [SMap.wfAbove, Bool.and_eq_true, decide_eq_true_eq] at hm ⊢
    exact ⟨⟨by omega, hm.1.2⟩, hm.2⟩

theorem SMap.wfAbove_filter {α : Type} [DecidableEq α] {d : Nat → α} {m : SMap α} {lo : Nat} (f : Nat × α → Bool)
    (hm : SMap.wfAbove d lo m = true) : SMap.wfAbove d lo (m.filter f) = true := by
  induction m generalizing lo with
  | nil => rfl
  | cons e m ih =>
    simp only [SMap.wfAbove, Bool.and_eq_true, decide_eq_true_eq] at hm
    rw [List.filter_cons]
    split
    · simp only [SMap.wfAbove, Bool.and_eq_true, decide_eq_true_eq]; exact ⟨hm.1, ih hm.2⟩
    · exact SMap.wfAbove_mono (by omega) (ih hm.2)

/-- Dropping entries keeps the canonical form. -/
theorem SMap.wf_filter {α : Type} [DecidableEq α] {d : Nat → α} {m : SMap α} (f : Nat × α → Bool) (hm : SMap.wf d m = true) :
    SMap.wf d (m.filter f) = true := SMap.wfAbove_filter f hm

theorem SMap.wfAbove_put {α : Type} [DecidableEq α] {d : α} {m : SMap α} {lo k : Nat} {v : α} (hk : lo ≤ k) (hv : v ≠ d)
    (hm : SMap.wfAbove (fun _ => d) lo m = true) : SMap.wfAbove (fun _ => d) lo (SMap.put m k v) = true := by
  induction m generalizing lo with
  | nil => simp [SMap.put, SMap.wfAbove, hk, hv]
  | cons e m ih =>
    obtain ⟨k', v'⟩ := e
    simp only [SMap.wfAbove, Bool.and_eq_true, decide_eq_true_eq] at hm
    unfold SMap.put
    split
    · next h => simp only [SMap.wfAbove, Bool.and_eq_true, decide_eq_true_eq]; exact ⟨hm.1, ih h hm.2⟩
    · split
      · next h1 h2 =>
        simp only [SMap.wfAbove, Bool.and_eq_true, decide_eq_true_eq]
        exact ⟨⟨hk, hv⟩, h2 ▸ hm.2⟩
      · next h1 h2 =>
        simp only [SMap.wfAbove, Bool.and_eq_true, decide_eq_true_eq]
        exact ⟨⟨hk, hv⟩, ⟨by omega, hm.1.2⟩, hm.2⟩

/-- A write keeps the canonical form. -/
theorem SMap.wf_set {α : Type} [DecidableEq α] {d : α} {m : SMap α} {k : Nat} (v : α) (hm : SMap.wf (fun _ => d) m = true) :
    SMap.wf (fun _ => d) (SMap.set d m k v) = true := by
  unfold SMap.set
  split
  · exact SMap.wf_filter _ hm
  · next hv => exact SMap.wfAbove_put (Nat.zero_le k) hv hm

/-- A key reads what was last written to it. -/
@[simp] theorem SMap.get_set_same {α : Type} [DecidableEq α] (d : α) (m : SMap α) (k : Nat) (v : α) :
    SMap.get d (SMap.set d m k v) k = v := by
  unfold SMap.set
  split
  · next hv =>
    subst hv
    induction m with
    | nil => rfl
    | cons e m ih =>
      rw [List.filter_cons]
      split
      · next h => simp only [SMap.get]; rw [if_neg (by simpa using h)]; exact ih
      · exact ih
  · induction m with
    | nil => simp [SMap.put, SMap.get]
    | cons e m ih =>
      unfold SMap.put
      split
      · next h => simp only [SMap.get]; rw [if_neg (by omega)]; exact ih
      · split <;> simp [SMap.get]

/-- A write leaves every other key alone. -/
theorem SMap.get_set_ne {α : Type} [DecidableEq α] (d d' : α) (m : SMap α) {k j : Nat} (v : α) (h : j ≠ k) :
    SMap.get d' (SMap.set d m k v) j = SMap.get d' m j := by
  unfold SMap.set
  split
  · induction m with
    | nil => rfl
    | cons e m ih =>
      rw [List.filter_cons]
      split
      · simp only [SMap.get]; rw [ih]
      · next hk =>
        rw [ih]; simp only [SMap.get]; rw [if_neg]; intro he; apply h; rw [← he]; simpa using hk
  · induction m with
    | nil => simp only [SMap.put, SMap.get]; rw [if_neg (by omega)]
    | cons e m ih =>
      unfold SMap.put
      split
      · simp only [SMap.get]; rw [ih]
      · split
        · next h1 h2 => simp only [SMap.get]; rw [if_neg (by omega), if_neg (by omega)]
        · simp only [SMap.get]; rw [if_neg (by omega)]

/-- What any key reads after a write. -/
theorem SMap.get_set {α : Type} [DecidableEq α] (d : α) (m : SMap α) (k j : Nat) (v : α) :
    SMap.get d (SMap.set d m k v) j = if j = k then v else SMap.get d m j := by
  split
  · next h => subst h; simp
  · next h => exact SMap.get_set_ne d d m v h

/-- The queue is `p`; and where `b` holds, local memory is in its canonical form. -/
def State.Keeps (p : List Instr) (b : Bool) (t : State) : Prop := t.pending = p ∧ (b = true → Memory.wf t.mem)

/-- The outcome is a next state, and that state keeps queue and memory. -/
def GoesKeeping (p : List Instr) (b : Bool) (o : Outcome) : Prop := ∃ t, o = .next t ∧ t.Keeps p b

variable {p : List Instr} {b : Bool}

theorem goes_next {t : State} (h : t.Keeps p b) : GoesKeeping p b (.next t) := ⟨t, rfl, h⟩

/-- A record update that leaves queue and memory alone. -/
theorem keeps_mk {t : State} (h : t.Keeps p b) {out now fresh regs lineKey dir poison flash job threads tiles vecs solvEngs factors asms msa
    fxp piaz cal age sec power pins sched ckpt hbr sw ports boot fws fwLoad mgmt tap log tele} :
    (State.mk t.pending out now fresh regs t.mem lineKey dir poison flash job threads tiles vecs solvEngs factors asms msa fxp piaz cal age
      sec power pins sched ckpt hbr sw ports boot fws fwLoad mgmt tap log tele).Keeps p b := h

theorem keeps_foldl {α : Type} {l : List α} {f : State → α → State} {s : State} (h : s.Keeps p b)
    (hf : ∀ t a, t.Keeps p b → (f t a).Keeps p b) : (l.foldl f s).Keeps p b := by
  induction l generalizing s with
  | nil => exact h
  | cons a l ih => exact ih (hf s a h)

theorem keeps_foldl_fst {α β : Type} {l : List α} {f : State × β → α → State × β} {s : State × β} (h : s.1.Keeps p b)
    (hf : ∀ t a, t.1.Keeps p b → (f t a).1.Keeps p b) : (l.foldl f s).1.Keeps p b := by
  induction l generalizing s with
  | nil => exact h
  | cons a l ih => exact ih (hf s a h)

theorem keeps_foldl_snd {α β : Type} {l : List α} {f : β × State → α → β × State} {s : β × State} (h : s.2.Keeps p b)
    (hf : ∀ t a, t.2.Keeps p b → (f t a).2.Keeps p b) : (l.foldl f s).2.Keeps p b := by
  induction l generalizing s with
  | nil => exact h
  | cons a l ih => exact ih (hf s a h)

theorem keeps_ite {c : Prop} [Decidable c] {x y : State} (hx : x.Keeps p b) (hy : y.Keeps p b) : (if c then x else y).Keeps p b := by
  split <;> assumption

theorem keeps_ite_fst {α : Type} {c : Prop} [Decidable c] {x y : State × α} (hx : x.1.Keeps p b) (hy : y.1.Keeps p b) :
    (if c then x else y).1.Keeps p b := by
  split <;> assumption

theorem keeps_ite_snd {α : Type} {c : Prop} [Decidable c] {x y : α × State} (hx : x.2.Keeps p b) (hy : y.2.Keeps p b) :
    (if c then x else y).2.Keeps p b := by
  split <;> assumption

theorem keeps_ite_mid {α β : Type} {c : Prop} [Decidable c] {x y : α × State × β} (hx : x.2.1.Keeps p b) (hy : y.2.1.Keeps p b) :
    (if c then x else y).2.1.Keeps p b := by
  split <;> assumption

theorem goes_ite {c : Prop} [Decidable c] {x y : Outcome} (hx : GoesKeeping p b x) (hy : GoesKeeping p b y) :
    GoesKeeping p b (if c then x else y) := by
  split <;> assumption

theorem pair_eq {α β : Type} {e : α × β} {x : α} {y : β} (h : e = (x, y)) : x = e.1 ∧ y = e.2 := by
  cases h; exact ⟨rfl, rfl⟩

theorem triple_eq {α β γ : Type} {e : α × β × γ} {x : α} {y : β} {z : γ} (h : e = (x, y, z)) : x = e.1 ∧ y = e.2.1 ∧ z = e.2.2 := by
  cases h; exact ⟨rfl, rfl, rfl⟩

theorem keeps_getD {o : Option State} {s : State} (ho : ∀ t, o = some t → t.Keeps p b) (h : s.Keeps p b) : (o.getD s).Keeps p b := by
  cases o with
  | none => exact h
  | some t => exact ho t rfl

end Sys2Proof.Machine
end

