-- ==== Sys2Proof/Laws/State.lean ====
section
/-!
SUPPORT. What each plain update of the state leaves alone, one lemma a field, and what a register, a thread or a byte reads after
a write.
-/

namespace Sys2Proof.Machine

variable (s : State)

/-! ### Registers -/

/-- A word of the register file reads what was written to it. -/
@[simp] theorem State.regGet_regSet_same (k : Nat) (v : Word) : (s.regSet k v).regGet k = v := SMap.get_set_same _ _ _ _

/-- Writing one word of the register file leaves every other word alone. -/
theorem State.regGet_regSet_ne {k j : Nat} (v : Word) (h : j ≠ k) : (s.regSet k v).regGet j = s.regGet j :=
  SMap.get_set_ne _ _ _ _ h

/-- What a word of the register file reads after a write. -/
theorem State.regGet_regSet (k j : Nat) (v : Word) : (s.regSet k v).regGet j = if j = k then v else s.regGet j := by
  split
  · next h => subst h; exact s.regGet_regSet_same _ _
  · next h => exact s.regGet_regSet_ne v h

/-- What a register reads after a write to a register. -/
theorem State.rd_wr (r r' : Reg) (v i o i' o' : Nat) : (s.wr r v i o).rd r' i' o' =
    if regKey r'.ty i' (r'.off + o') = regKey r.ty i (r.off + o) then v % 2 ^ 64 else s.rd r' i' o' := by
  unfold State.rd State.wr
  rw [State.regGet_regSet]
  split <;> simp

/-- A register reads what was written to it, to 64 bits. -/
@[simp] theorem State.rd_wr_same (r : Reg) (v i o : Nat) : (s.wr r v i o).rd r i o = v % 2 ^ 64 := by
  rw [State.rd_wr, if_pos rfl]

/-- A register at another key is left alone. -/
theorem State.rd_wr_ne {r r' : Reg} {i o i' o' : Nat} (v : Nat)
    (h : regKey r'.ty i' (r'.off + o') ≠ regKey r.ty i (r.off + o)) : (s.wr r v i o).rd r' i' o' = s.rd r' i' o' := by
  rw [State.rd_wr, if_neg h]

/-- Keys of the register file are one to one. -/
theorem regKey_inj {ty i o ty' i' o' : Nat} (hi : i < 512) (hi' : i' < 512) (ho : o < 4096) (ho' : o' < 4096) :
    regKey ty i o = regKey ty' i' o' ↔ ty = ty' ∧ i = i' ∧ o = o' := by
  unfold regKey
  constructor
  · intro h; omega
  · rintro ⟨rfl, rfl, rfl⟩; rfl

/-! ### Threads and bytes -/

/-- A thread reads what was written to it. -/
@[simp] theorem State.thread_setThread_same (t : Nat) (th : Thread) : (s.setThread t th).thread t = th :=
  SMap.get_set_same _ _ _ _

/-- Writing a thread leaves every other thread alone. -/
theorem State.thread_setThread_ne {t k : Nat} (th : Thread) (h : k ≠ t) : (s.setThread t th).thread k = s.thread k :=
  SMap.get_set_ne _ _ _ _ h

@[simp] theorem State.thread_onThread_same (t : Nat) (f : Thread → Thread) : (s.onThread t f).thread t = f (s.thread t) :=
  s.thread_setThread_same t _

theorem State.thread_onThread_ne {t k : Nat} (f : Thread → Thread) (h : k ≠ t) : (s.onThread t f).thread k = s.thread k :=
  s.thread_setThread_ne _ h

@[simp] theorem State.thread_threadDo_same (t : Nat) (f : Thread → Thread) : (s.threadDo t f).thread t = (f (s.thread t)).step :=
  s.thread_setThread_same t _

theorem State.thread_threadDo_ne {t k : Nat} (f : Thread → Thread) (h : k ≠ t) : (s.threadDo t f).thread k = s.thread k :=
  s.thread_setThread_ne _ h

/-- What a stored byte is after a raw write. -/
theorem State.mem_pokeRaw (a b : Nat) (v : Byte) :
    SMap.get 0#8 (s.pokeRaw a v).mem b = if b = a then v else SMap.get 0#8 s.mem b := SMap.get_set _ _ _ _ _

/-! ### Registers of a thread -/

@[simp] theorem Thread.getX_setX_same (th : Thread) (r : BitVec 5) (v : Word) : (th.setX r v).getX r = v := SMap.get_set_same _ _ _ _

theorem Thread.getX_setX_ne (th : Thread) {r q : BitVec 5} (v : Word) (h : q ≠ r) : (th.setX r v).getX q = th.getX q :=
  SMap.get_set_ne _ _ _ _ fun e => h (BitVec.eq_of_toNat_eq e)

@[simp] theorem Thread.getW_setW_same (th : Thread) (r : BitVec 5) (v : Wide) : (th.setW r v).getW r = v := SMap.get_set_same _ _ _ _

theorem Thread.getW_setW_ne (th : Thread) {r q : BitVec 5} (v : Wide) (h : q ≠ r) : (th.setW r v).getW q = th.getW q :=
  SMap.get_set_ne _ _ _ _ fun e => h (BitVec.eq_of_toNat_eq e)

@[simp] theorem Thread.getK_setK_same (th : Thread) (r : Nat) (v : Word) : (th.setK r v).getK r = v := SMap.get_set_same _ _ _ _

theorem Thread.getK_setK_ne (th : Thread) {r q : Nat} (v : Word) (h : q ≠ r) : (th.setK r v).getK q = th.getK q :=
  SMap.get_set_ne _ _ _ _ h

/-! ### What each update leaves alone -/

@[simp] theorem State.pending_regSet (k : Nat) (v : Word) : (s.regSet k v).pending = s.pending := rfl
@[simp] theorem State.out_regSet (k : Nat) (v : Word) : (s.regSet k v).out = s.out := rfl
@[simp] theorem State.now_regSet (k : Nat) (v : Word) : (s.regSet k v).now = s.now := rfl
@[simp] theorem State.fresh_regSet (k : Nat) (v : Word) : (s.regSet k v).fresh = s.fresh := rfl
@[simp] theorem State.mem_regSet (k : Nat) (v : Word) : (s.regSet k v).mem = s.mem := rfl
@[simp] theorem State.lineKey_regSet (k : Nat) (v : Word) : (s.regSet k v).lineKey = s.lineKey := rfl
@[simp] theorem State.dir_regSet (k : Nat) (v : Word) : (s.regSet k v).dir = s.dir := rfl
@[simp] theorem State.poison_regSet (k : Nat) (v : Word) : (s.regSet k v).poison = s.poison := rfl
@[simp] theorem State.flash_regSet (k : Nat) (v : Word) : (s.regSet k v).flash = s.flash := rfl
@[simp] theorem State.job_regSet (k : Nat) (v : Word) : (s.regSet k v).job = s.job := rfl
@[simp] theorem State.threads_regSet (k : Nat) (v : Word) : (s.regSet k v).threads = s.threads := rfl
@[simp] theorem State.tiles_regSet (k : Nat) (v : Word) : (s.regSet k v).tiles = s.tiles := rfl
@[simp] theorem State.vecs_regSet (k : Nat) (v : Word) : (s.regSet k v).vecs = s.vecs := rfl
@[simp] theorem State.solvEngs_regSet (k : Nat) (v : Word) : (s.regSet k v).solvEngs = s.solvEngs := rfl
@[simp] theorem State.factors_regSet (k : Nat) (v : Word) : (s.regSet k v).factors = s.factors := rfl
@[simp] theorem State.asms_regSet (k : Nat) (v : Word) : (s.regSet k v).asms = s.asms := rfl
@[simp] theorem State.msa_regSet (k : Nat) (v : Word) : (s.regSet k v).msa = s.msa := rfl
@[simp] theorem State.fxp_regSet (k : Nat) (v : Word) : (s.regSet k v).fxp = s.fxp := rfl
@[simp] theorem State.piaz_regSet (k : Nat) (v : Word) : (s.regSet k v).piaz = s.piaz := rfl
@[simp] theorem State.cal_regSet (k : Nat) (v : Word) : (s.regSet k v).cal = s.cal := rfl
@[simp] theorem State.age_regSet (k : Nat) (v : Word) : (s.regSet k v).age = s.age := rfl
@[simp] theorem State.sec_regSet (k : Nat) (v : Word) : (s.regSet k v).sec = s.sec := rfl
@[simp] theorem State.power_regSet (k : Nat) (v : Word) : (s.regSet k v).power = s.power := rfl
@[simp] theorem State.pins_regSet (k : Nat) (v : Word) : (s.regSet k v).pins = s.pins := rfl
@[simp] theorem State.sched_regSet (k : Nat) (v : Word) : (s.regSet k v).sched = s.sched := rfl
@[simp] theorem State.ckpt_regSet (k : Nat) (v : Word) : (s.regSet k v).ckpt = s.ckpt := rfl
@[simp] theorem State.hbr_regSet (k : Nat) (v : Word) : (s.regSet k v).hbr = s.hbr := rfl
@[simp] theorem State.sw_regSet (k : Nat) (v : Word) : (s.regSet k v).sw = s.sw := rfl
@[simp] theorem State.ports_regSet (k : Nat) (v : Word) : (s.regSet k v).ports = s.ports := rfl
@[simp] theorem State.boot_regSet (k : Nat) (v : Word) : (s.regSet k v).boot = s.boot := rfl
@[simp] theorem State.fws_regSet (k : Nat) (v : Word) : (s.regSet k v).fws = s.fws := rfl
@[simp] theorem State.fwLoad_regSet (k : Nat) (v : Word) : (s.regSet k v).fwLoad = s.fwLoad := rfl
@[simp] theorem State.mgmt_regSet (k : Nat) (v : Word) : (s.regSet k v).mgmt = s.mgmt := rfl
@[simp] theorem State.tap_regSet (k : Nat) (v : Word) : (s.regSet k v).tap = s.tap := rfl
@[simp] theorem State.log_regSet (k : Nat) (v : Word) : (s.regSet k v).log = s.log := rfl
@[simp] theorem State.tele_regSet (k : Nat) (v : Word) : (s.regSet k v).tele = s.tele := rfl

@[simp] theorem State.pending_setHdr (ty i o v : Nat) : (s.setHdr ty i o v).pending = s.pending := rfl
@[simp] theorem State.out_setHdr (ty i o v : Nat) : (s.setHdr ty i o v).out = s.out := rfl
@[simp] theorem State.now_setHdr (ty i o v : Nat) : (s.setHdr ty i o v).now = s.now := rfl
@[simp] theorem State.fresh_setHdr (ty i o v : Nat) : (s.setHdr ty i o v).fresh = s.fresh := rfl
@[simp] theorem State.mem_setHdr (ty i o v : Nat) : (s.setHdr ty i o v).mem = s.mem := rfl
@[simp] theorem State.lineKey_setHdr (ty i o v : Nat) : (s.setHdr ty i o v).lineKey = s.lineKey := rfl
@[simp] theorem State.dir_setHdr (ty i o v : Nat) : (s.setHdr ty i o v).dir = s.dir := rfl
@[simp] theorem State.poison_setHdr (ty i o v : Nat) : (s.setHdr ty i o v).poison = s.poison := rfl
@[simp] theorem State.flash_setHdr (ty i o v : Nat) : (s.setHdr ty i o v).flash = s.flash := rfl
@[simp] theorem State.job_setHdr (ty i o v : Nat) : (s.setHdr ty i o v).job = s.job := rfl
@[simp] theorem State.threads_setHdr (ty i o v : Nat) : (s.setHdr ty i o v).threads = s.threads := rfl
@[simp] theorem State.tiles_setHdr (ty i o v : Nat) : (s.setHdr ty i o v).tiles = s.tiles := rfl
@[simp] theorem State.vecs_setHdr (ty i o v : Nat) : (s.setHdr ty i o v).vecs = s.vecs := rfl
@[simp] theorem State.solvEngs_setHdr (ty i o v : Nat) : (s.setHdr ty i o v).solvEngs = s.solvEngs := rfl
@[simp] theorem State.factors_setHdr (ty i o v : Nat) : (s.setHdr ty i o v).factors = s.factors := rfl
@[simp] theorem State.asms_setHdr (ty i o v : Nat) : (s.setHdr ty i o v).asms = s.asms := rfl
@[simp] theorem State.msa_setHdr (ty i o v : Nat) : (s.setHdr ty i o v).msa = s.msa := rfl
@[simp] theorem State.fxp_setHdr (ty i o v : Nat) : (s.setHdr ty i o v).fxp = s.fxp := rfl
@[simp] theorem State.piaz_setHdr (ty i o v : Nat) : (s.setHdr ty i o v).piaz = s.piaz := rfl
@[simp] theorem State.cal_setHdr (ty i o v : Nat) : (s.setHdr ty i o v).cal = s.cal := rfl
@[simp] theorem State.age_setHdr (ty i o v : Nat) : (s.setHdr ty i o v).age = s.age := rfl
@[simp] theorem State.sec_setHdr (ty i o v : Nat) : (s.setHdr ty i o v).sec = s.sec := rfl
@[simp] theorem State.power_setHdr (ty i o v : Nat) : (s.setHdr ty i o v).power = s.power := rfl
@[simp] theorem State.pins_setHdr (ty i o v : Nat) : (s.setHdr ty i o v).pins = s.pins := rfl
@[simp] theorem State.sched_setHdr (ty i o v : Nat) : (s.setHdr ty i o v).sched = s.sched := rfl
@[simp] theorem State.ckpt_setHdr (ty i o v : Nat) : (s.setHdr ty i o v).ckpt = s.ckpt := rfl
@[simp] theorem State.hbr_setHdr (ty i o v : Nat) : (s.setHdr ty i o v).hbr = s.hbr := rfl
@[simp] theorem State.sw_setHdr (ty i o v : Nat) : (s.setHdr ty i o v).sw = s.sw := rfl
@[simp] theorem State.ports_setHdr (ty i o v : Nat) : (s.setHdr ty i o v).ports = s.ports := rfl
@[simp] theorem State.boot_setHdr (ty i o v : Nat) : (s.setHdr ty i o v).boot = s.boot := rfl
@[simp] theorem State.fws_setHdr (ty i o v : Nat) : (s.setHdr ty i o v).fws = s.fws := rfl
@[simp] theorem State.fwLoad_setHdr (ty i o v : Nat) : (s.setHdr ty i o v).fwLoad = s.fwLoad := rfl
@[simp] theorem State.mgmt_setHdr (ty i o v : Nat) : (s.setHdr ty i o v).mgmt = s.mgmt := rfl
@[simp] theorem State.tap_setHdr (ty i o v : Nat) : (s.setHdr ty i o v).tap = s.tap := rfl
@[simp] theorem State.log_setHdr (ty i o v : Nat) : (s.setHdr ty i o v).log = s.log := rfl
@[simp] theorem State.tele_setHdr (ty i o v : Nat) : (s.setHdr ty i o v).tele = s.tele := rfl

@[simp] theorem State.pending_wr (r : Reg) (v i o : Nat) : (s.wr r v i o).pending = s.pending := rfl
@[simp] theorem State.out_wr (r : Reg) (v i o : Nat) : (s.wr r v i o).out = s.out := rfl
@[simp] theorem State.now_wr (r : Reg) (v i o : Nat) : (s.wr r v i o).now = s.now := rfl
@[simp] theorem State.fresh_wr (r : Reg) (v i o : Nat) : (s.wr r v i o).fresh = s.fresh := rfl
@[simp] theorem State.mem_wr (r : Reg) (v i o : Nat) : (s.wr r v i o).mem = s.mem := rfl
@[simp] theorem State.lineKey_wr (r : Reg) (v i o : Nat) : (s.wr r v i o).lineKey = s.lineKey := rfl
@[simp] theorem State.dir_wr (r : Reg) (v i o : Nat) : (s.wr r v i o).dir = s.dir := rfl
@[simp] theorem State.poison_wr (r : Reg) (v i o : Nat) : (s.wr r v i o).poison = s.poison := rfl
@[simp] theorem State.flash_wr (r : Reg) (v i o : Nat) : (s.wr r v i o).flash = s.flash := rfl
@[simp] theorem State.job_wr (r : Reg) (v i o : Nat) : (s.wr r v i o).job = s.job := rfl
@[simp] theorem State.threads_wr (r : Reg) (v i o : Nat) : (s.wr r v i o).threads = s.threads := rfl
@[simp] theorem State.tiles_wr (r : Reg) (v i o : Nat) : (s.wr r v i o).tiles = s.tiles := rfl
@[simp] theorem State.vecs_wr (r : Reg) (v i o : Nat) : (s.wr r v i o).vecs = s.vecs := rfl
@[simp] theorem State.solvEngs_wr (r : Reg) (v i o : Nat) : (s.wr r v i o).solvEngs = s.solvEngs := rfl
@[simp] theorem State.factors_wr (r : Reg) (v i o : Nat) : (s.wr r v i o).factors = s.factors := rfl
@[simp] theorem State.asms_wr (r : Reg) (v i o : Nat) : (s.wr r v i o).asms = s.asms := rfl
@[simp] theorem State.msa_wr (r : Reg) (v i o : Nat) : (s.wr r v i o).msa = s.msa := rfl
@[simp] theorem State.fxp_wr (r : Reg) (v i o : Nat) : (s.wr r v i o).fxp = s.fxp := rfl
@[simp] theorem State.piaz_wr (r : Reg) (v i o : Nat) : (s.wr r v i o).piaz = s.piaz := rfl
@[simp] theorem State.cal_wr (r : Reg) (v i o : Nat) : (s.wr r v i o).cal = s.cal := rfl
@[simp] theorem State.age_wr (r : Reg) (v i o : Nat) : (s.wr r v i o).age = s.age := rfl
@[simp] theorem State.sec_wr (r : Reg) (v i o : Nat) : (s.wr r v i o).sec = s.sec := rfl
@[simp] theorem State.power_wr (r : Reg) (v i o : Nat) : (s.wr r v i o).power = s.power := rfl
@[simp] theorem State.pins_wr (r : Reg) (v i o : Nat) : (s.wr r v i o).pins = s.pins := rfl
@[simp] theorem State.sched_wr (r : Reg) (v i o : Nat) : (s.wr r v i o).sched = s.sched := rfl
@[simp] theorem State.ckpt_wr (r : Reg) (v i o : Nat) : (s.wr r v i o).ckpt = s.ckpt := rfl
@[simp] theorem State.hbr_wr (r : Reg) (v i o : Nat) : (s.wr r v i o).hbr = s.hbr := rfl
@[simp] theorem State.sw_wr (r : Reg) (v i o : Nat) : (s.wr r v i o).sw = s.sw := rfl
@[simp] theorem State.ports_wr (r : Reg) (v i o : Nat) : (s.wr r v i o).ports = s.ports := rfl
@[simp] theorem State.boot_wr (r : Reg) (v i o : Nat) : (s.wr r v i o).boot = s.boot := rfl
@[simp] theorem State.fws_wr (r : Reg) (v i o : Nat) : (s.wr r v i o).fws = s.fws := rfl
@[simp] theorem State.fwLoad_wr (r : Reg) (v i o : Nat) : (s.wr r v i o).fwLoad = s.fwLoad := rfl
@[simp] theorem State.mgmt_wr (r : Reg) (v i o : Nat) : (s.wr r v i o).mgmt = s.mgmt := rfl
@[simp] theorem State.tap_wr (r : Reg) (v i o : Nat) : (s.wr r v i o).tap = s.tap := rfl
@[simp] theorem State.log_wr (r : Reg) (v i o : Nat) : (s.wr r v i o).log = s.log := rfl
@[simp] theorem State.tele_wr (r : Reg) (v i o : Nat) : (s.wr r v i o).tele = s.tele := rfl

@[simp] theorem State.pending_setFld (r : Reg) (hi lo v i : Nat) : (s.setFld r hi lo v i).pending = s.pending := rfl
@[simp] theorem State.out_setFld (r : Reg) (hi lo v i : Nat) : (s.setFld r hi lo v i).out = s.out := rfl
@[simp] theorem State.now_setFld (r : Reg) (hi lo v i : Nat) : (s.setFld r hi lo v i).now = s.now := rfl
@[simp] theorem State.fresh_setFld (r : Reg) (hi lo v i : Nat) : (s.setFld r hi lo v i).fresh = s.fresh := rfl
@[simp] theorem State.mem_setFld (r : Reg) (hi lo v i : Nat) : (s.setFld r hi lo v i).mem = s.mem := rfl
@[simp] theorem State.lineKey_setFld (r : Reg) (hi lo v i : Nat) : (s.setFld r hi lo v i).lineKey = s.lineKey := rfl
@[simp] theorem State.dir_setFld (r : Reg) (hi lo v i : Nat) : (s.setFld r hi lo v i).dir = s.dir := rfl
@[simp] theorem State.poison_setFld (r : Reg) (hi lo v i : Nat) : (s.setFld r hi lo v i).poison = s.poison := rfl
@[simp] theorem State.flash_setFld (r : Reg) (hi lo v i : Nat) : (s.setFld r hi lo v i).flash = s.flash := rfl
@[simp] theorem State.job_setFld (r : Reg) (hi lo v i : Nat) : (s.setFld r hi lo v i).job = s.job := rfl
@[simp] theorem State.threads_setFld (r : Reg) (hi lo v i : Nat) : (s.setFld r hi lo v i).threads = s.threads := rfl
@[simp] theorem State.tiles_setFld (r : Reg) (hi lo v i : Nat) : (s.setFld r hi lo v i).tiles = s.tiles := rfl
@[simp] theorem State.vecs_setFld (r : Reg) (hi lo v i : Nat) : (s.setFld r hi lo v i).vecs = s.vecs := rfl
@[simp] theorem State.solvEngs_setFld (r : Reg) (hi lo v i : Nat) : (s.setFld r hi lo v i).solvEngs = s.solvEngs := rfl
@[simp] theorem State.factors_setFld (r : Reg) (hi lo v i : Nat) : (s.setFld r hi lo v i).factors = s.factors := rfl
@[simp] theorem State.asms_setFld (r : Reg) (hi lo v i : Nat) : (s.setFld r hi lo v i).asms = s.asms := rfl
@[simp] theorem State.msa_setFld (r : Reg) (hi lo v i : Nat) : (s.setFld r hi lo v i).msa = s.msa := rfl
@[simp] theorem State.fxp_setFld (r : Reg) (hi lo v i : Nat) : (s.setFld r hi lo v i).fxp = s.fxp := rfl
@[simp] theorem State.piaz_setFld (r : Reg) (hi lo v i : Nat) : (s.setFld r hi lo v i).piaz = s.piaz := rfl
@[simp] theorem State.cal_setFld (r : Reg) (hi lo v i : Nat) : (s.setFld r hi lo v i).cal = s.cal := rfl
@[simp] theorem State.age_setFld (r : Reg) (hi lo v i : Nat) : (s.setFld r hi lo v i).age = s.age := rfl
@[simp] theorem State.sec_setFld (r : Reg) (hi lo v i : Nat) : (s.setFld r hi lo v i).sec = s.sec := rfl
@[simp] theorem State.power_setFld (r : Reg) (hi lo v i : Nat) : (s.setFld r hi lo v i).power = s.power := rfl
@[simp] theorem State.pins_setFld (r : Reg) (hi lo v i : Nat) : (s.setFld r hi lo v i).pins = s.pins := rfl
@[simp] theorem State.sched_setFld (r : Reg) (hi lo v i : Nat) : (s.setFld r hi lo v i).sched = s.sched := rfl
@[simp] theorem State.ckpt_setFld (r : Reg) (hi lo v i : Nat) : (s.setFld r hi lo v i).ckpt = s.ckpt := rfl
@[simp] theorem State.hbr_setFld (r : Reg) (hi lo v i : Nat) : (s.setFld r hi lo v i).hbr = s.hbr := rfl
@[simp] theorem State.sw_setFld (r : Reg) (hi lo v i : Nat) : (s.setFld r hi lo v i).sw = s.sw := rfl
@[simp] theorem State.ports_setFld (r : Reg) (hi lo v i : Nat) : (s.setFld r hi lo v i).ports = s.ports := rfl
@[simp] theorem State.boot_setFld (r : Reg) (hi lo v i : Nat) : (s.setFld r hi lo v i).boot = s.boot := rfl
@[simp] theorem State.fws_setFld (r : Reg) (hi lo v i : Nat) : (s.setFld r hi lo v i).fws = s.fws := rfl
@[simp] theorem State.fwLoad_setFld (r : Reg) (hi lo v i : Nat) : (s.setFld r hi lo v i).fwLoad = s.fwLoad := rfl
@[simp] theorem State.mgmt_setFld (r : Reg) (hi lo v i : Nat) : (s.setFld r hi lo v i).mgmt = s.mgmt := rfl
@[simp] theorem State.tap_setFld (r : Reg) (hi lo v i : Nat) : (s.setFld r hi lo v i).tap = s.tap := rfl
@[simp] theorem State.log_setFld (r : Reg) (hi lo v i : Nat) : (s.setFld r hi lo v i).log = s.log := rfl
@[simp] theorem State.tele_setFld (r : Reg) (hi lo v i : Nat) : (s.setFld r hi lo v i).tele = s.tele := rfl

@[simp] theorem State.pending_setFlag (r : Reg) (b : Nat) (v : Bool) (i : Nat) : (s.setFlag r b v i).pending = s.pending := rfl
@[simp] theorem State.out_setFlag (r : Reg) (b : Nat) (v : Bool) (i : Nat) : (s.setFlag r b v i).out = s.out := rfl
@[simp] theorem State.now_setFlag (r : Reg) (b : Nat) (v : Bool) (i : Nat) : (s.setFlag r b v i).now = s.now := rfl
@[simp] theorem State.fresh_setFlag (r : Reg) (b : Nat) (v : Bool) (i : Nat) : (s.setFlag r b v i).fresh = s.fresh := rfl
@[simp] theorem State.mem_setFlag (r : Reg) (b : Nat) (v : Bool) (i : Nat) : (s.setFlag r b v i).mem = s.mem := rfl
@[simp] theorem State.lineKey_setFlag (r : Reg) (b : Nat) (v : Bool) (i : Nat) : (s.setFlag r b v i).lineKey = s.lineKey := rfl
@[simp] theorem State.dir_setFlag (r : Reg) (b : Nat) (v : Bool) (i : Nat) : (s.setFlag r b v i).dir = s.dir := rfl
@[simp] theorem State.poison_setFlag (r : Reg) (b : Nat) (v : Bool) (i : Nat) : (s.setFlag r b v i).poison = s.poison := rfl
@[simp] theorem State.flash_setFlag (r : Reg) (b : Nat) (v : Bool) (i : Nat) : (s.setFlag r b v i).flash = s.flash := rfl
@[simp] theorem State.job_setFlag (r : Reg) (b : Nat) (v : Bool) (i : Nat) : (s.setFlag r b v i).job = s.job := rfl
@[simp] theorem State.threads_setFlag (r : Reg) (b : Nat) (v : Bool) (i : Nat) : (s.setFlag r b v i).threads = s.threads := rfl
@[simp] theorem State.tiles_setFlag (r : Reg) (b : Nat) (v : Bool) (i : Nat) : (s.setFlag r b v i).tiles = s.tiles := rfl
@[simp] theorem State.vecs_setFlag (r : Reg) (b : Nat) (v : Bool) (i : Nat) : (s.setFlag r b v i).vecs = s.vecs := rfl
@[simp] theorem State.solvEngs_setFlag (r : Reg) (b : Nat) (v : Bool) (i : Nat) : (s.setFlag r b v i).solvEngs = s.solvEngs := rfl
@[simp] theorem State.factors_setFlag (r : Reg) (b : Nat) (v : Bool) (i : Nat) : (s.setFlag r b v i).factors = s.factors := rfl
@[simp] theorem State.asms_setFlag (r : Reg) (b : Nat) (v : Bool) (i : Nat) : (s.setFlag r b v i).asms = s.asms := rfl
@[simp] theorem State.msa_setFlag (r : Reg) (b : Nat) (v : Bool) (i : Nat) : (s.setFlag r b v i).msa = s.msa := rfl
@[simp] theorem State.fxp_setFlag (r : Reg) (b : Nat) (v : Bool) (i : Nat) : (s.setFlag r b v i).fxp = s.fxp := rfl
@[simp] theorem State.piaz_setFlag (r : Reg) (b : Nat) (v : Bool) (i : Nat) : (s.setFlag r b v i).piaz = s.piaz := rfl
@[simp] theorem State.cal_setFlag (r : Reg) (b : Nat) (v : Bool) (i : Nat) : (s.setFlag r b v i).cal = s.cal := rfl
@[simp] theorem State.age_setFlag (r : Reg) (b : Nat) (v : Bool) (i : Nat) : (s.setFlag r b v i).age = s.age := rfl
@[simp] theorem State.sec_setFlag (r : Reg) (b : Nat) (v : Bool) (i : Nat) : (s.setFlag r b v i).sec = s.sec := rfl
@[simp] theorem State.power_setFlag (r : Reg) (b : Nat) (v : Bool) (i : Nat) : (s.setFlag r b v i).power = s.power := rfl
@[simp] theorem State.pins_setFlag (r : Reg) (b : Nat) (v : Bool) (i : Nat) : (s.setFlag r b v i).pins = s.pins := rfl
@[simp] theorem State.sched_setFlag (r : Reg) (b : Nat) (v : Bool) (i : Nat) : (s.setFlag r b v i).sched = s.sched := rfl
@[simp] theorem State.ckpt_setFlag (r : Reg) (b : Nat) (v : Bool) (i : Nat) : (s.setFlag r b v i).ckpt = s.ckpt := rfl
@[simp] theorem State.hbr_setFlag (r : Reg) (b : Nat) (v : Bool) (i : Nat) : (s.setFlag r b v i).hbr = s.hbr := rfl
@[simp] theorem State.sw_setFlag (r : Reg) (b : Nat) (v : Bool) (i : Nat) : (s.setFlag r b v i).sw = s.sw := rfl
@[simp] theorem State.ports_setFlag (r : Reg) (b : Nat) (v : Bool) (i : Nat) : (s.setFlag r b v i).ports = s.ports := rfl
@[simp] theorem State.boot_setFlag (r : Reg) (b : Nat) (v : Bool) (i : Nat) : (s.setFlag r b v i).boot = s.boot := rfl
@[simp] theorem State.fws_setFlag (r : Reg) (b : Nat) (v : Bool) (i : Nat) : (s.setFlag r b v i).fws = s.fws := rfl
@[simp] theorem State.fwLoad_setFlag (r : Reg) (b : Nat) (v : Bool) (i : Nat) : (s.setFlag r b v i).fwLoad = s.fwLoad := rfl
@[simp] theorem State.mgmt_setFlag (r : Reg) (b : Nat) (v : Bool) (i : Nat) : (s.setFlag r b v i).mgmt = s.mgmt := rfl
@[simp] theorem State.tap_setFlag (r : Reg) (b : Nat) (v : Bool) (i : Nat) : (s.setFlag r b v i).tap = s.tap := rfl
@[simp] theorem State.log_setFlag (r : Reg) (b : Nat) (v : Bool) (i : Nat) : (s.setFlag r b v i).log = s.log := rfl
@[simp] theorem State.tele_setFlag (r : Reg) (b : Nat) (v : Bool) (i : Nat) : (s.setFlag r b v i).tele = s.tele := rfl

@[simp] theorem State.pending_bump (r : Reg) (n i : Nat) : (s.bump r n i).pending = s.pending := rfl
@[simp] theorem State.out_bump (r : Reg) (n i : Nat) : (s.bump r n i).out = s.out := rfl
@[simp] theorem State.now_bump (r : Reg) (n i : Nat) : (s.bump r n i).now = s.now := rfl
@[simp] theorem State.fresh_bump (r : Reg) (n i : Nat) : (s.bump r n i).fresh = s.fresh := rfl
@[simp] theorem State.mem_bump (r : Reg) (n i : Nat) : (s.bump r n i).mem = s.mem := rfl
@[simp] theorem State.lineKey_bump (r : Reg) (n i : Nat) : (s.bump r n i).lineKey = s.lineKey := rfl
@[simp] theorem State.dir_bump (r : Reg) (n i : Nat) : (s.bump r n i).dir = s.dir := rfl
@[simp] theorem State.poison_bump (r : Reg) (n i : Nat) : (s.bump r n i).poison = s.poison := rfl
@[simp] theorem State.flash_bump (r : Reg) (n i : Nat) : (s.bump r n i).flash = s.flash := rfl
@[simp] theorem State.job_bump (r : Reg) (n i : Nat) : (s.bump r n i).job = s.job := rfl
@[simp] theorem State.threads_bump (r : Reg) (n i : Nat) : (s.bump r n i).threads = s.threads := rfl
@[simp] theorem State.tiles_bump (r : Reg) (n i : Nat) : (s.bump r n i).tiles = s.tiles := rfl
@[simp] theorem State.vecs_bump (r : Reg) (n i : Nat) : (s.bump r n i).vecs = s.vecs := rfl
@[simp] theorem State.solvEngs_bump (r : Reg) (n i : Nat) : (s.bump r n i).solvEngs = s.solvEngs := rfl
@[simp] theorem State.factors_bump (r : Reg) (n i : Nat) : (s.bump r n i).factors = s.factors := rfl
@[simp] theorem State.asms_bump (r : Reg) (n i : Nat) : (s.bump r n i).asms = s.asms := rfl
@[simp] theorem State.msa_bump (r : Reg) (n i : Nat) : (s.bump r n i).msa = s.msa := rfl
@[simp] theorem State.fxp_bump (r : Reg) (n i : Nat) : (s.bump r n i).fxp = s.fxp := rfl
@[simp] theorem State.piaz_bump (r : Reg) (n i : Nat) : (s.bump r n i).piaz = s.piaz := rfl
@[simp] theorem State.cal_bump (r : Reg) (n i : Nat) : (s.bump r n i).cal = s.cal := rfl
@[simp] theorem State.age_bump (r : Reg) (n i : Nat) : (s.bump r n i).age = s.age := rfl
@[simp] theorem State.sec_bump (r : Reg) (n i : Nat) : (s.bump r n i).sec = s.sec := rfl
@[simp] theorem State.power_bump (r : Reg) (n i : Nat) : (s.bump r n i).power = s.power := rfl
@[simp] theorem State.pins_bump (r : Reg) (n i : Nat) : (s.bump r n i).pins = s.pins := rfl
@[simp] theorem State.sched_bump (r : Reg) (n i : Nat) : (s.bump r n i).sched = s.sched := rfl
@[simp] theorem State.ckpt_bump (r : Reg) (n i : Nat) : (s.bump r n i).ckpt = s.ckpt := rfl
@[simp] theorem State.hbr_bump (r : Reg) (n i : Nat) : (s.bump r n i).hbr = s.hbr := rfl
@[simp] theorem State.sw_bump (r : Reg) (n i : Nat) : (s.bump r n i).sw = s.sw := rfl
@[simp] theorem State.ports_bump (r : Reg) (n i : Nat) : (s.bump r n i).ports = s.ports := rfl
@[simp] theorem State.boot_bump (r : Reg) (n i : Nat) : (s.bump r n i).boot = s.boot := rfl
@[simp] theorem State.fws_bump (r : Reg) (n i : Nat) : (s.bump r n i).fws = s.fws := rfl
@[simp] theorem State.fwLoad_bump (r : Reg) (n i : Nat) : (s.bump r n i).fwLoad = s.fwLoad := rfl
@[simp] theorem State.mgmt_bump (r : Reg) (n i : Nat) : (s.bump r n i).mgmt = s.mgmt := rfl
@[simp] theorem State.tap_bump (r : Reg) (n i : Nat) : (s.bump r n i).tap = s.tap := rfl
@[simp] theorem State.log_bump (r : Reg) (n i : Nat) : (s.bump r n i).log = s.log := rfl
@[simp] theorem State.tele_bump (r : Reg) (n i : Nat) : (s.bump r n i).tele = s.tele := rfl

@[simp] theorem State.pending_bump64 (r : Reg) (n i : Nat) : (s.bump64 r n i).pending = s.pending := rfl
@[simp] theorem State.out_bump64 (r : Reg) (n i : Nat) : (s.bump64 r n i).out = s.out := rfl
@[simp] theorem State.now_bump64 (r : Reg) (n i : Nat) : (s.bump64 r n i).now = s.now := rfl
@[simp] theorem State.fresh_bump64 (r : Reg) (n i : Nat) : (s.bump64 r n i).fresh = s.fresh := rfl
@[simp] theorem State.mem_bump64 (r : Reg) (n i : Nat) : (s.bump64 r n i).mem = s.mem := rfl
@[simp] theorem State.lineKey_bump64 (r : Reg) (n i : Nat) : (s.bump64 r n i).lineKey = s.lineKey := rfl
@[simp] theorem State.dir_bump64 (r : Reg) (n i : Nat) : (s.bump64 r n i).dir = s.dir := rfl
@[simp] theorem State.poison_bump64 (r : Reg) (n i : Nat) : (s.bump64 r n i).poison = s.poison := rfl
@[simp] theorem State.flash_bump64 (r : Reg) (n i : Nat) : (s.bump64 r n i).flash = s.flash := rfl
@[simp] theorem State.job_bump64 (r : Reg) (n i : Nat) : (s.bump64 r n i).job = s.job := rfl
@[simp] theorem State.threads_bump64 (r : Reg) (n i : Nat) : (s.bump64 r n i).threads = s.threads := rfl
@[simp] theorem State.tiles_bump64 (r : Reg) (n i : Nat) : (s.bump64 r n i).tiles = s.tiles := rfl
@[simp] theorem State.vecs_bump64 (r : Reg) (n i : Nat) : (s.bump64 r n i).vecs = s.vecs := rfl
@[simp] theorem State.solvEngs_bump64 (r : Reg) (n i : Nat) : (s.bump64 r n i).solvEngs = s.solvEngs := rfl
@[simp] theorem State.factors_bump64 (r : Reg) (n i : Nat) : (s.bump64 r n i).factors = s.factors := rfl
@[simp] theorem State.asms_bump64 (r : Reg) (n i : Nat) : (s.bump64 r n i).asms = s.asms := rfl
@[simp] theorem State.msa_bump64 (r : Reg) (n i : Nat) : (s.bump64 r n i).msa = s.msa := rfl
@[simp] theorem State.fxp_bump64 (r : Reg) (n i : Nat) : (s.bump64 r n i).fxp = s.fxp := rfl
@[simp] theorem State.piaz_bump64 (r : Reg) (n i : Nat) : (s.bump64 r n i).piaz = s.piaz := rfl
@[simp] theorem State.cal_bump64 (r : Reg) (n i : Nat) : (s.bump64 r n i).cal = s.cal := rfl
@[simp] theorem State.age_bump64 (r : Reg) (n i : Nat) : (s.bump64 r n i).age = s.age := rfl
@[simp] theorem State.sec_bump64 (r : Reg) (n i : Nat) : (s.bump64 r n i).sec = s.sec := rfl
@[simp] theorem State.power_bump64 (r : Reg) (n i : Nat) : (s.bump64 r n i).power = s.power := rfl
@[simp] theorem State.pins_bump64 (r : Reg) (n i : Nat) : (s.bump64 r n i).pins = s.pins := rfl
@[simp] theorem State.sched_bump64 (r : Reg) (n i : Nat) : (s.bump64 r n i).sched = s.sched := rfl
@[simp] theorem State.ckpt_bump64 (r : Reg) (n i : Nat) : (s.bump64 r n i).ckpt = s.ckpt := rfl
@[simp] theorem State.hbr_bump64 (r : Reg) (n i : Nat) : (s.bump64 r n i).hbr = s.hbr := rfl
@[simp] theorem State.sw_bump64 (r : Reg) (n i : Nat) : (s.bump64 r n i).sw = s.sw := rfl
@[simp] theorem State.ports_bump64 (r : Reg) (n i : Nat) : (s.bump64 r n i).ports = s.ports := rfl
@[simp] theorem State.boot_bump64 (r : Reg) (n i : Nat) : (s.bump64 r n i).boot = s.boot := rfl
@[simp] theorem State.fws_bump64 (r : Reg) (n i : Nat) : (s.bump64 r n i).fws = s.fws := rfl
@[simp] theorem State.fwLoad_bump64 (r : Reg) (n i : Nat) : (s.bump64 r n i).fwLoad = s.fwLoad := rfl
@[simp] theorem State.mgmt_bump64 (r : Reg) (n i : Nat) : (s.bump64 r n i).mgmt = s.mgmt := rfl
@[simp] theorem State.tap_bump64 (r : Reg) (n i : Nat) : (s.bump64 r n i).tap = s.tap := rfl
@[simp] theorem State.log_bump64 (r : Reg) (n i : Nat) : (s.bump64 r n i).log = s.log := rfl
@[simp] theorem State.tele_bump64 (r : Reg) (n i : Nat) : (s.bump64 r n i).tele = s.tele := rfl

@[simp] theorem State.pending_emit (m : OutMsg) : (s.emit m).pending = s.pending := rfl
@[simp] theorem State.now_emit (m : OutMsg) : (s.emit m).now = s.now := rfl
@[simp] theorem State.fresh_emit (m : OutMsg) : (s.emit m).fresh = s.fresh := rfl
@[simp] theorem State.regs_emit (m : OutMsg) : (s.emit m).regs = s.regs := rfl
@[simp] theorem State.mem_emit (m : OutMsg) : (s.emit m).mem = s.mem := rfl
@[simp] theorem State.lineKey_emit (m : OutMsg) : (s.emit m).lineKey = s.lineKey := rfl
@[simp] theorem State.dir_emit (m : OutMsg) : (s.emit m).dir = s.dir := rfl
@[simp] theorem State.poison_emit (m : OutMsg) : (s.emit m).poison = s.poison := rfl
@[simp] theorem State.flash_emit (m : OutMsg) : (s.emit m).flash = s.flash := rfl
@[simp] theorem State.job_emit (m : OutMsg) : (s.emit m).job = s.job := rfl
@[simp] theorem State.threads_emit (m : OutMsg) : (s.emit m).threads = s.threads := rfl
@[simp] theorem State.tiles_emit (m : OutMsg) : (s.emit m).tiles = s.tiles := rfl
@[simp] theorem State.vecs_emit (m : OutMsg) : (s.emit m).vecs = s.vecs := rfl
@[simp] theorem State.solvEngs_emit (m : OutMsg) : (s.emit m).solvEngs = s.solvEngs := rfl
@[simp] theorem State.factors_emit (m : OutMsg) : (s.emit m).factors = s.factors := rfl
@[simp] theorem State.asms_emit (m : OutMsg) : (s.emit m).asms = s.asms := rfl
@[simp] theorem State.msa_emit (m : OutMsg) : (s.emit m).msa = s.msa := rfl
@[simp] theorem State.fxp_emit (m : OutMsg) : (s.emit m).fxp = s.fxp := rfl
@[simp] theorem State.piaz_emit (m : OutMsg) : (s.emit m).piaz = s.piaz := rfl
@[simp] theorem State.cal_emit (m : OutMsg) : (s.emit m).cal = s.cal := rfl
@[simp] theorem State.age_emit (m : OutMsg) : (s.emit m).age = s.age := rfl
@[simp] theorem State.sec_emit (m : OutMsg) : (s.emit m).sec = s.sec := rfl
@[simp] theorem State.power_emit (m : OutMsg) : (s.emit m).power = s.power := rfl
@[simp] theorem State.pins_emit (m : OutMsg) : (s.emit m).pins = s.pins := rfl
@[simp] theorem State.sched_emit (m : OutMsg) : (s.emit m).sched = s.sched := rfl
@[simp] theorem State.ckpt_emit (m : OutMsg) : (s.emit m).ckpt = s.ckpt := rfl
@[simp] theorem State.hbr_emit (m : OutMsg) : (s.emit m).hbr = s.hbr := rfl
@[simp] theorem State.sw_emit (m : OutMsg) : (s.emit m).sw = s.sw := rfl
@[simp] theorem State.ports_emit (m : OutMsg) : (s.emit m).ports = s.ports := rfl
@[simp] theorem State.boot_emit (m : OutMsg) : (s.emit m).boot = s.boot := rfl
@[simp] theorem State.fws_emit (m : OutMsg) : (s.emit m).fws = s.fws := rfl
@[simp] theorem State.fwLoad_emit (m : OutMsg) : (s.emit m).fwLoad = s.fwLoad := rfl
@[simp] theorem State.mgmt_emit (m : OutMsg) : (s.emit m).mgmt = s.mgmt := rfl
@[simp] theorem State.tap_emit (m : OutMsg) : (s.emit m).tap = s.tap := rfl
@[simp] theorem State.log_emit (m : OutMsg) : (s.emit m).log = s.log := rfl
@[simp] theorem State.tele_emit (m : OutMsg) : (s.emit m).tele = s.tele := rfl

@[simp] theorem State.pending_pokeRaw (a : Nat) (b : Byte) : (s.pokeRaw a b).pending = s.pending := rfl
@[simp] theorem State.out_pokeRaw (a : Nat) (b : Byte) : (s.pokeRaw a b).out = s.out := rfl
@[simp] theorem State.now_pokeRaw (a : Nat) (b : Byte) : (s.pokeRaw a b).now = s.now := rfl
@[simp] theorem State.fresh_pokeRaw (a : Nat) (b : Byte) : (s.pokeRaw a b).fresh = s.fresh := rfl
@[simp] theorem State.regs_pokeRaw (a : Nat) (b : Byte) : (s.pokeRaw a b).regs = s.regs := rfl
@[simp] theorem State.lineKey_pokeRaw (a : Nat) (b : Byte) : (s.pokeRaw a b).lineKey = s.lineKey := rfl
@[simp] theorem State.dir_pokeRaw (a : Nat) (b : Byte) : (s.pokeRaw a b).dir = s.dir := rfl
@[simp] theorem State.poison_pokeRaw (a : Nat) (b : Byte) : (s.pokeRaw a b).poison = s.poison := rfl
@[simp] theorem State.flash_pokeRaw (a : Nat) (b : Byte) : (s.pokeRaw a b).flash = s.flash := rfl
@[simp] theorem State.job_pokeRaw (a : Nat) (b : Byte) : (s.pokeRaw a b).job = s.job := rfl
@[simp] theorem State.threads_pokeRaw (a : Nat) (b : Byte) : (s.pokeRaw a b).threads = s.threads := rfl
@[simp] theorem State.tiles_pokeRaw (a : Nat) (b : Byte) : (s.pokeRaw a b).tiles = s.tiles := rfl
@[simp] theorem State.vecs_pokeRaw (a : Nat) (b : Byte) : (s.pokeRaw a b).vecs = s.vecs := rfl
@[simp] theorem State.solvEngs_pokeRaw (a : Nat) (b : Byte) : (s.pokeRaw a b).solvEngs = s.solvEngs := rfl
@[simp] theorem State.factors_pokeRaw (a : Nat) (b : Byte) : (s.pokeRaw a b).factors = s.factors := rfl
@[simp] theorem State.asms_pokeRaw (a : Nat) (b : Byte) : (s.pokeRaw a b).asms = s.asms := rfl
@[simp] theorem State.msa_pokeRaw (a : Nat) (b : Byte) : (s.pokeRaw a b).msa = s.msa := rfl
@[simp] theorem State.fxp_pokeRaw (a : Nat) (b : Byte) : (s.pokeRaw a b).fxp = s.fxp := rfl
@[simp] theorem State.piaz_pokeRaw (a : Nat) (b : Byte) : (s.pokeRaw a b).piaz = s.piaz := rfl
@[simp] theorem State.cal_pokeRaw (a : Nat) (b : Byte) : (s.pokeRaw a b).cal = s.cal := rfl
@[simp] theorem State.age_pokeRaw (a : Nat) (b : Byte) : (s.pokeRaw a b).age = s.age := rfl
@[simp] theorem State.sec_pokeRaw (a : Nat) (b : Byte) : (s.pokeRaw a b).sec = s.sec := rfl
@[simp] theorem State.power_pokeRaw (a : Nat) (b : Byte) : (s.pokeRaw a b).power = s.power := rfl
@[simp] theorem State.pins_pokeRaw (a : Nat) (b : Byte) : (s.pokeRaw a b).pins = s.pins := rfl
@[simp] theorem State.sched_pokeRaw (a : Nat) (b : Byte) : (s.pokeRaw a b).sched = s.sched := rfl
@[simp] theorem State.ckpt_pokeRaw (a : Nat) (b : Byte) : (s.pokeRaw a b).ckpt = s.ckpt := rfl
@[simp] theorem State.hbr_pokeRaw (a : Nat) (b : Byte) : (s.pokeRaw a b).hbr = s.hbr := rfl
@[simp] theorem State.sw_pokeRaw (a : Nat) (b : Byte) : (s.pokeRaw a b).sw = s.sw := rfl
@[simp] theorem State.ports_pokeRaw (a : Nat) (b : Byte) : (s.pokeRaw a b).ports = s.ports := rfl
@[simp] theorem State.boot_pokeRaw (a : Nat) (b : Byte) : (s.pokeRaw a b).boot = s.boot := rfl
@[simp] theorem State.fws_pokeRaw (a : Nat) (b : Byte) : (s.pokeRaw a b).fws = s.fws := rfl
@[simp] theorem State.fwLoad_pokeRaw (a : Nat) (b : Byte) : (s.pokeRaw a b).fwLoad = s.fwLoad := rfl
@[simp] theorem State.mgmt_pokeRaw (a : Nat) (b : Byte) : (s.pokeRaw a b).mgmt = s.mgmt := rfl
@[simp] theorem State.tap_pokeRaw (a : Nat) (b : Byte) : (s.pokeRaw a b).tap = s.tap := rfl
@[simp] theorem State.log_pokeRaw (a : Nat) (b : Byte) : (s.pokeRaw a b).log = s.log := rfl
@[simp] theorem State.tele_pokeRaw (a : Nat) (b : Byte) : (s.pokeRaw a b).tele = s.tele := rfl

@[simp] theorem State.pending_setThread (t : Nat) (th : Thread) : (s.setThread t th).pending = s.pending := rfl
@[simp] theorem State.out_setThread (t : Nat) (th : Thread) : (s.setThread t th).out = s.out := rfl
@[simp] theorem State.now_setThread (t : Nat) (th : Thread) : (s.setThread t th).now = s.now := rfl
@[simp] theorem State.fresh_setThread (t : Nat) (th : Thread) : (s.setThread t th).fresh = s.fresh := rfl
@[simp] theorem State.regs_setThread (t : Nat) (th : Thread) : (s.setThread t th).regs = s.regs := rfl
@[simp] theorem State.mem_setThread (t : Nat) (th : Thread) : (s.setThread t th).mem = s.mem := rfl
@[simp] theorem State.lineKey_setThread (t : Nat) (th : Thread) : (s.setThread t th).lineKey = s.lineKey := rfl
@[simp] theorem State.dir_setThread (t : Nat) (th : Thread) : (s.setThread t th).dir = s.dir := rfl
@[simp] theorem State.poison_setThread (t : Nat) (th : Thread) : (s.setThread t th).poison = s.poison := rfl
@[simp] theorem State.flash_setThread (t : Nat) (th : Thread) : (s.setThread t th).flash = s.flash := rfl
@[simp] theorem State.job_setThread (t : Nat) (th : Thread) : (s.setThread t th).job = s.job := rfl
@[simp] theorem State.tiles_setThread (t : Nat) (th : Thread) : (s.setThread t th).tiles = s.tiles := rfl
@[simp] theorem State.vecs_setThread (t : Nat) (th : Thread) : (s.setThread t th).vecs = s.vecs := rfl
@[simp] theorem State.solvEngs_setThread (t : Nat) (th : Thread) : (s.setThread t th).solvEngs = s.solvEngs := rfl
@[simp] theorem State.factors_setThread (t : Nat) (th : Thread) : (s.setThread t th).factors = s.factors := rfl
@[simp] theorem State.asms_setThread (t : Nat) (th : Thread) : (s.setThread t th).asms = s.asms := rfl
@[simp] theorem State.msa_setThread (t : Nat) (th : Thread) : (s.setThread t th).msa = s.msa := rfl
@[simp] theorem State.fxp_setThread (t : Nat) (th : Thread) : (s.setThread t th).fxp = s.fxp := rfl
@[simp] theorem State.piaz_setThread (t : Nat) (th : Thread) : (s.setThread t th).piaz = s.piaz := rfl
@[simp] theorem State.cal_setThread (t : Nat) (th : Thread) : (s.setThread t th).cal = s.cal := rfl
@[simp] theorem State.age_setThread (t : Nat) (th : Thread) : (s.setThread t th).age = s.age := rfl
@[simp] theorem State.sec_setThread (t : Nat) (th : Thread) : (s.setThread t th).sec = s.sec := rfl
@[simp] theorem State.power_setThread (t : Nat) (th : Thread) : (s.setThread t th).power = s.power := rfl
@[simp] theorem State.pins_setThread (t : Nat) (th : Thread) : (s.setThread t th).pins = s.pins := rfl
@[simp] theorem State.sched_setThread (t : Nat) (th : Thread) : (s.setThread t th).sched = s.sched := rfl
@[simp] theorem State.ckpt_setThread (t : Nat) (th : Thread) : (s.setThread t th).ckpt = s.ckpt := rfl
@[simp] theorem State.hbr_setThread (t : Nat) (th : Thread) : (s.setThread t th).hbr = s.hbr := rfl
@[simp] theorem State.sw_setThread (t : Nat) (th : Thread) : (s.setThread t th).sw = s.sw := rfl
@[simp] theorem State.ports_setThread (t : Nat) (th : Thread) : (s.setThread t th).ports = s.ports := rfl
@[simp] theorem State.boot_setThread (t : Nat) (th : Thread) : (s.setThread t th).boot = s.boot := rfl
@[simp] theorem State.fws_setThread (t : Nat) (th : Thread) : (s.setThread t th).fws = s.fws := rfl
@[simp] theorem State.fwLoad_setThread (t : Nat) (th : Thread) : (s.setThread t th).fwLoad = s.fwLoad := rfl
@[simp] theorem State.mgmt_setThread (t : Nat) (th : Thread) : (s.setThread t th).mgmt = s.mgmt := rfl
@[simp] theorem State.tap_setThread (t : Nat) (th : Thread) : (s.setThread t th).tap = s.tap := rfl
@[simp] theorem State.log_setThread (t : Nat) (th : Thread) : (s.setThread t th).log = s.log := rfl
@[simp] theorem State.tele_setThread (t : Nat) (th : Thread) : (s.setThread t th).tele = s.tele := rfl

@[simp] theorem State.pending_onThread (t : Nat) (f : Thread → Thread) : (s.onThread t f).pending = s.pending := rfl
@[simp] theorem State.out_onThread (t : Nat) (f : Thread → Thread) : (s.onThread t f).out = s.out := rfl
@[simp] theorem State.now_onThread (t : Nat) (f : Thread → Thread) : (s.onThread t f).now = s.now := rfl
@[simp] theorem State.fresh_onThread (t : Nat) (f : Thread → Thread) : (s.onThread t f).fresh = s.fresh := rfl
@[simp] theorem State.regs_onThread (t : Nat) (f : Thread → Thread) : (s.onThread t f).regs = s.regs := rfl
@[simp] theorem State.mem_onThread (t : Nat) (f : Thread → Thread) : (s.onThread t f).mem = s.mem := rfl
@[simp] theorem State.lineKey_onThread (t : Nat) (f : Thread → Thread) : (s.onThread t f).lineKey = s.lineKey := rfl
@[simp] theorem State.dir_onThread (t : Nat) (f : Thread → Thread) : (s.onThread t f).dir = s.dir := rfl
@[simp] theorem State.poison_onThread (t : Nat) (f : Thread → Thread) : (s.onThread t f).poison = s.poison := rfl
@[simp] theorem State.flash_onThread (t : Nat) (f : Thread → Thread) : (s.onThread t f).flash = s.flash := rfl
@[simp] theorem State.job_onThread (t : Nat) (f : Thread → Thread) : (s.onThread t f).job = s.job := rfl
@[simp] theorem State.tiles_onThread (t : Nat) (f : Thread → Thread) : (s.onThread t f).tiles = s.tiles := rfl
@[simp] theorem State.vecs_onThread (t : Nat) (f : Thread → Thread) : (s.onThread t f).vecs = s.vecs := rfl
@[simp] theorem State.solvEngs_onThread (t : Nat) (f : Thread → Thread) : (s.onThread t f).solvEngs = s.solvEngs := rfl
@[simp] theorem State.factors_onThread (t : Nat) (f : Thread → Thread) : (s.onThread t f).factors = s.factors := rfl
@[simp] theorem State.asms_onThread (t : Nat) (f : Thread → Thread) : (s.onThread t f).asms = s.asms := rfl
@[simp] theorem State.msa_onThread (t : Nat) (f : Thread → Thread) : (s.onThread t f).msa = s.msa := rfl
@[simp] theorem State.fxp_onThread (t : Nat) (f : Thread → Thread) : (s.onThread t f).fxp = s.fxp := rfl
@[simp] theorem State.piaz_onThread (t : Nat) (f : Thread → Thread) : (s.onThread t f).piaz = s.piaz := rfl
@[simp] theorem State.cal_onThread (t : Nat) (f : Thread → Thread) : (s.onThread t f).cal = s.cal := rfl
@[simp] theorem State.age_onThread (t : Nat) (f : Thread → Thread) : (s.onThread t f).age = s.age := rfl
@[simp] theorem State.sec_onThread (t : Nat) (f : Thread → Thread) : (s.onThread t f).sec = s.sec := rfl
@[simp] theorem State.power_onThread (t : Nat) (f : Thread → Thread) : (s.onThread t f).power = s.power := rfl
@[simp] theorem State.pins_onThread (t : Nat) (f : Thread → Thread) : (s.onThread t f).pins = s.pins := rfl
@[simp] theorem State.sched_onThread (t : Nat) (f : Thread → Thread) : (s.onThread t f).sched = s.sched := rfl
@[simp] theorem State.ckpt_onThread (t : Nat) (f : Thread → Thread) : (s.onThread t f).ckpt = s.ckpt := rfl
@[simp] theorem State.hbr_onThread (t : Nat) (f : Thread → Thread) : (s.onThread t f).hbr = s.hbr := rfl
@[simp] theorem State.sw_onThread (t : Nat) (f : Thread → Thread) : (s.onThread t f).sw = s.sw := rfl
@[simp] theorem State.ports_onThread (t : Nat) (f : Thread → Thread) : (s.onThread t f).ports = s.ports := rfl
@[simp] theorem State.boot_onThread (t : Nat) (f : Thread → Thread) : (s.onThread t f).boot = s.boot := rfl
@[simp] theorem State.fws_onThread (t : Nat) (f : Thread → Thread) : (s.onThread t f).fws = s.fws := rfl
@[simp] theorem State.fwLoad_onThread (t : Nat) (f : Thread → Thread) : (s.onThread t f).fwLoad = s.fwLoad := rfl
@[simp] theorem State.mgmt_onThread (t : Nat) (f : Thread → Thread) : (s.onThread t f).mgmt = s.mgmt := rfl
@[simp] theorem State.tap_onThread (t : Nat) (f : Thread → Thread) : (s.onThread t f).tap = s.tap := rfl
@[simp] theorem State.log_onThread (t : Nat) (f : Thread → Thread) : (s.onThread t f).log = s.log := rfl
@[simp] theorem State.tele_onThread (t : Nat) (f : Thread → Thread) : (s.onThread t f).tele = s.tele := rfl

@[simp] theorem State.pending_threadDo (t : Nat) (f : Thread → Thread) : (s.threadDo t f).pending = s.pending := rfl
@[simp] theorem State.out_threadDo (t : Nat) (f : Thread → Thread) : (s.threadDo t f).out = s.out := rfl
@[simp] theorem State.now_threadDo (t : Nat) (f : Thread → Thread) : (s.threadDo t f).now = s.now := rfl
@[simp] theorem State.fresh_threadDo (t : Nat) (f : Thread → Thread) : (s.threadDo t f).fresh = s.fresh := rfl
@[simp] theorem State.regs_threadDo (t : Nat) (f : Thread → Thread) : (s.threadDo t f).regs = s.regs := rfl
@[simp] theorem State.mem_threadDo (t : Nat) (f : Thread → Thread) : (s.threadDo t f).mem = s.mem := rfl
@[simp] theorem State.lineKey_threadDo (t : Nat) (f : Thread → Thread) : (s.threadDo t f).lineKey = s.lineKey := rfl
@[simp] theorem State.dir_threadDo (t : Nat) (f : Thread → Thread) : (s.threadDo t f).dir = s.dir := rfl
@[simp] theorem State.poison_threadDo (t : Nat) (f : Thread → Thread) : (s.threadDo t f).poison = s.poison := rfl
@[simp] theorem State.flash_threadDo (t : Nat) (f : Thread → Thread) : (s.threadDo t f).flash = s.flash := rfl
@[simp] theorem State.job_threadDo (t : Nat) (f : Thread → Thread) : (s.threadDo t f).job = s.job := rfl
@[simp] theorem State.tiles_threadDo (t : Nat) (f : Thread → Thread) : (s.threadDo t f).tiles = s.tiles := rfl
@[simp] theorem State.vecs_threadDo (t : Nat) (f : Thread → Thread) : (s.threadDo t f).vecs = s.vecs := rfl
@[simp] theorem State.solvEngs_threadDo (t : Nat) (f : Thread → Thread) : (s.threadDo t f).solvEngs = s.solvEngs := rfl
@[simp] theorem State.factors_threadDo (t : Nat) (f : Thread → Thread) : (s.threadDo t f).factors = s.factors := rfl
@[simp] theorem State.asms_threadDo (t : Nat) (f : Thread → Thread) : (s.threadDo t f).asms = s.asms := rfl
@[simp] theorem State.msa_threadDo (t : Nat) (f : Thread → Thread) : (s.threadDo t f).msa = s.msa := rfl
@[simp] theorem State.fxp_threadDo (t : Nat) (f : Thread → Thread) : (s.threadDo t f).fxp = s.fxp := rfl
@[simp] theorem State.piaz_threadDo (t : Nat) (f : Thread → Thread) : (s.threadDo t f).piaz = s.piaz := rfl
@[simp] theorem State.cal_threadDo (t : Nat) (f : Thread → Thread) : (s.threadDo t f).cal = s.cal := rfl
@[simp] theorem State.age_threadDo (t : Nat) (f : Thread → Thread) : (s.threadDo t f).age = s.age := rfl
@[simp] theorem State.sec_threadDo (t : Nat) (f : Thread → Thread) : (s.threadDo t f).sec = s.sec := rfl
@[simp] theorem State.power_threadDo (t : Nat) (f : Thread → Thread) : (s.threadDo t f).power = s.power := rfl
@[simp] theorem State.pins_threadDo (t : Nat) (f : Thread → Thread) : (s.threadDo t f).pins = s.pins := rfl
@[simp] theorem State.sched_threadDo (t : Nat) (f : Thread → Thread) : (s.threadDo t f).sched = s.sched := rfl
@[simp] theorem State.ckpt_threadDo (t : Nat) (f : Thread → Thread) : (s.threadDo t f).ckpt = s.ckpt := rfl
@[simp] theorem State.hbr_threadDo (t : Nat) (f : Thread → Thread) : (s.threadDo t f).hbr = s.hbr := rfl
@[simp] theorem State.sw_threadDo (t : Nat) (f : Thread → Thread) : (s.threadDo t f).sw = s.sw := rfl
@[simp] theorem State.ports_threadDo (t : Nat) (f : Thread → Thread) : (s.threadDo t f).ports = s.ports := rfl
@[simp] theorem State.boot_threadDo (t : Nat) (f : Thread → Thread) : (s.threadDo t f).boot = s.boot := rfl
@[simp] theorem State.fws_threadDo (t : Nat) (f : Thread → Thread) : (s.threadDo t f).fws = s.fws := rfl
@[simp] theorem State.fwLoad_threadDo (t : Nat) (f : Thread → Thread) : (s.threadDo t f).fwLoad = s.fwLoad := rfl
@[simp] theorem State.mgmt_threadDo (t : Nat) (f : Thread → Thread) : (s.threadDo t f).mgmt = s.mgmt := rfl
@[simp] theorem State.tap_threadDo (t : Nat) (f : Thread → Thread) : (s.threadDo t f).tap = s.tap := rfl
@[simp] theorem State.log_threadDo (t : Nat) (f : Thread → Thread) : (s.threadDo t f).log = s.log := rfl
@[simp] theorem State.tele_threadDo (t : Nat) (f : Thread → Thread) : (s.threadDo t f).tele = s.tele := rfl

/-! ### A free value uses up one value of the counter -/

@[simp] theorem State.pending_free (u : Nat) : (s.free u).2.pending = s.pending := rfl
@[simp] theorem State.out_free (u : Nat) : (s.free u).2.out = s.out := rfl
@[simp] theorem State.now_free (u : Nat) : (s.free u).2.now = s.now := rfl
@[simp] theorem State.mem_free (u : Nat) : (s.free u).2.mem = s.mem := rfl
@[simp] theorem State.lineKey_free (u : Nat) : (s.free u).2.lineKey = s.lineKey := rfl
@[simp] theorem State.dir_free (u : Nat) : (s.free u).2.dir = s.dir := rfl
@[simp] theorem State.poison_free (u : Nat) : (s.free u).2.poison = s.poison := rfl
@[simp] theorem State.flash_free (u : Nat) : (s.free u).2.flash = s.flash := rfl
@[simp] theorem State.job_free (u : Nat) : (s.free u).2.job = s.job := rfl
@[simp] theorem State.threads_free (u : Nat) : (s.free u).2.threads = s.threads := rfl
@[simp] theorem State.tiles_free (u : Nat) : (s.free u).2.tiles = s.tiles := rfl
@[simp] theorem State.vecs_free (u : Nat) : (s.free u).2.vecs = s.vecs := rfl
@[simp] theorem State.solvEngs_free (u : Nat) : (s.free u).2.solvEngs = s.solvEngs := rfl
@[simp] theorem State.factors_free (u : Nat) : (s.free u).2.factors = s.factors := rfl
@[simp] theorem State.asms_free (u : Nat) : (s.free u).2.asms = s.asms := rfl
@[simp] theorem State.msa_free (u : Nat) : (s.free u).2.msa = s.msa := rfl
@[simp] theorem State.fxp_free (u : Nat) : (s.free u).2.fxp = s.fxp := rfl
@[simp] theorem State.piaz_free (u : Nat) : (s.free u).2.piaz = s.piaz := rfl
@[simp] theorem State.cal_free (u : Nat) : (s.free u).2.cal = s.cal := rfl
@[simp] theorem State.age_free (u : Nat) : (s.free u).2.age = s.age := rfl
@[simp] theorem State.sec_free (u : Nat) : (s.free u).2.sec = s.sec := rfl
@[simp] theorem State.power_free (u : Nat) : (s.free u).2.power = s.power := rfl
@[simp] theorem State.pins_free (u : Nat) : (s.free u).2.pins = s.pins := rfl
@[simp] theorem State.sched_free (u : Nat) : (s.free u).2.sched = s.sched := rfl
@[simp] theorem State.ckpt_free (u : Nat) : (s.free u).2.ckpt = s.ckpt := rfl
@[simp] theorem State.hbr_free (u : Nat) : (s.free u).2.hbr = s.hbr := rfl
@[simp] theorem State.sw_free (u : Nat) : (s.free u).2.sw = s.sw := rfl
@[simp] theorem State.ports_free (u : Nat) : (s.free u).2.ports = s.ports := rfl
@[simp] theorem State.boot_free (u : Nat) : (s.free u).2.boot = s.boot := rfl
@[simp] theorem State.fws_free (u : Nat) : (s.free u).2.fws = s.fws := rfl
@[simp] theorem State.fwLoad_free (u : Nat) : (s.free u).2.fwLoad = s.fwLoad := rfl
@[simp] theorem State.mgmt_free (u : Nat) : (s.free u).2.mgmt = s.mgmt := rfl
@[simp] theorem State.tap_free (u : Nat) : (s.free u).2.tap = s.tap := rfl
@[simp] theorem State.log_free (u : Nat) : (s.free u).2.log = s.log := rfl
@[simp] theorem State.tele_free (u : Nat) : (s.free u).2.tele = s.tele := rfl
@[simp] theorem State.fresh_free (u : Nat) : (s.free u).2.fresh = s.fresh + 1 := rfl
@[simp] theorem State.rd_free (u : Nat) (r : Reg) (i o : Nat) : (s.free u).2.rd r i o = s.rd r i o := rfl

end Sys2Proof.Machine
end

