-- ==== Sys2Proof/Laws/Mem.lean ====
section
/-!
SUPPORT. Local memory: a read after a write (R147, R166), and what a write leaves alone.
-/

namespace Sys2Proof.Machine

/-- The offset of a register is the low part of its key. -/
theorem regKey_mod (ty i o : Nat) : regKey ty i o % 4096 = o % 4096 := by unfold regKey; omega

/-- Registers at different offsets of their pages do not meet. -/
theorem State.rd_wr_off (s : State) {r r' : Reg} {i o i' o' : Nat} (v : Nat) (h : (r'.off + o') % 4096 ≠ (r.off + o) % 4096) :
    (s.wr r v i o).rd r' i' o' = s.rd r' i' o' := by
  refine s.rd_wr_ne v fun e => h ?_
  have := congrArg (· % 4096) e
  simpa only [regKey_mod] using this

theorem State.rd_bump_off (s : State) {r r' : Reg} {n i i' o' : Nat} (h : (r'.off + o') % 4096 ≠ r.off % 4096) :
    (s.bump r n i).rd r' i' o' = s.rd r' i' o' := s.rd_wr_off _ h

/-- Two states agree on what decides the state of a line: the memory map, the channels, the regions, the keys, the poison. -/
structure State.SameLines (s t : State) : Prop where
  sec : t.sec = s.sec
  poison : t.poison = s.poison
  map : ∀ i, t.rd rHbmcMap i = s.rd rHbmcMap i
  chan : ∀ i, t.rd rHbmchStat i = s.rd rHbmchStat i
  region : ∀ o, o < 256 → t.rd rSecRegion 0 o = s.rd rSecRegion 0 o

theorem State.SameLines.refl (s : State) : s.SameLines s := ⟨rfl, rfl, fun _ => rfl, fun _ => rfl, fun _ _ => rfl⟩

theorem State.SameLines.trans {s t u : State} (h : s.SameLines t) (g : t.SameLines u) : s.SameLines u :=
  ⟨g.sec.trans h.sec, g.poison.trans h.poison, fun i => (g.map i).trans (h.map i), fun i => (g.chan i).trans (h.chan i),
    fun o ho => (g.region o ho).trans (h.region o ho)⟩

theorem State.SameLines.spared {s t : State} (h : s.SameLines t) : t.spared = s.spared := by
  unfold State.spared State.flag; rw [h.map]

theorem State.SameLines.stackOf {s t : State} (h : s.SameLines t) (a : Nat) : t.stackOf a = s.stackOf a := by
  unfold State.stackOf; rw [h.spared]

theorem State.SameLines.hbmchOf {s t : State} (h : s.SameLines t) (a : Nat) : t.hbmchOf a = s.hbmchOf a := by
  unfold State.hbmchOf State.chanOf State.fld; simp only [h.stackOf, h.spared, h.map]

theorem find?_congr {α : Type} {l : List α} {f g : α → Bool} (h : ∀ x ∈ l, f x = g x) : l.find? f = l.find? g := by
  induction l with
  | nil => rfl
  | cons a l ih =>
    rw [List.find?_cons, List.find?_cons, h a (by simp), ih fun x hx => h x (by simp [hx])]

theorem State.SameLines.regionSlot {s t : State} (h : s.SameLines t) (a : Nat) : t.regionSlot a = s.regionSlot a := by
  unfold State.regionSlot
  have hr : ∀ r ∈ upTo 16, t.rd rSecRegion 0 (16 * r) = s.rd rSecRegion 0 (16 * r) ∧
      t.rd rSecRegion 0 (16 * r + 8) = s.rd rSecRegion 0 (16 * r + 8) := fun r hr => by
    have : r < 16 := by simpa [upTo] using hr
    exact ⟨h.region _ (by omega), h.region _ (by omega)⟩
  rw [find?_congr (g := fun r =>
    bitOf (s.rd rSecRegion 0 (16 * r + 8)) 63 && decide (bitsOf (s.rd rSecRegion 0 (16 * r)) 43 20 * 2 ^ 20 ≤ a) &&
      decide (a < bitsOf (s.rd rSecRegion 0 (16 * r + 8)) 43 20 * 2 ^ 20))
    (fun r hr' => by dsimp only; rw [(hr r hr').1, (hr r hr').2])]
  cases hf : (upTo 16).find? _ with
  | none => rfl
  | some r => simp only [Option.map_some]; rw [(hr r (List.mem_of_find?_eq_some hf)).2]

theorem State.SameLines.lineState {s t : State} (h : s.SameLines t) (a : Nat) : t.lineState a = s.lineState a := by
  unfold State.lineState State.fld
  rw [h.hbmchOf, h.chan, h.regionSlot, h.sec, h.poison]

/-- Two states that agree on the lines, and on the key and the stored bytes of a line, read the same there. -/
theorem State.SameLines.peek {s t : State} (h : s.SameLines t) {a : Nat}
    (hm : ∀ y, y / 64 = a / 64 → SMap.get 0#8 t.mem y = SMap.get 0#8 s.mem y)
    (hk : SMap.get 0 t.lineKey (a / 64) = SMap.get 0 s.lineKey (a / 64)) : t.peek a = s.peek a := by
  have hl : t.storedLine (a / 64) = s.storedLine (a / 64) := by
    unfold State.storedLine
    refine List.map_congr_left fun i hi => ?_
    have : i < 64 := by simpa [upTo] using hi
    rw [hm _ (by omega)]
  unfold State.peek; rw [h.lineState, hm a rfl, hk, hl]

/-! ### Raw writes -/

/-- The stored bytes after a run of raw writes. -/
theorem State.mem_pokeBytes (s : State) (a : Nat) (bs : List Byte) (x : Nat) :
    SMap.get 0#8 (s.pokeBytes a bs).mem x =
      if a ≤ x ∧ x < a + bs.length then bs.getD (x - a) 0#8 else SMap.get 0#8 s.mem x := by
  induction bs generalizing s a with
  | nil => simp [State.pokeBytes] <;> omega
  | cons b bs ih =>
    unfold State.pokeBytes
    rw [ih, State.mem_pokeRaw]
    simp only [List.length_cons]
    by_cases h1 : x = a
    · subst h1; rw [if_neg (by omega), if_pos rfl, if_pos (by omega)]; simp
    · by_cases h2 : a + 1 ≤ x ∧ x < a + 1 + bs.length
      · rw [if_pos h2, if_pos (by omega)]
        obtain ⟨d, hd⟩ : ∃ d, x = a + 1 + d := ⟨x - (a + 1), by omega⟩
        subst hd
        rw [show a + 1 + d - (a + 1) = d by omega, show a + 1 + d - a = d + 1 by omega]; rfl
      · rw [if_neg h2, if_neg h1, if_neg (by omega)]

/-! ### Lines -/

/-- Every byte of a line has the state of its line. -/
theorem State.lineState_line (s : State) {a x : Nat} (h : x / 64 = a / 64) : s.lineState x = s.lineState a := by
  have h512 : x / 512 = a / 512 := by omega
  have hl : llmBase ≤ x ↔ llmBase ≤ a := by simp only [llmBase]; omega
  have hst : s.stackOf x = s.stackOf a := by unfold State.stackOf; rw [h512]
  have hc : s.hbmchOf x = s.hbmchOf a := by unfold State.hbmchOf State.chanOf; rw [h512, hst]
  have hr : s.regionSlot x = s.regionSlot a := by
    unfold State.regionSlot
    congr 1
    refine find?_congr fun r _ => ?_
    have h1 : ∀ b : Nat, (b * 2 ^ 20 ≤ x) = (b * 2 ^ 20 ≤ a) := fun b => by apply propext; omega
    have h2 : ∀ b : Nat, (x < b * 2 ^ 20) = (a < b * 2 ^ 20) := fun b => by apply propext; omega
    simp only [h1, h2]
  unfold State.lineState
  simp only [hl, hc, hr, h]

theorem State.lineState_llm (s : State) {a : Nat} (h : llmBase ≤ a) : s.lineState a = .plain 0 := by
  unfold State.lineState; rw [if_pos h]

theorem State.pinLine_same (s : State) (a n : Nat) :
    s.SameLines (s.pinLine a n) ∧ (s.pinLine a n).mem = s.mem ∧ (s.pinLine a n).lineKey = s.lineKey := by
  have hb : ∀ (r : Reg) (t : State), (r = rHbmchAlleyLines ∨ r = rHbmchAlleyFull) → s.SameLines t →
      ∀ i, s.SameLines (t.bump r 1 i) := by
    intro r t hr ht i
    refine ht.trans ⟨rfl, rfl, fun j => ?_, fun j => ?_, fun o ho => ?_⟩ <;>
    · refine State.rd_bump_off _ ?_
      obtain rfl | rfl := hr <;> dsimp only <;> omega
  have hp : ∀ (f : Nat) (c : Cal), s.SameLines { s with fresh := f, cal := c } := fun f c =>
    ⟨rfl, rfl, fun _ => rfl, fun _ => rfl, fun _ _ => rfl⟩
  unfold State.pinLine
  split
  · dsimp only
    split
    · exact ⟨hb _ s (.inr rfl) (.refl s) _, rfl, rfl⟩
    · split
      · exact ⟨hp s.fresh _, rfl, rfl⟩
      · split
        · exact ⟨.refl s, rfl, rfl⟩
        · split
          · exact ⟨hb _ _ (.inl rfl) (hp _ _) _, rfl, rfl⟩
          · exact ⟨hb _ s (.inr rfl) (.refl s) _, rfl, rfl⟩
  · exact ⟨.refl s, rfl, rfl⟩

theorem State.pokeBytes_same (s : State) (a : Nat) (bs : List Byte) :
    s.SameLines (s.pokeBytes a bs) ∧ (s.pokeBytes a bs).lineKey = s.lineKey := by
  induction bs generalizing s a with
  | nil => exact ⟨.refl s, rfl⟩
  | cons b bs ih =>
    have h := ih (s.pokeRaw a b) (a + 1)
    exact ⟨State.SameLines.trans (t := s.pokeRaw a b) ⟨rfl, rfl, fun _ => rfl, fun _ => rfl, fun _ _ => rfl⟩ h.1, h.2⟩

/-- The byte at an offset of what `peekN` reads. -/
theorem State.getD_peekN (s : State) (a n i : Nat) (h : i < n) : (s.peekN a n).getD i 0#8 = s.peek (a + i) := by
  simp [State.peekN, upTo, h]

@[simp] theorem State.length_peekN (s : State) (a n : Nat) : (s.peekN a n).length = n := by simp [State.peekN, upTo]

/-- Writing bytes of a plain line: those bytes read back, every other byte reads as before, no line changes its state. -/
theorem State.storeLine_plain (s : State) {a k : Nat} {bs : List Byte} (hl : a % 64 + bs.length ≤ 64)
    (hp : s.lineState a = .plain k) : s.SameLines (s.storeLine a bs) ∧
      ∀ x, (s.storeLine a bs).peek x = if a ≤ x ∧ x < a + bs.length then bs.getD (x - a) 0#8 else s.peek x := by
  unfold State.storeLine
  split
  · next h =>
    have hs := s.pokeBytes_same a bs
    refine ⟨hs.1, fun x => ?_⟩
    split
    · next hx =>
      have h1 : llmBase ≤ x := by omega
      unfold State.peek
      rw [State.lineState_llm _ h1, State.mem_pokeBytes, if_pos hx]
      simp [h1]
    · next hx =>
      by_cases h1 : llmBase ≤ x
      · unfold State.peek
        rw [State.lineState_llm _ h1, State.lineState_llm _ h1, State.mem_pokeBytes, if_neg hx]
        simp [h1]
      · refine hs.1.peek (fun y hy => ?_) (by rw [hs.2])
        rw [State.mem_pokeBytes, if_neg]
        simp only [llmBase] at h h1; omega
  · next h =>
    rw [hp]
    dsimp only
    have key : ∀ s1 : State, s.SameLines s1 → SMap.get 0 s1.lineKey (a / 64) = k →
        (∀ x, x / 64 ≠ a / 64 → SMap.get 0 s1.lineKey (x / 64) = SMap.get 0 s.lineKey (x / 64)) →
        (∀ x, x / 64 ≠ a / 64 → SMap.get 0#8 s1.mem x = SMap.get 0#8 s.mem x) →
        (∀ x, x / 64 = a / 64 → SMap.get 0#8 s1.mem x = s.peek x) →
        s.SameLines ((s1.pokeBytes a bs).pinLine a bs.length) ∧
          ∀ x, ((s1.pokeBytes a bs).pinLine a bs.length).peek x =
            if a ≤ x ∧ x < a + bs.length then bs.getD (x - a) 0#8 else s.peek x := by
      intro s1 h1 hk hk' hm hm'
      have h2 := s1.pokeBytes_same a bs
      have h3 := (s1.pokeBytes a bs).pinLine_same a bs.length
      have hs := (h1.trans h2.1).trans h3.1
      refine ⟨hs, fun x => ?_⟩
      by_cases hx : x / 64 = a / 64
      · have hlx : ¬ llmBase ≤ x := by simp only [llmBase] at h ⊢; omega
        have hb : ((s1.pokeBytes a bs).pinLine a bs.length).peek x = SMap.get 0#8 (s1.pokeBytes a bs).mem x := by
          unfold State.peek
          rw [hs.lineState, s.lineState_line hx, hp, h3.2.1, h3.2.2, h2.2, hx, hk, if_neg hlx]
          simp
        rw [hb, State.mem_pokeBytes]
        split
        · rfl
        · exact hm' x hx
      · rw [if_neg (by omega)]
        refine hs.peek ?_ ?_
        · intro y hy; rw [h3.2.1, State.mem_pokeBytes, if_neg (by omega)]; exact hm y (by omega)
        · rw [h3.2.2, h2.2]; exact hk' x hx
    split
    · next hkey =>
      refine key s (.refl s) hkey (fun _ _ => rfl) (fun _ _ => rfl) fun x hx => ?_
      have hlx : ¬ llmBase ≤ x := by simp only [llmBase] at h ⊢; omega
      unfold State.peek
      rw [s.lineState_line hx, hp, hx, hkey, if_neg hlx]
      simp
    · next hkey =>
      have h2 := State.pokeBytes_same { s with lineKey := SMap.set 0 s.lineKey (a / 64) k } (64 * (a / 64))
        (s.peekN (64 * (a / 64)) 64)
      have h0 : s.SameLines { s with lineKey := SMap.set 0 s.lineKey (a / 64) k } :=
        ⟨rfl, rfl, fun _ => rfl, fun _ => rfl, fun _ _ => rfl⟩
      refine key _ (h0.trans h2.1) ?_ ?_ ?_ ?_
      · rw [h2.2]; exact SMap.get_set_same _ _ _ _
      · intro x hx; rw [h2.2]; exact SMap.get_set_ne _ _ _ _ hx
      · intro x hx; rw [State.mem_pokeBytes, State.length_peekN, if_neg (by omega)]
      · intro x hx
        rw [State.mem_pokeBytes, State.length_peekN, if_pos (by omega), State.getD_peekN _ _ _ _ (by omega)]
        congr 1; omega

end Sys2Proof.Machine
end

