-- ==== Sys2Proof/Laws/Core.lean ====
section
/-!
SUPPORT. What fetching and issuing an instruction of a core does, said once: the effect runs on the node as issued, which differs
from the node before only in the thread's cycles, the caches and what accesses count (R12, R122, R123, R134, R153).
-/

namespace Sys2Proof.Machine

/-- A thread that can run the instruction of word `w` carries its effect out on the node as issued. -/
theorem State.coreExec_canRun {s : State} {t : Fin 512} {w ign : Nat} (h : s.canRun t w ign) (k : State → State) :
    s.coreExec t w ign k = k (s.issued t) := by
  obtain ⟨h1, h2, h3, h4, h5, h6⟩ := h
  simp [State.coreExec, State.issued, h1, h2, h3, h4, h5, h6]

/-- Nothing differs but the caches, what accesses count and which free values are used up. -/
def counted (s u : State) : Prop := u = { s with fresh := u.fresh, dir := u.dir, regs := u.regs } ∧ onlyCounts s u

theorem counted_refl (s : State) : counted s s := ⟨rfl, fun _ _ => rfl, fun _ => rfl⟩

theorem counted_trans {s t u : State} (h : counted s t) (g : counted t u) : counted s u := by
  refine ⟨?_, fun k hk => (g.2.1 k hk).trans (h.2.1 k hk), fun i => (g.2.2 i).trans (h.2.2 i)⟩
  rw [g.1, h.1]

theorem counted_foldl {α : Type} {f : State → α → State} (hf : ∀ t a, counted t (f t a)) (l : List α) (s : State) :
    counted s (l.foldl f s) := by
  induction l generalizing s with
  | nil => exact counted_refl s
  | cons a l ih => exact counted_trans (hf s a) (ih (f s a))

/-- A register that accesses count in is one of the list, whatever its instance. -/
theorem countReg_key {ty off : Nat} (h : (ty, off) ∈ ([(0x14, 0x088), (0x14, 0x090), (0x15, 0x0B0), (0x16, 0x090), (0x16, 0x098),
    (0x18, 0x098), (0x19, 0x090), (0x19, 0x0A0), (0x19, 0x0AC), (0x19, 0x0B0), (0x1A, 0x088)] : List (Nat × Nat)))
    {i : Nat} (hi : i < 512) : countReg (regKey ty i off) = true := by
  have ho : off < 4096 := by
    simp only [List.mem_cons, Prod.mk.injEq, List.not_mem_nil, or_false] at h; omega
  have h1 : regKey ty i off / 4096 / 512 = ty := by unfold regKey; omega
  have h2 : regKey ty i off % 4096 = off := by unfold regKey; omega
  unfold countReg
  rw [h1, h2]
  exact List.contains_iff_mem.mpr h

/-- A write to a register that accesses count in; of HBMCH_CAL_STAT only the bits from 24 up may differ. -/
theorem counted_wr (s : State) (r : Reg) (v i : Nat) (hr : countReg (regKey r.ty i r.off) = true)
    (hc : r.off % 4096 ≠ 0x0A0 ∨ r = rHbmchCalStat ∧ v % 2 ^ 24 = s.rd r i % 2 ^ 24) : counted s (s.wr r v i) := by
  refine ⟨rfl, fun k hk => s.regGet_regSet_ne _ fun e => ?_, fun j => ?_⟩
  · subst e; rw [show r.off + 0 = r.off from rfl, hr] at hk; exact absurd hk (by decide)
  · rw [s.rd_wr]
    split
    · next e =>
      rcases hc with hc | ⟨rfl, hv⟩
      · have := congrArg (· % 4096) e
        simp only [regKey_mod] at this
        simp at this; omega
      · have : j = i := by unfold regKey at e; omega
        subst this
        have : v % 2 ^ 64 % 2 ^ 24 = v % 2 ^ 24 := Nat.mod_mod_of_dvd _ ⟨2 ^ 40, rfl⟩
        rw [this, hv]
    · rfl

theorem counted_bump (s : State) (r : Reg) (n i : Nat) (hr : countReg (regKey r.ty i r.off) = true) (hc : r.off % 4096 ≠ 0x0A0) :
    counted s (s.bump r n i) := counted_wr s r _ i hr (.inl hc)

theorem counted_bump64 (s : State) (r : Reg) (n i : Nat) (hr : countReg (regKey r.ty i r.off) = true) (hc : r.off % 4096 ≠ 0x0A0) :
    counted s (s.bump64 r n i) := counted_wr s r _ i hr (.inl hc)

/-- A free value leaves the node but for the count of those used. -/
theorem counted_free (s : State) (u : Nat) : counted s (s.free u).2 := ⟨rfl, fun _ _ => rfl, fun _ => rfl⟩

/-! ### Instances -/

theorem State.stackOf_lt (s : State) (a : Nat) : s.stackOf a < 16 := by
  unfold State.stackOf
  dsimp only
  split
  · exact Nat.xor_lt_two_pow (n := 4) (Nat.xor_lt_two_pow (n := 4) (by omega) (by omega)) (by omega)
  · omega

theorem ite_lt {c : Prop} [Decidable c] {x y n : Nat} (hx : x < n) (hy : y < n) : (if c then x else y) < n := by
  split <;> assumption

theorem State.chanOf_lt (s : State) {a : Nat} (h : a < llmBase) : s.chanOf a < 32 := by
  have ha : a < 2 ^ 43 := h
  have hb : ∀ v hi lo, bitsOf v hi lo < 2 ^ (hi + 1 - lo) := fun v hi lo => Nat.mod_lt _ (Nat.two_pow_pos _)
  unfold State.chanOf
  dsimp only
  split
  · have h1 : s.fld rHbmcMap 4 0 (s.stackOf a) < 32 := hb _ 4 0
    have hj : (if 62 ≤ a / 512 % 992 / 16 + a / 512 / 992 % 62 then a / 512 % 992 / 16 + a / 512 / 992 % 62 - 62
      else a / 512 % 992 / 16 + a / 512 / 992 % 62) < 62 := by split <;> omega
    generalize (if 62 ≤ a / 512 % 992 / 16 + a / 512 / 992 % 62 then a / 512 % 992 / 16 + a / 512 / 992 % 62 - 62
      else a / 512 % 992 / 16 + a / 512 / 992 % 62) = j at hj
    have h2 : (if j / 2 < s.fld rHbmcMap 4 0 (s.stackOf a) then j / 2 else j / 2 + 1) < 32 := by split <;> omega
    exact ite_lt h1 h2
  · have : (a / 512 % 1024) ^^^ (((a / 512 / 1024 % 1024) ^^^ (a / 512 / 1024 / 1024 % 1024)) ^^^ (a / 512 / 1024 / 2 ^ 20)) < 2 ^ 10 :=
      Nat.xor_lt_two_pow (by omega) (Nat.xor_lt_two_pow (Nat.xor_lt_two_pow (by omega) (by omega)) (by omega))
    omega

theorem State.hbmchOf_lt (s : State) {a : Nat} (h : a < llmBase) : s.hbmchOf a < 512 := by
  have := s.stackOf_lt a
  have := s.chanOf_lt h
  unfold State.hbmchOf; omega

/-! ### Reads -/

theorem counted_noteLine (s : State) (a : Nat) : counted s (s.noteLine a) := by
  unfold State.noteLine
  rcases Nat.lt_or_ge a llmBase with h | h
  · have h1 := s.stackOf_lt a
    have h2 := s.hbmchOf_lt h
    split
    · exact counted_refl s
    · exact counted_bump s _ _ _ (countReg_key (by decide) (by omega)) (by decide)
    · exact counted_bump s _ _ _ (countReg_key (by decide) h2) (by decide)
    · exact counted_bump s _ _ _ (countReg_key (by decide) h2) (by decide)
  · rw [s.lineState_llm h]; exact counted_refl s

theorem withBits_low (v x : Nat) : withBits v 31 24 x % 2 ^ 24 = v % 2 ^ 24 := by
  unfold withBits bitsOf
  have : v / 2 ^ 24 % 2 ^ (31 + 1 - 24) * 2 ^ 24 ≤ v := by omega
  omega

theorem counted_noteWait (s : State) (a n : Nat) : counted s (s.noteWait a n) := by
  unfold State.noteWait
  by_cases hr : s.retraining a = true
  · rw [if_pos hr]
    have ha : a < llmBase := by
      unfold State.retraining at hr; simp only [Bool.and_eq_true, decide_eq_true_eq] at hr; exact hr.1.1
    have hch := s.hbmchOf_lt ha
    have hw : ∀ (t : State) (v : Nat), counted t (t.setFld rHbmchCalStat 31 24 v (s.hbmchOf a)) := fun t v =>
      counted_wr t rHbmchCalStat _ _ (countReg_key (by decide) hch) (.inr ⟨rfl, withBits_low _ _⟩)
    dsimp only
    split
    · exact hw s _
    split
    · split
      · exact counted_refl s
      · exact hw s _
    split
    · exact counted_refl s
    split
    · exact counted_free s _
    · exact counted_trans (counted_free s 56) (hw _ _)
  · rw [if_neg hr]; exact counted_refl s

theorem counted_noteLlm (s : State) (a : Nat) : counted s (s.noteLlm a) := by
  unfold State.noteLlm
  by_cases h : llmBase ≤ a ∨ s.rd rLlmRegMode (s.stackOf a / 4) % 2 ^ 16 = 0xFFFF
  · exact (if_pos h).symm ▸ counted_refl s
  · have := s.stackOf_lt a
    refine (if_neg h).symm ▸ counted_trans (counted_free s 48) ?_
    split
    · exact counted_bump64 _ _ _ _ (countReg_key (by decide) (by omega)) (by decide)
    · exact counted_bump64 _ _ _ _ (countReg_key (by decide) (by omega)) (by decide)

theorem counted_noteRead (s : State) (a n : Nat) : counted s (s.noteRead a n) :=
  counted_trans (counted_trans (counted_noteLine s a) (counted_noteWait _ a n)) (counted_noteLlm _ a)

theorem counted_cacheFill (s : State) (core line : Nat) : counted s (s.cacheFill core line) := by
  unfold State.cacheFill
  dsimp only
  split <;> exact ⟨rfl, fun _ _ => rfl, fun _ => rfl⟩

/-- A read of a core leaves local memory and the node but for the caches and what reads count. -/
theorem counted_coreRead (s : State) (core a n : Nat) : counted s (s.coreRead core a n).2 := by
  unfold State.coreRead
  refine counted_foldl (fun t p => ?_) _ s
  split
  · exact counted_noteLine t _
  · exact counted_trans (counted_noteRead t _ _) (counted_cacheFill _ _ _)

/-- Fetching and issuing an instruction leaves the node but for the thread's cycles, the caches and what accesses count. -/
theorem State.issued_only (s : State) (t : Fin 512) : onlyIssued s (s.issued t) t := by
  unfold State.issued State.issueCycle
  dsimp only
  have h1 := counted_coreRead s (t.val / 8) (s.thread t.val).pc.toNat 4
  generalize (s.coreRead (t.val / 8) (s.thread t.val).pc.toNat 4).2 = r at h1
  have h2 := counted_trans (counted_trans h1 (counted_free r 53))
    (counted_bump64 (r.free 53).2 rCoreBusyCyc ((r.free 53).1 % 2) (t.val / 8) (countReg_key (by decide) (by omega)) (by decide))
  generalize ((r.free 53).2.bump64 rCoreBusyCyc ((r.free 53).1 % 2) (t.val / 8)) = q at h2
  have hth : ∀ k, q.thread k = s.thread k := fun k => by unfold State.thread; rw [h2.1]
  refine ⟨?_, ⟨h2.2.1, h2.2.2⟩, fun k hk => ?_, ?_, ?_⟩
  · show ({ q with threads := _ } : State) = _
    rw [h2.1]; rfl
  · rw [State.thread_onThread_ne _ _ hk, hth]
  · rw [State.thread_onThread_same, hth]
  · rw [State.thread_onThread_same, hth]
    show _ < (s.thread t.val).cycles + 1 + (r.free 53).1 / 2
    omega

end Sys2Proof.Machine
end

