-- ==== Sys2Proof/Laws/KeepBase.lean ====
section
/-!
SUPPORT. One lemma for each operation of the register file, local memory, the adder lanes, the switch, the fabric port, the ledger and the notices: it keeps the queue of
waiting commands and the canonical form of local memory, and each command answers a next state.
-/

namespace Sys2Proof.Machine

variable {p : List Instr} {b : Bool}

theorem State.regSet_keeps {s : State} {key : Nat} {v : Word} (h : s.Keeps p b) : (State.regSet s key v).Keeps p b := by
  unfold State.regSet
  repeat' (with_reducible first | assumption | apply keeps_ite | split | (apply keeps_mk; first  | assumption))

theorem State.wr_keeps {s : State} {r : Reg} {v : Nat} {i : Nat} {o : Nat} (h : s.Keeps p b) : (State.wr s r v i o).Keeps p b := by
  unfold State.wr
  repeat' (with_reducible first | assumption | apply State.regSet_keeps)

theorem State.bump64_keeps {s : State} {r : Reg} {n : Nat} {i : Nat} (h : s.Keeps p b) : (State.bump64 s r n i).Keeps p b := by
  unfold State.bump64
  repeat' (with_reducible first | assumption | apply State.wr_keeps)

theorem State.free_keeps {s : State} {use : Nat} (h : s.Keeps p b) : (((State.free s use)).2).Keeps p b := by
  unfold State.free
  repeat' (with_reducible first | assumption | apply keeps_ite | split | (apply keeps_mk; first  | assumption))

theorem State.bumpFree_keeps {s : State} {r : Reg} {use : Nat} {i : Nat} (h : s.Keeps p b) : (State.bumpFree s r use i).Keeps p b := by
  unfold State.bumpFree
  repeat' (with_reducible first | assumption | apply State.bump64_keeps | apply State.free_keeps)

theorem State.emit_keeps {s : State} {m : OutMsg} (h : s.Keeps p b) : (State.emit s m).Keeps p b := by
  unfold State.emit
  repeat' (with_reducible first | assumption | apply keeps_ite | split | (apply keeps_mk; first  | assumption))

theorem State.msix_keeps {s : State} {v : Nat} (h : s.Keeps p b) : (State.msix s v).Keeps p b := by
  unfold State.msix
  repeat' (with_reducible first
    | assumption | apply State.emit_keeps | apply keeps_ite | split
    | (apply keeps_mk; first  | assumption | apply State.emit_keeps))

theorem State.setHdr_keeps {s : State} {ty : Nat} {inst : Nat} {off : Nat} {v : Nat} (h : s.Keeps p b) :
    (State.setHdr s ty inst off v).Keeps p b := by
  unfold State.setHdr
  repeat' (with_reducible first | assumption | apply State.regSet_keeps)

theorem State.intEdge_keeps {s : State} {s1 : State} (h : s.Keeps p b) (h2 : s1.Keeps p b) : (State.intEdge s s1).Keeps p b := by
  unfold State.intEdge
  repeat' (with_reducible first | assumption | apply State.setHdr_keeps | apply State.msix_keeps | apply keeps_ite | split)

theorem State.setInt_keeps {s : State} {ty : Nat} {inst : Nat} {bits : Nat} (h : s.Keeps p b) :
    (State.setInt s ty inst bits).Keeps p b := by
  unfold State.setInt
  repeat' (with_reducible first | assumption | apply State.intEdge_keeps | apply State.setHdr_keeps)

theorem State.refuse_keeps {s : State} {ty : Nat} {inst : Nat} {code : Nat} {info0 : Nat} {info1 : Nat} (h : s.Keeps p b) :
    (State.refuse s ty inst code info0 info1).Keeps p b := by
  unfold State.refuse
  repeat' (with_reducible first | assumption | apply State.setInt_keeps | apply State.setHdr_keeps)

theorem State.raise_keeps {s : State} {ty : Nat} {inst : Nat} {code : Nat} {info0 : Nat} {info1 : Nat} (h : s.Keeps p b) :
    (State.raise s ty inst code info0 info1).Keeps p b := by
  unfold State.raise
  repeat' (with_reducible first | assumption | apply State.refuse_keeps | apply keeps_ite | split)

theorem State.freeBytes_keeps {s : State} {use : Nat} {n : Nat} (h : s.Keeps p b) : (((State.freeBytes s use n)).2).Keeps p b := by
  unfold State.freeBytes
  repeat' (with_reducible first | assumption | apply keeps_ite | split | (apply keeps_mk; first  | assumption))

theorem State.setFlag_keeps {s : State} {r : Reg} {x2 : Nat} {v : Bool} {i : Nat} (h : s.Keeps p b) :
    (State.setFlag s r x2 v i).Keeps p b := by
  unfold State.setFlag
  repeat' (with_reducible first | assumption | apply State.wr_keeps)

theorem State.bump_keeps {s : State} {r : Reg} {n : Nat} {i : Nat} (h : s.Keeps p b) : (State.bump s r n i).Keeps p b := by
  unfold State.bump
  repeat' (with_reducible first | assumption | apply State.wr_keeps)

theorem State.wrAll_keeps {s : State} {r : Reg} {v : Nat} {x3 : Nat} (h : s.Keeps p b) : (State.wrAll s r v x3).Keeps p b := by
  induction x3 generalizing s with
  | zero => exact h
  | succ n ih =>
  unfold State.wrAll
  try dsimp only
  repeat' (with_reducible first
    | assumption | apply ih | apply State.wr_keeps | apply keeps_foldl | apply keeps_foldl_fst | apply keeps_foldl_snd | apply keeps_ite | apply goes_ite | apply keeps_ite_fst | apply keeps_ite_snd | apply keeps_ite_mid | apply goes_next
    | (apply keeps_mk; first | assumption | apply ih | apply State.wr_keeps | apply keeps_foldl | apply keeps_foldl_fst | apply keeps_foldl_snd | apply keeps_ite | apply goes_ite | apply keeps_ite_fst | apply keeps_ite_snd | apply keeps_ite_mid | (split <;> first | done | (rename_i heq; obtain ⟨rfl, rfl⟩ := pair_eq heq) | (rename_i heq; obtain ⟨rfl, rfl, rfl⟩ := triple_eq heq) | skip))
    | intro _ _ _ | dsimp only |  (split <;> first | done | (rename_i heq; obtain ⟨rfl, rfl⟩ := pair_eq heq) | (rename_i heq; obtain ⟨rfl, rfl, rfl⟩ := triple_eq heq) | skip))

theorem State.setFld_keeps {s : State} {r : Reg} {hi : Nat} {lo : Nat} {v : Nat} {i : Nat} (h : s.Keeps p b) :
    (State.setFld s r hi lo v i).Keeps p b := by
  unfold State.setFld
  repeat' (with_reducible first | assumption | apply State.wr_keeps)

theorem State.dropCopyOf_keeps {s : State} {core : Nat} {line : Nat} (h : s.Keeps p b) : (State.dropCopyOf s core line).Keeps p b := by
  unfold State.dropCopyOf
  repeat' (with_reducible first | assumption | apply keeps_ite | split | (apply keeps_mk; first  | assumption))

theorem State.cacheFill_keeps {s : State} {core : Nat} {line : Nat} (h : s.Keeps p b) : (State.cacheFill s core line).Keeps p b := by
  unfold State.cacheFill
  repeat' (with_reducible first
    | assumption | apply State.free_keeps | apply State.dropCopyOf_keeps | apply keeps_ite
    | (apply keeps_mk; first  | assumption | apply State.free_keeps | apply State.dropCopyOf_keeps | split) | split
    | dsimp only | intro _ _ _ | intro _ _)

theorem State.snoop_keeps {s : State} {by_ : Option Nat} {line : Nat} (h : s.Keeps p b) : (State.snoop s by_ line).Keeps p b := by
  unfold State.snoop
  repeat' (with_reducible first
    | assumption | apply State.bump64_keeps | apply keeps_ite | split
    | (apply keeps_mk; first  | assumption | apply State.bump64_keeps))

theorem State.pokeRaw_keeps {s : State} {a : Nat} {x2 : Byte} (h : s.Keeps p b) :
    (State.pokeRaw s a x2).Keeps p b := ⟨h.1, fun hb => SMap.wf_set _ (h.2 hb)⟩

theorem State.pokeBytes_keeps {s : State} {x1 : Nat} {x2 : List Byte} (h : s.Keeps p b) : (State.pokeBytes s x1 x2).Keeps p b := by
  induction x2 generalizing s x1 with
  | nil => exact h
  | cons y ys ih =>
  unfold State.pokeBytes
  try dsimp only
  repeat' (with_reducible first
    | assumption | apply ih | apply State.pokeRaw_keeps | apply keeps_foldl | apply keeps_foldl_fst | apply keeps_foldl_snd | apply keeps_ite | apply goes_ite | apply keeps_ite_fst | apply keeps_ite_snd | apply keeps_ite_mid | apply goes_next
    | (apply keeps_mk; first | assumption | apply ih | apply State.pokeRaw_keeps | apply keeps_foldl | apply keeps_foldl_fst | apply keeps_foldl_snd | apply keeps_ite | apply goes_ite | apply keeps_ite_fst | apply keeps_ite_snd | apply keeps_ite_mid | (split <;> first | done | (rename_i heq; obtain ⟨rfl, rfl⟩ := pair_eq heq) | (rename_i heq; obtain ⟨rfl, rfl, rfl⟩ := triple_eq heq) | skip))
    | intro _ _ _ | dsimp only |  (split <;> first | done | (rename_i heq; obtain ⟨rfl, rfl⟩ := pair_eq heq) | (rename_i heq; obtain ⟨rfl, rfl, rfl⟩ := triple_eq heq) | skip))

theorem State.noteLine_keeps {s : State} {a : Nat} (h : s.Keeps p b) : (State.noteLine s a).Keeps p b := by
  unfold State.noteLine
  repeat' (with_reducible first | assumption | apply State.bump_keeps | apply keeps_ite | split)

theorem State.pinLine_keeps {s : State} {a : Nat} {n : Nat} (h : s.Keeps p b) : (State.pinLine s a n).Keeps p b := by
  unfold State.pinLine
  repeat' (with_reducible first
    | assumption | apply State.bump_keeps | apply State.free_keeps | apply keeps_ite | split
    | (apply keeps_mk; first  | assumption | apply State.bump_keeps | apply State.free_keeps))

theorem State.storeLine_keeps {s : State} {a : Nat} {bs : List Byte} (h : s.Keeps p b) : (State.storeLine s a bs).Keeps p b := by
  unfold State.storeLine
  repeat' (with_reducible first
    | assumption | apply State.pokeBytes_keeps | apply State.noteLine_keeps | apply State.pinLine_keeps | apply keeps_ite
    | (apply keeps_mk; first  | assumption | apply State.pokeBytes_keeps | apply State.noteLine_keeps | apply State.pinLine_keeps | split)
    | split | dsimp only | intro _ _ _ | intro _ _)

theorem State.noteLlm_keeps {s : State} {a : Nat} (h : s.Keeps p b) : (State.noteLlm s a).Keeps p b := by
  unfold State.noteLlm
  repeat' (with_reducible first | assumption | apply State.bump64_keeps | apply State.free_keeps | apply keeps_ite | split)

theorem State.storePieces_keeps {s : State} {by_ : Option Nat} {bs : List Byte} {a0 : Nat} {x4 : List (Nat × Nat)} (h : s.Keeps p b) :
    (State.storePieces s by_ bs a0 x4).Keeps p b := by
  induction x4 generalizing s with
  | nil => exact h
  | cons y ys ih =>
  unfold State.storePieces
  try dsimp only
  repeat' (with_reducible first
    | assumption | apply ih | apply State.snoop_keeps | apply State.storeLine_keeps | apply State.noteLlm_keeps | apply keeps_foldl | apply keeps_foldl_fst | apply keeps_foldl_snd | apply keeps_ite | apply goes_ite | apply keeps_ite_fst | apply keeps_ite_snd | apply keeps_ite_mid | apply goes_next
    | (apply keeps_mk; first | assumption | apply ih | apply State.snoop_keeps | apply State.storeLine_keeps | apply State.noteLlm_keeps | apply keeps_foldl | apply keeps_foldl_fst | apply keeps_foldl_snd | apply keeps_ite | apply goes_ite | apply keeps_ite_fst | apply keeps_ite_snd | apply keeps_ite_mid | (split <;> first | done | (rename_i heq; obtain ⟨rfl, rfl⟩ := pair_eq heq) | (rename_i heq; obtain ⟨rfl, rfl, rfl⟩ := triple_eq heq) | skip))
    | intro _ _ _ | dsimp only |  (split <;> first | done | (rename_i heq; obtain ⟨rfl, rfl⟩ := pair_eq heq) | (rename_i heq; obtain ⟨rfl, rfl, rfl⟩ := triple_eq heq) | skip))

theorem State.coreStore_keeps {s : State} {core : Nat} {a : Nat} {bs : List Byte} (h : s.Keeps p b) :
    (State.coreStore s core a bs).Keeps p b := by
  unfold State.coreStore
  repeat' (with_reducible first
    | assumption | apply State.cacheFill_keeps | apply State.storePieces_keeps | split | dsimp only | intro _ _ _
    | apply keeps_foldl)

theorem State.store_keeps {s : State} {a : Nat} {bs : List Byte} (h : s.Keeps p b) : (State.store s a bs).Keeps p b := by
  unfold State.store
  repeat' (with_reducible first | assumption | apply State.storePieces_keeps)

theorem State.zeroRange_keeps {s : State} {a : Nat} {n : Nat} (h : s.Keeps p b) :
    (State.zeroRange s a n).Keeps p b := ⟨h.1, fun hb => SMap.wf_filter _ (h.2 hb)⟩

theorem State.noteWait_keeps {s : State} {a : Nat} {n : Nat} (h : s.Keeps p b) : (State.noteWait s a n).Keeps p b := by
  unfold State.noteWait
  repeat' (with_reducible first | assumption | apply State.setFld_keeps | apply State.free_keeps | apply keeps_ite | split)

theorem State.noteRead_keeps {s : State} {a : Nat} {n : Nat} (h : s.Keeps p b) : (State.noteRead s a n).Keeps p b := by
  unfold State.noteRead
  repeat' (with_reducible first | assumption | apply State.noteLlm_keeps | apply State.noteWait_keeps | apply State.noteLine_keeps)

theorem State.noteRange_keeps {s : State} {a : Nat} {n : Nat} (h : s.Keeps p b) : (State.noteRange s a n).Keeps p b := by
  unfold State.noteRange
  repeat' (with_reducible first | assumption | apply State.noteRead_keeps | split | dsimp only | intro _ _ _ | apply keeps_foldl)

theorem State.noteOk_keeps {s : State} {a : Nat} {n : Nat} (h : s.Keeps p b) : (State.noteOk s a n).Keeps p b := by
  unfold State.noteOk
  repeat' (with_reducible first | assumption | apply State.noteRange_keeps | apply keeps_ite | split)

theorem State.fetch_keeps {s : State} {a : Nat} {n : Nat} (h : s.Keeps p b) : (((State.fetch s a n)).2).Keeps p b := by
  unfold State.fetch
  repeat' (with_reducible first | assumption | apply State.noteRange_keeps)

theorem State.oregClear_keeps {s : State} {e : Nat} (h : s.Keeps p b) : (State.oregClear s e).Keeps p b := by
  unfold State.oregClear
  repeat' (with_reducible first
    | assumption | apply State.wr_keeps | apply keeps_foldl | apply keeps_ite | apply keeps_ite_fst | apply keeps_ite_snd
    | apply keeps_ite_mid
    | (apply keeps_mk; first  | assumption | apply State.wr_keeps | apply keeps_ite | (split <;> first | done | (rename_i heq; obtain ⟨rfl, rfl⟩ := pair_eq heq) | (rename_i heq; obtain ⟨rfl, rfl, rfl⟩ := triple_eq heq) | skip))
    | dsimp only | intro _ _ _
    | (split <;> first | done | (rename_i heq; obtain ⟨rfl, rfl⟩ := pair_eq heq) | (rename_i heq; obtain ⟨rfl, rfl, rfl⟩ := triple_eq heq) | skip))

theorem State.setFolding_keeps {s : State} {x1 : Bool} (h : s.Keeps p b) : (State.setFolding s x1).Keeps p b := by
  unfold State.setFolding
  repeat' (with_reducible first | assumption | apply State.setFlag_keeps | split | dsimp only | intro _ _ _ | apply keeps_foldl)

theorem State.oregClearAll_keeps {s : State} (h : s.Keeps p b) : (State.oregClearAll s).Keeps p b := by
  unfold State.oregClearAll
  try dsimp only
  repeat' (with_reducible first
    | assumption | apply State.oregClear_keeps | apply State.setFolding_keeps | apply keeps_foldl | apply keeps_foldl_fst | apply keeps_foldl_snd | apply keeps_ite | apply goes_ite | apply keeps_ite_fst | apply keeps_ite_snd | apply keeps_ite_mid | apply goes_next
    | (apply keeps_mk; first | assumption | apply State.oregClear_keeps | apply State.setFolding_keeps | apply keeps_foldl | apply keeps_foldl_fst | apply keeps_foldl_snd | apply keeps_ite | apply goes_ite | apply keeps_ite_fst | apply keeps_ite_snd | apply keeps_ite_mid | (split <;> first | done | (rename_i heq; obtain ⟨rfl, rfl⟩ := pair_eq heq) | (rename_i heq; obtain ⟨rfl, rfl, rfl⟩ := triple_eq heq) | skip))
    | intro _ _ _ | intro _ _ | dsimp only | (split <;> first | done | (rename_i heq; obtain ⟨rfl, rfl⟩ := pair_eq heq) | (rename_i heq; obtain ⟨rfl, rfl, rfl⟩ := triple_eq heq) | skip))

theorem State.logRefuse_keeps {s : State} {e : Nat} {st : Nat} (h : s.Keeps p b) : (State.logRefuse s e st).Keeps p b := by
  unfold State.logRefuse
  repeat' (with_reducible first | assumption | apply State.raise_keeps | apply State.bump_keeps | apply keeps_ite | split)

theorem State.logPut_keeps {s : State} {e : Nat} {a : Nat} {key : Nat} {v : Nat} {bytes : Nat} {etype : Nat} (h : s.Keeps p b) :
    (State.logPut s e a key v bytes etype).Keeps p b := by
  unfold State.logPut
  repeat' (with_reducible first
    | assumption | apply State.free_keeps | apply State.store_keeps | apply State.bump_keeps | apply keeps_ite | split
    | (apply keeps_mk; first  | assumption | apply State.free_keeps | apply State.store_keeps | apply State.bump_keeps))

theorem State.blockAdd_keeps {s : State} {etype : Nat} {a : Nat} {key : Option Nat} {data : List Byte} (h : s.Keeps p b) :
    (((State.blockAdd s etype a key data)).1).Keeps p b := by
  unfold State.blockAdd
  repeat' (with_reducible first
    | assumption | apply State.logRefuse_keeps | apply State.logPut_keeps | apply State.store_keeps | apply State.bump_keeps
    | apply State.noteLine_keeps | split | dsimp only | intro _ _ _ | apply keeps_foldl)

theorem State.amoLocal_keeps {s : State} {op : AmoOp} {a : Nat} {bytes : Nat} {v : Nat} {cmp : Nat} (h : s.Keeps p b) :
    (((State.amoLocal s op a bytes v cmp)).2).Keeps p b := by
  unfold State.amoLocal
  repeat' (with_reducible first
    | assumption | apply State.bump64_keeps | apply State.store_keeps | apply State.noteWait_keeps
    | apply State.noteLine_keeps | apply keeps_ite | split)

theorem State.foldEntry_keeps {s : State} {x : OrdEntry} (h : s.Keeps p b) : (State.foldEntry s x).Keeps p b := by
  unfold State.foldEntry
  repeat' (with_reducible first | assumption | apply State.store_keeps | apply State.bump_keeps | apply State.noteLine_keeps | apply keeps_ite | split)

theorem State.foldApply_keeps {s : State} {f : Fold} (h : s.Keeps p b) : (State.foldApply s f).Keeps p b := by
  unfold State.foldApply
  try dsimp only
  repeat' (with_reducible first
    | assumption | apply State.foldEntry_keeps | apply State.wr_keeps | apply State.setFolding_keeps | apply State.bump_keeps | apply keeps_foldl | apply keeps_foldl_fst | apply keeps_foldl_snd | apply keeps_ite | apply goes_ite | apply keeps_ite_fst | apply keeps_ite_snd | apply keeps_ite_mid | apply goes_next
    | (apply keeps_mk; first | assumption | apply State.foldEntry_keeps | apply State.wr_keeps | apply State.setFolding_keeps | apply State.bump_keeps | apply keeps_foldl | apply keeps_foldl_fst | apply keeps_foldl_snd | apply keeps_ite | apply goes_ite | apply keeps_ite_fst | apply keeps_ite_snd | apply keeps_ite_mid | (split <;> first | done | (rename_i heq; obtain ⟨rfl, rfl⟩ := pair_eq heq) | (rename_i heq; obtain ⟨rfl, rfl, rfl⟩ := triple_eq heq) | skip))
    | intro _ _ _ | intro _ _ | dsimp only | (split <;> first | done | (rename_i heq; obtain ⟨rfl, rfl⟩ := pair_eq heq) | (rename_i heq; obtain ⟨rfl, rfl, rfl⟩ := triple_eq heq) | skip))

theorem State.closeStart_keeps {s : State} {e : Nat} {who : FoldBy} (h : s.Keeps p b) : (State.closeStart s e who).Keeps p b := by
  unfold State.closeStart
  repeat' (with_reducible first
    | assumption | apply State.setFolding_keeps | apply keeps_ite | split
    | (apply keeps_mk; first  | assumption | apply State.setFolding_keeps))

theorem State.oregPut_keeps {s : State} {e : Nat} {w : Nat} {v : Nat} (h : s.Keeps p b) : (State.oregPut s e w v).Keeps p b := by
  unfold State.oregPut
  repeat' (with_reducible first | assumption | apply State.wr_keeps | split | dsimp only | intro _ _ _ | apply keeps_foldl)

theorem State.syncRefresh_keeps {s : State} (h : s.Keeps p b) : (State.syncRefresh s).Keeps p b := by
  unfold State.syncRefresh
  repeat' (with_reducible first | assumption | apply State.setFlag_keeps | split | dsimp only | intro _ _ _ | apply keeps_foldl)

theorem State.syncClk_keeps {s : State} (h : s.Keeps p b) : (State.syncClk s).Keeps p b := by
  unfold State.syncClk
  repeat' (with_reducible first | assumption | apply State.syncRefresh_keeps | apply State.setFlag_keeps | apply State.wr_keeps)

theorem State.askGrant_keeps {s : State} {d : Nat} {on : Bool} (h : s.Keeps p b) : (State.askGrant s d on).Keeps p b := by
  unfold State.askGrant
  repeat' (with_reducible first
    | assumption | apply State.bump_keeps | apply keeps_ite | split
    | (apply keeps_mk; first  | assumption | apply State.bump_keeps))

theorem State.syncGrants_keeps {s : State} (h : s.Keeps p b) : (State.syncGrants s).Keeps p b := by
  unfold State.syncGrants
  repeat' (with_reducible first
    | assumption | apply State.syncClk_keeps | apply State.askGrant_keeps | split | dsimp only | intro _ _ _
    | apply keeps_foldl)

theorem State.useHbm_keeps {s : State} {u : HbmUse} (h : s.Keeps p b) : (State.useHbm s u).Keeps p b := by
  unfold State.useHbm
  repeat' (with_reducible first
    | assumption | apply State.syncGrants_keeps | apply keeps_ite | split
    | (apply keeps_mk; first  | assumption | apply State.syncGrants_keeps))

theorem State.clearPower_keeps {s : State} (h : s.Keeps p b) : (State.clearPower s).Keeps p b := by
  unfold State.clearPower
  repeat' (with_reducible first
    | assumption | apply State.syncClk_keeps | apply State.wr_keeps | apply keeps_ite | split
    | (apply keeps_mk; first  | assumption | apply State.syncClk_keeps | apply State.wr_keeps))

theorem State.dropHbm_keeps {s : State} {u : HbmUse} (h : s.Keeps p b) : (State.dropHbm s u).Keeps p b := by
  unfold State.dropHbm
  repeat' (with_reducible first
    | assumption | apply State.syncGrants_keeps | apply keeps_ite | split
    | (apply keeps_mk; first  | assumption | apply State.syncGrants_keeps))

theorem State.takeReport_keeps {s : State} {x1 : List Byte} (h : s.Keeps p b) : (State.takeReport s x1).Keeps p b := by
  unfold State.takeReport
  repeat' (with_reducible first
    | assumption | apply State.setFlag_keeps | apply State.msix_keeps | apply State.bump_keeps | apply State.wr_keeps
    | apply keeps_ite | split
    | (apply keeps_mk; first  | assumption | apply State.setFlag_keeps | apply State.msix_keeps | apply State.bump_keeps | apply State.wr_keeps))

theorem State.setJobState_keeps {s : State} {v : Nat} (h : s.Keeps p b) : (State.setJobState s v).Keeps p b := by
  unfold State.setJobState
  repeat' (with_reducible first | assumption | apply State.setFld_keeps)

theorem State.logPost_keeps {s : State} {src : Nat} {lvl : Nat} {point : Nat} {a0 : Nat} {a1 : Nat} {fine : Bool} (h : s.Keeps p b) :
    (State.logPost s src lvl point a0 a1 fine).Keeps p b := by
  unfold State.logPost
  repeat' (with_reducible first
    | assumption | apply State.bump_keeps | apply State.useHbm_keeps | apply State.setHdr_keeps | apply keeps_ite | split
    | (apply keeps_mk; first  | assumption | apply State.bump_keeps | apply State.useHbm_keeps | apply State.setHdr_keeps))

theorem State.fwLog_keeps {s : State} {fwp : Nat} {lvl : Nat} {point : Nat} {a0 : Nat} {a1 : Nat} {fine : Bool} (h : s.Keeps p b) :
    (State.fwLog s fwp lvl point a0 a1 fine).Keeps p b := by
  unfold State.fwLog
  repeat' (with_reducible first | assumption | apply State.logPost_keeps | apply keeps_ite | split)

theorem State.onPort_keeps {s : State} {x1 : Nat} {f : Port → Port} (h : s.Keeps p b) : (State.onPort s x1 f).Keeps p b := by
  unfold State.onPort
  repeat' (with_reducible first | assumption | apply keeps_ite | split | (apply keeps_mk; first  | assumption))

theorem State.sendFrame_keeps {s : State} {x1 : Nat} {bs : List Block} {flags : Nat} (h : s.Keeps p b) :
    (State.sendFrame s x1 bs flags).Keeps p b := by
  unfold State.sendFrame
  repeat' (with_reducible first | assumption | apply State.onPort_keeps | apply State.emit_keeps | apply State.bump64_keeps)

theorem State.portPump_keeps {s : State} {x1 : Nat} {x2 : Nat} (h : s.Keeps p b) : (State.portPump s x1 x2).Keeps p b := by
  induction x2 generalizing s with
  | zero => exact h
  | succ n ih =>
  unfold State.portPump
  try dsimp only
  repeat' (with_reducible first
    | assumption | apply ih | apply State.bump_keeps | apply State.onPort_keeps | apply State.sendFrame_keeps | apply keeps_foldl | apply keeps_foldl_fst | apply keeps_foldl_snd | apply keeps_ite | apply goes_ite | apply keeps_ite_fst | apply keeps_ite_snd | apply keeps_ite_mid | apply goes_next
    | (apply keeps_mk; first | assumption | apply ih | apply State.bump_keeps | apply State.onPort_keeps | apply State.sendFrame_keeps | apply keeps_foldl | apply keeps_foldl_fst | apply keeps_foldl_snd | apply keeps_ite | apply goes_ite | apply keeps_ite_fst | apply keeps_ite_snd | apply keeps_ite_mid | (split <;> first | done | (rename_i heq; obtain ⟨rfl, rfl⟩ := pair_eq heq) | (rename_i heq; obtain ⟨rfl, rfl, rfl⟩ := triple_eq heq) | skip))
    | intro _ _ _ | dsimp only |  (split <;> first | done | (rename_i heq; obtain ⟨rfl, rfl⟩ := pair_eq heq) | (rename_i heq; obtain ⟨rfl, rfl, rfl⟩ := triple_eq heq) | skip))

theorem State.portGo_keeps {s : State} {x1 : Nat} (h : s.Keeps p b) : (State.portGo s x1).Keeps p b := by
  unfold State.portGo
  repeat' (with_reducible first | assumption | apply State.portPump_keeps)

theorem State.sendPacket_keeps {s : State} {k : Packet} {x2 : Nat} (h : s.Keeps p b) : (State.sendPacket s k x2).Keeps p b := by
  unfold State.sendPacket
  repeat' (with_reducible first | assumption | apply State.portGo_keeps | apply State.emit_keeps | apply State.onPort_keeps)

theorem State.forward_keeps {s : State} {k : Packet} (h : s.Keeps p b) : (State.forward s k).Keeps p b := by
  unfold State.forward
  repeat' (with_reducible first | assumption | apply State.sendPacket_keeps | apply State.bump_keeps | apply keeps_ite | split)

theorem State.creditFrame_keeps {s : State} {x1 : Nat} (h : s.Keeps p b) : (State.creditFrame s x1).Keeps p b := by
  unfold State.creditFrame
  repeat' (with_reducible first | assumption | apply State.portGo_keeps | apply State.sendFrame_keeps | apply keeps_ite | split)

theorem State.routeClass_keeps {s : State} {target : Nat} {c : Cargo} (h : s.Keeps p b) :
    (((State.routeClass s target c)).2).Keeps p b := by
  unfold State.routeClass
  repeat' (with_reducible first | assumption | apply keeps_ite | split | (apply keeps_mk; first  | assumption))

theorem State.inject_keeps {s : State} {target : Nat} {c : Cargo} (h : s.Keeps p b) : (State.inject s target c).Keeps p b := by
  unfold State.inject
  repeat' (with_reducible first
    | assumption | apply State.sendPacket_keeps | apply State.bump_keeps | apply State.routeClass_keeps
    | apply State.forward_keeps | apply keeps_ite | split)

theorem State.relayFail_keeps {s : State} {offset : Nat} {code : Nat} (h : s.Keeps p b) : (State.relayFail s offset code).Keeps p b := by
  unfold State.relayFail
  repeat' (with_reducible first | assumption | apply State.msix_keeps | apply State.wr_keeps | apply State.bump_keeps)

theorem State.takeTag_keeps {s : State} {r : OutReq} {x : State × OutReq} (h : s.Keeps p b) (hx : s.takeTag r = some x) :
    x.1.Keeps p b := by
  unfold State.takeTag at hx
  split at hx
  · exact nomatch hx
  · cases hx; exact h

theorem State.tagFrom_keeps {s : State} {done : List OutReq} {x2 : List OutReq} (h : s.Keeps p b) :
    (State.tagFrom s done x2).Keeps p b := by
  induction x2 generalizing s done with
  | nil => exact h
  | cons y ys ih =>
    unfold State.tagFrom
    split
    · next heq =>
      refine ih (keeps_mk ?_)
      split at heq
      · exact State.takeTag_keeps h heq
      · exact nomatch heq
    · exact ih h

theorem State.relayValue_keeps {s : State} {offset : Nat} {v : Nat} (h : s.Keeps p b) : (State.relayValue s offset v).Keeps p b := by
  unfold State.relayValue
  repeat' (with_reducible first | assumption | apply keeps_ite | split | (apply keeps_mk; first  | assumption))

theorem State.systemFailed_keeps {s : State} {r : OutReq} {code : Nat} (h : s.Keeps p b) : (State.systemFailed s r code).Keeps p b := by
  unfold State.systemFailed
  repeat' (with_reducible first
    | assumption | apply State.relayValue_keeps | apply State.relayFail_keeps | apply State.bump_keeps | apply keeps_ite
    | split)

theorem State.ackSeq_keeps {s : State} {k : Nat} {seq : Nat} (h : s.Keeps p b) : (State.ackSeq s k seq).Keeps p b := by
  unfold State.ackSeq
  repeat' (with_reducible first | assumption | apply keeps_ite | split | (apply keeps_mk; first  | assumption))

theorem State.dropCopy_keeps {s : State} {r : OutReq} {c : Nat × Nat} {answered : Bool} (h : s.Keeps p b) :
    (State.dropCopy s r c answered).Keeps p b := by
  unfold State.dropCopy
  repeat' (with_reducible first
    | assumption | apply State.ackSeq_keeps | apply keeps_ite | split
    | (apply keeps_mk; first  | assumption | apply State.ackSeq_keeps))

theorem State.failSystem_keeps {s : State} {r : OutReq} {c : Nat × Nat} (h : s.Keeps p b) : (State.failSystem s r c).Keeps p b := by
  unfold State.failSystem
  repeat' (with_reducible first | assumption | apply State.systemFailed_keeps | apply State.dropCopy_keeps)

theorem State.enqueue_keeps {s : State} {r : OutReq} (h : s.Keeps p b) : (State.enqueue s r).Keeps p b := by
  unfold State.enqueue
  repeat' (with_reducible first | assumption | apply keeps_ite | split | (apply keeps_mk; first  | assumption))

theorem State.postReport_keeps {s : State} {x1 : List Byte} (h : s.Keeps p b) : (State.postReport s x1).Keeps p b := by
  unfold State.postReport
  repeat' (with_reducible first
    | assumption | apply State.takeReport_keeps | apply State.enqueue_keeps | apply keeps_ite | split
    | (apply keeps_mk; first  | assumption | apply State.takeReport_keeps | apply State.enqueue_keeps))

theorem State.declareDead_keeps {s : State} {target : Nat} (h : s.Keeps p b) : (State.declareDead s target).Keeps p b := by
  unfold State.declareDead
  repeat' (with_reducible first
    | assumption | apply State.wr_keeps | apply State.bump_keeps | apply State.raise_keeps | apply State.failSystem_keeps
    | apply State.postReport_keeps | apply State.fwLog_keeps | apply keeps_foldl | apply keeps_ite | apply keeps_ite_fst
    | apply keeps_ite_snd | apply keeps_ite_mid
    | (apply keeps_mk; first  | assumption | apply State.wr_keeps | apply State.bump_keeps | apply State.raise_keeps | apply State.failSystem_keeps | apply State.postReport_keeps | apply State.fwLog_keeps | apply keeps_ite | (split <;> first | done | (rename_i heq; obtain ⟨rfl, rfl⟩ := pair_eq heq) | (rename_i heq; obtain ⟨rfl, rfl, rfl⟩ := triple_eq heq) | skip))
    | dsimp only | intro _ _ _
    | (split <;> first | done | (rename_i heq; obtain ⟨rfl, rfl⟩ := pair_eq heq) | (rename_i heq; obtain ⟨rfl, rfl, rfl⟩ := triple_eq heq) | skip))

theorem State.targetLost_keeps {s : State} {r : OutReq} {c : Nat × Nat} (h : s.Keeps p b) : (State.targetLost s r c).Keeps p b := by
  unfold State.targetLost
  repeat' (with_reducible first | assumption | apply State.declareDead_keeps | apply State.failSystem_keeps | apply keeps_ite | split)

theorem State.issueAll_keeps {s : State} {x1 : Nat} (h : s.Keeps p b) : (State.issueAll s x1).Keeps p b := by
  induction x1 generalizing s with
  | zero => exact h
  | succ n ih =>
  unfold State.issueAll
  try dsimp only
  repeat' (with_reducible first
    | assumption | apply ih | apply State.tagFrom_keeps | apply State.targetLost_keeps | apply keeps_foldl | apply keeps_foldl_fst | apply keeps_foldl_snd | apply keeps_ite | apply goes_ite | apply keeps_ite_fst | apply keeps_ite_snd | apply keeps_ite_mid | apply goes_next
    | (apply keeps_mk; first | assumption | apply ih | apply State.tagFrom_keeps | apply State.targetLost_keeps | apply keeps_foldl | apply keeps_foldl_fst | apply keeps_foldl_snd | apply keeps_ite | apply goes_ite | apply keeps_ite_fst | apply keeps_ite_snd | apply keeps_ite_mid | (split <;> first | done | (rename_i heq; obtain ⟨rfl, rfl⟩ := pair_eq heq) | (rename_i heq; obtain ⟨rfl, rfl, rfl⟩ := triple_eq heq) | skip))
    | intro _ _ _ | dsimp only |  (split <;> first | done | (rename_i heq; obtain ⟨rfl, rfl⟩ := pair_eq heq) | (rename_i heq; obtain ⟨rfl, rfl, rfl⟩ := triple_eq heq) | skip))

theorem State.sendReq_keeps {s : State} {sys : Bool} {target : Nat} {typ : Nat} {q : Req} (h : s.Keeps p b) :
    (State.sendReq s sys target typ q).Keeps p b := by
  unfold State.sendReq
  repeat' (with_reducible first
    | assumption | apply State.inject_keeps | apply State.bump64_keeps | apply keeps_ite | split
    | (apply keeps_mk; first  | assumption | apply State.inject_keeps | apply State.bump64_keeps))

theorem State.sendCopy_keeps {s : State} {r : OutReq} {retry : Nat} {c : Nat × Nat} (h : s.Keeps p b) :
    (State.sendCopy s r retry c).Keeps p b := by
  unfold State.sendCopy
  repeat' (with_reducible first
    | assumption | apply State.sendReq_keeps | apply keeps_ite | split
    | (apply keeps_mk; first  | assumption | apply State.sendReq_keeps))

theorem State.transmit_keeps {s : State} {r : OutReq} {retry : Nat} (h : s.Keeps p b) : (State.transmit s r retry).Keeps p b := by
  unfold State.transmit
  repeat' (with_reducible first
    | assumption | apply State.sendReq_keeps | apply State.sendCopy_keeps | split | dsimp only | intro _ _ _
    | apply keeps_foldl)

theorem State.advance_keeps {s : State} {before : List OutReq} {r : OutReq} (h : s.Keeps p b) :
    (((State.advance s before r)).1).Keeps p b := by
  unfold State.advance
  repeat' (with_reducible first | assumption | apply State.bump_keeps | apply State.transmit_keeps | split | dsimp only | intro _ _ _ | apply keeps_foldl)

theorem State.pumpFrom_keeps {s : State} {done : List OutReq} {x2 : List OutReq} (h : s.Keeps p b) :
    (State.pumpFrom s done x2).Keeps p b := by
  induction x2 generalizing s done with
  | nil => exact h
  | cons y ys ih =>
  unfold State.pumpFrom
  try dsimp only
  repeat' (with_reducible first
    | assumption | apply ih | apply State.advance_keeps | apply keeps_foldl | apply keeps_foldl_fst | apply keeps_foldl_snd | apply keeps_ite | apply goes_ite | apply keeps_ite_fst | apply keeps_ite_snd | apply keeps_ite_mid | apply goes_next
    | (apply keeps_mk; first | assumption | apply ih | apply State.advance_keeps | apply keeps_foldl | apply keeps_foldl_fst | apply keeps_foldl_snd | apply keeps_ite | apply goes_ite | apply keeps_ite_fst | apply keeps_ite_snd | apply keeps_ite_mid | (split <;> first | done | (rename_i heq; obtain ⟨rfl, rfl⟩ := pair_eq heq) | (rename_i heq; obtain ⟨rfl, rfl, rfl⟩ := triple_eq heq) | skip))
    | intro _ _ _ | dsimp only |  (split <;> first | done | (rename_i heq; obtain ⟨rfl, rfl⟩ := pair_eq heq) | (rename_i heq; obtain ⟨rfl, rfl, rfl⟩ := triple_eq heq) | skip))

theorem State.pump_keeps {s : State} (h : s.Keeps p b) : (State.pump s).Keeps p b := by
  unfold State.pump
  repeat' (with_reducible first | assumption | apply State.issueAll_keeps | apply State.pumpFrom_keeps)

theorem State.issueMcast_keeps {s : State} {typ : ReqType} {o : Owner} {members : List Nat} {addr : Nat} {len : Nat} {payload : List Byte} (h : s.Keeps p b) :
    (State.issueMcast s typ o members addr len payload).Keeps p b := by
  unfold State.issueMcast
  repeat' (with_reducible first | assumption | apply State.pump_keeps | apply State.enqueue_keeps | apply keeps_ite | split)

theorem State.resetJobStreams_keeps {s : State} (h : s.Keeps p b) : (State.resetJobStreams s).Keeps p b := by
  unfold State.resetJobStreams
  repeat' (with_reducible first | assumption | apply keeps_ite | split | (apply keeps_mk; first  | assumption))

theorem State.abandonJob_keeps {s : State} (h : s.Keeps p b) : (State.abandonJob s).Keeps p b := by
  unfold State.abandonJob
  repeat' (with_reducible first | assumption | apply keeps_ite | split | (apply keeps_mk; first  | assumption))

theorem State.issue_keeps {s : State} {typ : ReqType} {o : Owner} {target : Nat} {opf : Nat} {flags : Nat} {addr : Nat} {len : Nat} {payload : List Byte} (h : s.Keeps p b) :
    (State.issue s typ o target opf flags addr len payload).Keeps p b := by
  unfold State.issue
  repeat' (with_reducible first | assumption | apply State.pump_keeps | apply State.enqueue_keeps | apply keeps_ite | split)

theorem State.readDone_keeps {s : State} {ty : Nat} {off : Nat} {bytes : Nat} (h : s.Keeps p b) :
    (State.readDone s ty off bytes).Keeps p b := by
  unfold State.readDone
  repeat' (with_reducible first
    | assumption | apply State.raise_keeps | apply keeps_ite | split
    | (apply keeps_mk; first  | assumption | apply State.raise_keeps))

theorem State.putMsg_keeps {s : State} {off : Nat} {bs : List Byte} (h : s.Keeps p b) : (State.putMsg s off bs).Keeps p b := by
  unfold State.putMsg
  repeat' (with_reducible first | assumption | apply keeps_ite | split | (apply keeps_mk; first  | assumption))

theorem State.secDone_keeps {s : State} {err : Nat} (h : s.Keeps p b) : (State.secDone s err).Keeps p b := by
  unfold State.secDone
  repeat' (with_reducible first | assumption | apply State.setInt_keeps | apply State.setFlag_keeps | apply State.wr_keeps)

theorem State.readout_keeps {s : State} (h : s.Keeps p b) : (State.readout s).Keeps p b := by
  unfold State.readout
  repeat' (with_reducible first
    | assumption | apply State.putMsg_keeps | apply State.secDone_keeps | apply State.wr_keeps | apply keeps_ite | split
    | (apply keeps_mk; first  | assumption | apply State.putMsg_keeps | apply State.secDone_keeps | apply State.wr_keeps))

theorem State.stepEnd_keeps {s : State} (h : s.Keeps p b) : (State.stepEnd s).Keeps p b := by
  unfold State.stepEnd
  repeat' (with_reducible first | assumption | apply keeps_ite | split | (apply keeps_mk; first  | assumption))

theorem State.readoutAtBoundary_keeps {s : State} (h : s.Keeps p b) : (State.readoutAtBoundary s).Keeps p b := by
  unfold State.readoutAtBoundary
  repeat' (with_reducible first | assumption | apply State.readout_keeps | apply keeps_ite | split)

theorem State.sendReport_keeps {s : State} {x1 : List Byte} (h : s.Keeps p b) : (State.sendReport s x1).Keeps p b := by
  unfold State.sendReport
  repeat' (with_reducible first | assumption | apply State.pump_keeps | apply State.postReport_keeps)

theorem State.report_keeps {s : State} {kind : Nat} {err : Nat} {subject : Nat} (h : s.Keeps p b) :
    (State.report s kind err subject).Keeps p b := by
  unfold State.report
  repeat' (with_reducible first | assumption | apply State.sendReport_keeps)

theorem State.evtInt_keeps {s : State} (h : s.Keeps p b) : (State.evtInt s).Keeps p b := by
  unfold State.evtInt
  repeat' (with_reducible first | assumption | apply State.setInt_keeps | apply State.report_keeps | apply keeps_ite | split)

theorem State.setEvents_keeps {s : State} {es : List EventRec} (h : s.Keeps p b) : (State.setEvents s es).Keeps p b := by
  unfold State.setEvents
  repeat' (with_reducible first
    | assumption | apply State.setFld_keeps | apply keeps_ite | split
    | (apply keeps_mk; first  | assumption | apply State.setFld_keeps))

theorem State.postEvent_keeps {s : State} {kind : Nat} {reason : Nat} {err : Nat} (h : s.Keeps p b) :
    (State.postEvent s kind reason err).Keeps p b := by
  unfold State.postEvent
  repeat' (with_reducible first
    | assumption | apply State.setFlag_keeps | apply State.setFld_keeps | apply State.evtInt_keeps
    | apply State.setEvents_keeps | apply keeps_ite | split
    | (apply keeps_mk; first  | assumption | apply State.setFlag_keeps | apply State.setFld_keeps | apply State.evtInt_keeps | apply State.setEvents_keeps))

theorem State.deferWake_keeps {s : State} {d : Nat} {n : Nat} (h : s.Keeps p b) : (State.deferWake s d n).Keeps p b := by
  unfold State.deferWake
  repeat' (with_reducible first
    | assumption | apply State.bump_keeps | apply State.wr_keeps | apply State.fwLog_keeps | apply State.raise_keeps
    | apply keeps_ite | split
    | (apply keeps_mk; first  | assumption | apply State.bump_keeps | apply State.wr_keeps | apply State.fwLog_keeps | apply State.raise_keeps))

theorem State.measure_keeps {s : State} {rises : List Int} {ended : List PlannedUnit} (h : s.Keeps p b) :
    (State.measure s rises ended).Keeps p b := by
  unfold State.measure
  repeat' (with_reducible first
    | assumption | apply State.bump_keeps | apply keeps_foldl | apply keeps_ite | apply keeps_ite_fst | apply keeps_ite_snd
    | apply keeps_ite_mid
    | (apply keeps_mk; first  | assumption | apply State.bump_keeps | apply keeps_ite | (split <;> first | done | (rename_i heq; obtain ⟨rfl, rfl⟩ := pair_eq heq) | (rename_i heq; obtain ⟨rfl, rfl, rfl⟩ := triple_eq heq) | skip))
    | dsimp only | intro _ _ _
    | (split <;> first | done | (rename_i heq; obtain ⟨rfl, rfl⟩ := pair_eq heq) | (rename_i heq; obtain ⟨rfl, rfl, rfl⟩ := triple_eq heq) | skip))

theorem State.driveLoadstep_keeps {s : State} {low : Nat} (h : s.Keeps p b) : (State.driveLoadstep s low).Keeps p b := by
  unfold State.driveLoadstep
  repeat' (with_reducible first
    | assumption | apply State.setFld_keeps | apply keeps_ite | split
    | (apply keeps_mk; first  | assumption | apply State.setFld_keeps))

theorem State.planOne_keeps {s : State} {w : WakeReq} {room : List Int} {x3 : Nat} (h : s.Keeps p b) :
    (((State.planOne s w room x3)).1).Keeps p b := by
  induction x3 generalizing s w room with
  | zero => exact h
  | succ n ih =>
  unfold State.planOne
  try dsimp only
  repeat' (with_reducible first
    | assumption | apply ih | apply State.deferWake_keeps | apply keeps_foldl | apply keeps_foldl_fst | apply keeps_foldl_snd | apply keeps_ite | apply goes_ite | apply keeps_ite_fst | apply keeps_ite_snd | apply keeps_ite_mid | apply goes_next
    | (apply keeps_mk; first | assumption | apply ih | apply State.deferWake_keeps | apply keeps_foldl | apply keeps_foldl_fst | apply keeps_foldl_snd | apply keeps_ite | apply goes_ite | apply keeps_ite_fst | apply keeps_ite_snd | apply keeps_ite_mid | (split <;> first | done | (rename_i heq; obtain ⟨rfl, rfl⟩ := pair_eq heq) | (rename_i heq; obtain ⟨rfl, rfl, rfl⟩ := triple_eq heq) | skip))
    | intro _ _ _ | dsimp only |  (split <;> first | done | (rename_i heq; obtain ⟨rfl, rfl⟩ := pair_eq heq) | (rename_i heq; obtain ⟨rfl, rfl, rfl⟩ := triple_eq heq) | skip))

theorem State.planQueue_keeps {s : State} {room : List Int} {x2 : List WakeReq} (h : s.Keeps p b) :
    (((State.planQueue s room x2)).1).Keeps p b := by
  induction x2 generalizing s room with
  | nil => exact h
  | cons y ys ih =>
  unfold State.planQueue
  try dsimp only
  repeat' (with_reducible first
    | assumption | apply ih | apply State.planOne_keeps | apply keeps_foldl | apply keeps_foldl_fst | apply keeps_foldl_snd | apply keeps_ite | apply goes_ite | apply keeps_ite_fst | apply keeps_ite_snd | apply keeps_ite_mid | apply goes_next
    | (apply keeps_mk; first | assumption | apply ih | apply State.planOne_keeps | apply keeps_foldl | apply keeps_foldl_fst | apply keeps_foldl_snd | apply keeps_ite | apply goes_ite | apply keeps_ite_fst | apply keeps_ite_snd | apply keeps_ite_mid | (split <;> first | done | (rename_i heq; obtain ⟨rfl, rfl⟩ := pair_eq heq) | (rename_i heq; obtain ⟨rfl, rfl, rfl⟩ := triple_eq heq) | skip))
    | intro _ _ _ | dsimp only |  (split <;> first | done | (rename_i heq; obtain ⟨rfl, rfl⟩ := pair_eq heq) | (rename_i heq; obtain ⟨rfl, rfl, rfl⟩ := triple_eq heq) | skip))

theorem State.quantum_keeps {s : State} {rises : List Int} (h : s.Keeps p b) : (State.quantum s rises).Keeps p b := by
  unfold State.quantum
  repeat' (with_reducible first
    | assumption | apply State.measure_keeps | apply State.driveLoadstep_keeps | apply State.planQueue_keeps
    | apply State.syncClk_keeps | apply keeps_ite | split
    | (apply keeps_mk; first  | assumption | apply State.measure_keeps | apply State.driveLoadstep_keeps | apply State.planQueue_keeps | apply State.syncClk_keeps))

theorem State.respond_keeps {s : State} {code : Nat} {q : Req} {err : Nat} {dup : Bool} {data : List Byte} (h : s.Keeps p b) :
    (State.respond s code q err dup data).Keeps p b := by
  unfold State.respond
  repeat' (with_reducible first | assumption | apply State.inject_keeps)

theorem State.answer_keeps {s : State} {typ : ReqType} {q : Req} {err : Nat} {dup : Bool} {data : List Byte} (h : s.Keeps p b) :
    (State.answer s typ q err dup data).Keeps p b := by
  unfold State.answer
  repeat' (with_reducible first | assumption | apply State.respond_keeps)

theorem State.holdReq_keeps {s : State} {typ : ReqType} {q : Req} {forHome : Bool} (h : s.Keeps p b) :
    (State.holdReq s typ q forHome).Keeps p b := by
  unfold State.holdReq
  repeat' (with_reducible first
    | assumption | apply State.raise_keeps | apply State.bump_keeps | apply keeps_ite | split
    | (apply keeps_mk; first  | assumption | apply State.raise_keeps | apply State.bump_keeps))

theorem State.finish_keeps {s : State} {typ : ReqType} {q : Req} {err : Nat} {data : List Byte} (h : s.Keeps p b) :
    (State.finish s typ q err data).Keeps p b := by
  unfold State.finish
  repeat' (with_reducible first
    | assumption | apply State.answer_keeps | apply keeps_ite | split
    | (apply keeps_mk; first  | assumption | apply State.answer_keeps))

theorem State.served_keeps {s t : State} {typ : ReqType} {q : Req} (h : s.Keeps p b) (ht : s.served typ q = some t) :
    t.Keeps p b := by
  unfold State.served at ht
  split at ht
  · cases ht; exact State.bump_keeps h
  · split at ht
    · cases ht; exact State.answer_keeps (State.bump_keeps h)
    · exact nomatch ht

end Sys2Proof.Machine
end

