-- ==== Sys2Proof/Laws/KeepCore.lean ====
section
/-!
SUPPORT. One lemma for each operation of the cores: it keeps the queue of
waiting commands and the canonical form of local memory, and each command answers a next state.
-/

namespace Sys2Proof.Machine

variable {p : List Instr} {b : Bool}

theorem State.setThread_keeps {s : State} {t : Nat} {th : Thread} (h : s.Keeps p b) : (State.setThread s t th).Keeps p b := by
  unfold State.setThread
  repeat' (with_reducible first | assumption | apply keeps_ite | split | (apply keeps_mk; first  | assumption))

theorem State.onThread_keeps {s : State} {t : Nat} {f : Thread → Thread} (h : s.Keeps p b) : (State.onThread s t f).Keeps p b := by
  unfold State.onThread
  repeat' (with_reducible first | assumption | apply State.setThread_keeps)

theorem State.suspend_keeps {s : State} {t : Nat} {w : ThreadWait} (h : s.Keeps p b) : (State.suspend s t w).Keeps p b := by
  unfold State.suspend
  repeat' (with_reducible first | assumption | apply State.onThread_keeps)

theorem State.complete_keeps {s : State} {t : Nat} (h : s.Keeps p b) : (State.complete s t).Keeps p b := by
  unfold State.complete
  repeat' (with_reducible first | assumption | apply State.onThread_keeps)

theorem State.posted_keeps {s : State} {t : Nat} {op : CoreOp} {ord : BitVec 2} (h : s.Keeps p b) :
    (State.posted s t op ord).Keeps p b := by
  unfold State.posted
  repeat' (with_reducible first | assumption | apply State.suspend_keeps | apply State.complete_keeps | apply keeps_ite | split)

theorem State.haltDone_keeps {s : State} {t : Nat} (h : s.Keeps p b) : (State.haltDone s t).Keeps p b := by
  unfold State.haltDone
  repeat' (with_reducible first | assumption | apply State.onThread_keeps)

theorem State.takeFault_keeps {s : State} {t : Nat} {code : Nat} {fepc : Word} {faddr : Word} (h : s.Keeps p b) :
    (State.takeFault s t code fepc faddr).Keeps p b := by
  unfold State.takeFault
  repeat' (with_reducible first
    | assumption | apply State.raise_keeps | apply State.wr_keeps | apply State.bump_keeps | apply State.setThread_keeps
    | apply keeps_ite | split)

theorem State.faultHere_keeps {s : State} {t : Nat} {code : Nat} {faddr : Word} (h : s.Keeps p b) :
    (State.faultHere s t code faddr).Keeps p b := by
  unfold State.faultHere
  repeat' (with_reducible first | assumption | apply State.takeFault_keeps)

theorem State.goneLoad_keeps {s : State} {t : Nat} {op : CoreOp} (h : s.Keeps p b) : (State.goneLoad s t op).Keeps p b := by
  unfold State.goneLoad
  repeat' (with_reducible first | assumption | apply State.takeFault_keeps | apply State.onThread_keeps)

theorem State.coreWindowReport_keeps {s : State} {w : Nat} {n : Nat} (h : s.Keeps p b) : (State.coreWindowReport s w n).Keeps p b := by
  unfold State.coreWindowReport
  repeat' (with_reducible first | assumption | apply State.refuse_keeps | apply keeps_ite | split)

theorem State.coreRead_keeps {s : State} {core : Nat} {a : Nat} {n : Nat} (h : s.Keeps p b) :
    (((State.coreRead s core a n)).2).Keeps p b := by
  unfold State.coreRead
  repeat' (with_reducible first
    | assumption | apply State.noteLine_keeps | apply State.cacheFill_keeps | apply State.noteRead_keeps | split | dsimp only
    | intro _ _ _ | apply keeps_foldl)

theorem State.threadIssue_keeps {s : State} {t : Nat} {typ : ReqType} {node : Nat} {opf : Nat} {addr : Nat} {len : Nat} {payload : List Byte} {flags : Nat} (h : s.Keeps p b) :
    (State.threadIssue s t typ node opf addr len payload flags).Keeps p b := by
  unfold State.threadIssue
  repeat' (with_reducible first | assumption | apply State.bump64_keeps | apply State.issue_keeps)

theorem State.tagWait_keeps {s : State} {t : Nat} {op : CoreOp} (h : s.Keeps p b) : (State.tagWait s t op).Keeps p b := by
  unfold State.tagWait
  repeat' (with_reducible first | assumption | apply State.suspend_keeps | apply State.bump_keeps)

theorem State.threadPosted_keeps {s : State} {t : Nat} {code : Nat} {addr : Word} (h : s.Keeps p b) :
    (State.threadPosted s t code addr).Keeps p b := by
  unfold State.threadPosted
  repeat' (with_reducible first | assumption | apply State.onThread_keeps)

theorem State.wakeRing_keeps {s : State} {a : Nat} (h : s.Keeps p b) : (State.wakeRing s a).Keeps p b := by
  unfold State.wakeRing
  repeat' (with_reducible first | assumption | apply keeps_ite | split | (apply keeps_mk; first  | assumption))

theorem State.coreAmo_keeps {s : State} {t : Nat} {op : CoreOp} {a : AmoOp} {bytes : Nat} {addr : Nat} {v : Nat} {cmp : Nat} (h : s.Keeps p b) :
    (State.coreAmo s t op a bytes addr v cmp).Keeps p b := by
  unfold State.coreAmo
  repeat' (with_reducible first
    | assumption | apply State.suspend_keeps | apply State.closeStart_keeps | apply State.faultHere_keeps
    | apply State.logRefuse_keeps | apply State.coreRead_keeps | apply State.bump64_keeps | apply State.logPut_keeps
    | apply State.complete_keeps | apply State.onThread_keeps | apply State.amoLocal_keeps | apply State.wakeRing_keeps
    | apply keeps_ite | split)

theorem State.perform_keeps {s : State} {t : Nat} {op : CoreOp} {x3 : Nat} (h : s.Keeps p b) : (State.perform s t op x3).Keeps p b := by
  induction x3 generalizing s op with
  | zero => exact h
  | succ n ih =>
  unfold State.perform
  try dsimp only
  repeat' (with_reducible first
    | assumption | apply ih | apply State.complete_keeps | apply State.haltDone_keeps | apply State.faultHere_keeps | apply State.goneLoad_keeps | apply State.onThread_keeps | apply State.readDone_keeps | apply State.coreWindowReport_keeps | apply State.coreRead_keeps | apply State.threadIssue_keeps | apply State.suspend_keeps | apply State.tagWait_keeps | apply State.threadPosted_keeps | apply State.coreStore_keeps | apply State.noteLine_keeps | apply State.coreAmo_keeps | apply State.posted_keeps | apply State.free_keeps | apply keeps_foldl | apply keeps_foldl_fst | apply keeps_foldl_snd | apply keeps_ite | apply goes_ite | apply keeps_ite_fst | apply keeps_ite_snd | apply keeps_ite_mid | apply goes_next
    | (apply keeps_mk; first | assumption | apply ih | apply State.complete_keeps | apply State.haltDone_keeps | apply State.faultHere_keeps | apply State.goneLoad_keeps | apply State.onThread_keeps | apply State.readDone_keeps | apply State.coreWindowReport_keeps | apply State.coreRead_keeps | apply State.threadIssue_keeps | apply State.suspend_keeps | apply State.tagWait_keeps | apply State.threadPosted_keeps | apply State.coreStore_keeps | apply State.noteLine_keeps | apply State.coreAmo_keeps | apply State.posted_keeps | apply State.free_keeps | apply keeps_foldl | apply keeps_foldl_fst | apply keeps_foldl_snd | apply keeps_ite | apply goes_ite | apply keeps_ite_fst | apply keeps_ite_snd | apply keeps_ite_mid | (split <;> first | done | (rename_i heq; obtain ⟨rfl, rfl⟩ := pair_eq heq) | (rename_i heq; obtain ⟨rfl, rfl, rfl⟩ := triple_eq heq) | skip))
    | intro _ _ _ | dsimp only |  (split <;> first | done | (rename_i heq; obtain ⟨rfl, rfl⟩ := pair_eq heq) | (rename_i heq; obtain ⟨rfl, rfl, rfl⟩ := triple_eq heq) | skip))

theorem State.resumeThread_keeps {s : State} {t : Nat} (h : s.Keeps p b) : (State.resumeThread s t).Keeps p b := by
  unfold State.resumeThread
  repeat' (with_reducible first
    | assumption | apply State.perform_keeps | apply State.takeFault_keeps | apply State.onThread_keeps
    | apply State.complete_keeps | split | dsimp only | intro _ _ _ | apply keeps_foldl)

theorem State.threadReply_keeps {s : State} {t : Nat} {data : List Byte} (h : s.Keeps p b) : (State.threadReply s t data).Keeps p b := by
  unfold State.threadReply
  repeat' (with_reducible first
    | assumption | apply State.onThread_keeps | apply State.perform_keeps | apply State.complete_keeps | apply keeps_ite
    | split)

theorem State.issueCycle_keeps {s : State} {t : Nat} (h : s.Keeps p b) : (State.issueCycle s t).Keeps p b := by
  unfold State.issueCycle
  repeat' (with_reducible first | assumption | apply State.free_keeps | apply State.bump64_keeps | apply State.onThread_keeps)

theorem State.coreExec_keeps {s : State} {t : Fin 512} {w ign : Nat} {k : State → State} (h : s.Keeps p b)
    (hk : ∀ u : State, u.Keeps p b → (k u).Keeps p b) : (State.coreExec s t w ign k).Keeps p b := by
  have h1 : (s.coreRead (t.val / 8) (s.thread t.val).pc.toNat 4).2.Keeps p b := State.coreRead_keeps h
  unfold State.coreExec
  generalize s.coreRead (t.val / 8) (s.thread t.val).pc.toNat 4 = x at h1 ⊢
  obtain ⟨f, u⟩ := x
  dsimp only at h1 ⊢
  split
  · split
    · split
      · exact State.faultHere_keeps (State.issueCycle_keeps h1)
      · split
        · exact hk _ (State.issueCycle_keeps h1)
        · exact h
    · exact State.faultHere_keeps h
  · exact h

theorem State.threadFail_keeps {s : State} {t : Nat} {code : Nat} {addr : Word} {next : Bool} (h : s.Keeps p b) :
    (State.threadFail s t code addr next).Keeps p b := by
  unfold State.threadFail
  repeat' (with_reducible first | assumption | apply State.onThread_keeps | apply State.takeFault_keeps | apply keeps_ite | split)

theorem State.threadDo_keeps {s : State} {t : Nat} {f : Thread → Thread} (h : s.Keeps p b) : (State.threadDo s t f).Keeps p b := by
  unfold State.threadDo
  repeat' (with_reducible first | assumption | apply State.setThread_keeps)

theorem State.runOp_keeps {s : State} {t : Nat} {op : CoreOp} (h : s.Keeps p b) : (State.runOp s t op).Keeps p b := by
  unfold State.runOp
  repeat' (with_reducible first
    | assumption | apply State.onThread_keeps | apply State.takeFault_keeps | apply State.perform_keeps
    | apply State.suspend_keeps | apply keeps_ite | split)

theorem State.resumeAll_keeps {s : State} (h : s.Keeps p b) : (State.resumeAll s).Keeps p b := by
  unfold State.resumeAll
  repeat' (with_reducible first | assumption | apply State.resumeThread_keeps | split | dsimp only | intro _ _ _ | apply keeps_foldl)

theorem State.startThread_keeps {s : State} {e : ThreadEntry} (h : s.Keeps p b) : (State.startThread s e).Keeps p b := by
  unfold State.startThread
  repeat' (with_reducible first | assumption | apply State.setThread_keeps)

theorem State.putBits_keeps {s : State} {ba : Nat} {w : Nat} {v : Nat} (h : s.Keeps p b) : (State.putBits s ba w v).Keeps p b := by
  unfold State.putBits
  repeat' (with_reducible first | assumption | apply State.store_keeps)

theorem State.putElem_keeps {s : State} {f : Field} {n : Nat} {v : Nat} (h : s.Keeps p b) : (State.putElem s f n v).Keeps p b := by
  unfold State.putElem
  repeat' (with_reducible first | assumption | apply State.putBits_keeps)

theorem State.putRow_keeps {s : State} {f : Field} {i : Idx} {x3 : List Nat} (h : s.Keeps p b) : (State.putRow s f i x3).Keeps p b := by
  induction x3 generalizing s i with
  | nil => exact h
  | cons y ys ih =>
  unfold State.putRow
  try dsimp only
  repeat' (with_reducible first
    | assumption | apply ih | apply State.putBits_keeps | apply keeps_foldl | apply keeps_foldl_fst | apply keeps_foldl_snd | apply keeps_ite | apply goes_ite | apply keeps_ite_fst | apply keeps_ite_snd | apply keeps_ite_mid | apply goes_next
    | (apply keeps_mk; first | assumption | apply ih | apply State.putBits_keeps | apply keeps_foldl | apply keeps_foldl_fst | apply keeps_foldl_snd | apply keeps_ite | apply goes_ite | apply keeps_ite_fst | apply keeps_ite_snd | apply keeps_ite_mid | (split <;> first | done | (rename_i heq; obtain ⟨rfl, rfl⟩ := pair_eq heq) | (rename_i heq; obtain ⟨rfl, rfl, rfl⟩ := triple_eq heq) | skip))
    | intro _ _ _ | dsimp only |  (split <;> first | done | (rename_i heq; obtain ⟨rfl, rfl⟩ := pair_eq heq) | (rename_i heq; obtain ⟨rfl, rfl, rfl⟩ := triple_eq heq) | skip))

theorem State.writeRow_keeps {s : State} {f : Field} {src : Fmt} {i : Idx} {row : List Nat} (h : s.Keeps p b) :
    (((State.writeRow s f src i row)).1).Keeps p b := by
  unfold State.writeRow
  try dsimp only
  repeat' (with_reducible first
    | assumption | apply State.putRow_keeps | apply State.store_keeps | apply keeps_foldl | apply keeps_foldl_fst | apply keeps_foldl_snd | apply keeps_ite | apply goes_ite | apply keeps_ite_fst | apply keeps_ite_snd | apply keeps_ite_mid | apply goes_next
    | (apply keeps_mk; first | assumption | apply State.putRow_keeps | apply State.store_keeps | apply keeps_foldl | apply keeps_foldl_fst | apply keeps_foldl_snd | apply keeps_ite | apply goes_ite | apply keeps_ite_fst | apply keeps_ite_snd | apply keeps_ite_mid | (split <;> first | done | (rename_i heq; obtain ⟨rfl, rfl⟩ := pair_eq heq) | (rename_i heq; obtain ⟨rfl, rfl, rfl⟩ := triple_eq heq) | skip))
    | intro _ _ _ | intro _ _ | dsimp only | (split <;> first | done | (rename_i heq; obtain ⟨rfl, rfl⟩ := pair_eq heq) | (rename_i heq; obtain ⟨rfl, rfl, rfl⟩ := triple_eq heq) | skip))

theorem State.resultStage_keeps {s : State} {f : Field} {src : Fmt} {start : Idx} {orient : Bool} {rows : List (List Nat)} (h : s.Keeps p b) :
    (((State.resultStage s f src start orient rows)).1).Keeps p b := by
  unfold State.resultStage
  try dsimp only
  repeat' (with_reducible first
    | assumption | apply State.writeRow_keeps | apply keeps_foldl | apply keeps_foldl_fst | apply keeps_foldl_snd | apply keeps_ite | apply goes_ite | apply keeps_ite_fst | apply keeps_ite_snd | apply keeps_ite_mid | apply goes_next
    | (apply keeps_mk; first | assumption | apply State.writeRow_keeps | apply keeps_foldl | apply keeps_foldl_fst | apply keeps_foldl_snd | apply keeps_ite | apply goes_ite | apply keeps_ite_fst | apply keeps_ite_snd | apply keeps_ite_mid | (split <;> first | done | (rename_i heq; obtain ⟨rfl, rfl⟩ := pair_eq heq) | (rename_i heq; obtain ⟨rfl, rfl, rfl⟩ := triple_eq heq) | skip))
    | intro _ _ _ | intro _ _ | dsimp only | (split <;> first | done | (rename_i heq; obtain ⟨rfl, rfl⟩ := pair_eq heq) | (rename_i heq; obtain ⟨rfl, rfl, rfl⟩ := triple_eq heq) | skip))

theorem State.countTile_keeps {s : State} {t : Nat} {c : Counts} (h : s.Keeps p b) : (State.countTile s t c).Keeps p b := by
  unfold State.countTile
  repeat' (with_reducible first | assumption | apply State.bump_keeps)

theorem State.countVec_keeps {s : State} {v : Nat} {field : Nat} {c : Counts} (h : s.Keeps p b) :
    (State.countVec s v field c).Keeps p b := by
  unfold State.countVec
  repeat' (with_reducible first | assumption | apply State.bump_keeps | apply State.raise_keeps | apply keeps_ite | split)

theorem State.noteIdx_keeps {s : State} {f : Field} {is : List Idx} (h : s.Keeps p b) : (State.noteIdx s f is).Keeps p b := by
  unfold State.noteIdx
  repeat' (with_reducible first | assumption | apply State.noteRead_keeps | split | dsimp only | intro _ _ _ | apply keeps_foldl)

theorem execFenceL_goes {t : Fin 512} {s : State} (h : s.Keeps p b) : GoesKeeping p b (execFenceL t s) := by
  unfold execFenceL
  repeat' (with_reducible first
    | assumption | apply State.coreExec_keeps | apply State.runOp_keeps | apply goes_next | apply keeps_ite
    | (apply keeps_mk; first  | assumption | apply State.coreExec_keeps | apply State.runOp_keeps | split) | split
    | dsimp only | intro _ _ _ | intro _ _)

theorem execHalt_goes {t : Fin 512} {s : State} (h : s.Keeps p b) : GoesKeeping p b (execHalt t s) := by
  unfold execHalt
  repeat' (with_reducible first
    | assumption | apply State.coreExec_keeps | apply State.runOp_keeps | apply goes_next | apply keeps_ite
    | (apply keeps_mk; first  | assumption | apply State.coreExec_keeps | apply State.runOp_keeps | split) | split
    | dsimp only | intro _ _ _ | intro _ _)

theorem aluRegReg_keeps {t : Fin 512} {fn : Nat} {rd : BitVec 5} {rs1 : BitVec 5} {rs2 : BitVec 5} {f : Word → Word → Word} {s : State} (h : s.Keeps p b) :
    (aluRegReg t fn rd rs1 rs2 f s).Keeps p b := by
  unfold aluRegReg
  repeat' (with_reducible first
    | assumption | apply State.coreExec_keeps | apply State.threadDo_keeps | apply keeps_ite
    | (apply keeps_mk; first  | assumption | apply State.coreExec_keeps | apply State.threadDo_keeps | split) | split
    | dsimp only | intro _ _ _ | intro _ _)

theorem execAluMullo_goes {t : Fin 512} {rd : BitVec 5} {rs1 : BitVec 5} {rs2 : BitVec 5} {s : State} (h : s.Keeps p b) :
    GoesKeeping p b (execAluMullo t rd rs1 rs2 s) := by
  unfold execAluMullo
  repeat' (with_reducible first | assumption | apply aluRegReg_keeps | apply goes_next)

theorem badEncoding_keeps {t : Fin 512} {w : Nat} {ign : Nat} {s : State} (h : s.Keeps p b) : (badEncoding t w ign s).Keeps p b := by
  unfold badEncoding
  repeat' (with_reducible first
    | assumption | apply State.coreExec_keeps | apply State.faultHere_keeps | apply keeps_ite
    | (apply keeps_mk; first  | assumption | apply State.coreExec_keeps | apply State.faultHere_keeps | split) | split
    | dsimp only | intro _ _ _ | intro _ _)

theorem coreMem_keeps {t : Fin 512} {w : Nat} {ign : Nat} {op : Thread → CoreOp} {s : State} (h : s.Keeps p b) :
    (coreMem t w ign op s).Keeps p b := by
  unfold coreMem
  repeat' (with_reducible first
    | assumption | apply State.coreExec_keeps | apply State.runOp_keeps | apply keeps_ite
    | (apply keeps_mk; first  | assumption | apply State.coreExec_keeps | apply State.runOp_keeps | split) | split
    | dsimp only | intro _ _ _ | intro _ _)

theorem coreAtomic_keeps {t : Fin 512} {op : AmoOp} {rd : BitVec 5} {rs1 : BitVec 5} {rs2 : BitVec 5} {ord : BitVec 2} {w : Bool} {s : State} (h : s.Keeps p b) :
    (coreAtomic t op rd rs1 rs2 ord w s).Keeps p b := by
  unfold coreAtomic
  repeat' (with_reducible first | assumption | apply badEncoding_keeps | apply coreMem_keeps | apply keeps_ite | split)

theorem execAmoMaxu_goes {t : Fin 512} {rd : BitVec 5} {rs1 : BitVec 5} {rs2 : BitVec 5} {ord : BitVec 2} {w : Bool} {s : State} (h : s.Keeps p b) :
    GoesKeeping p b (execAmoMaxu t rd rs1 rs2 ord w s) := by
  unfold execAmoMaxu
  repeat' (with_reducible first | assumption | apply coreAtomic_keeps | apply goes_next)

theorem execLd32s_goes {t : Fin 512} {rd : BitVec 5} {rs1 : BitVec 5} {imm : BitVec 16} {s : State} (h : s.Keeps p b) :
    GoesKeeping p b (execLd32s t rd rs1 imm s) := by
  unfold execLd32s
  repeat' (with_reducible first | assumption | apply coreMem_keeps | apply goes_next)

theorem execAluShl_goes {t : Fin 512} {rd : BitVec 5} {rs1 : BitVec 5} {rs2 : BitVec 5} {s : State} (h : s.Keeps p b) :
    GoesKeeping p b (execAluShl t rd rs1 rs2 s) := by
  unfold execAluShl
  repeat' (with_reducible first | assumption | apply aluRegReg_keeps | apply goes_next)

theorem execAluMin_goes {t : Fin 512} {rd : BitVec 5} {rs1 : BitVec 5} {rs2 : BitVec 5} {s : State} (h : s.Keeps p b) :
    GoesKeeping p b (execAluMin t rd rs1 rs2 s) := by
  unfold execAluMin
  repeat' (with_reducible first | assumption | apply aluRegReg_keeps | apply goes_next)

theorem execLd16s_goes {t : Fin 512} {rd : BitVec 5} {rs1 : BitVec 5} {imm : BitVec 16} {s : State} (h : s.Keeps p b) :
    GoesKeeping p b (execLd16s t rd rs1 imm s) := by
  unfold execLd16s
  repeat' (with_reducible first | assumption | apply coreMem_keeps | apply goes_next)

theorem aluRegImm_keeps {t : Fin 512} {op : Nat} {rd : BitVec 5} {rs1 : BitVec 5} {imm : BitVec 16} {f : Word → Word → Word} {s : State} (h : s.Keeps p b) :
    (aluRegImm t op rd rs1 imm f s).Keeps p b := by
  unfold aluRegImm
  repeat' (with_reducible first
    | assumption | apply State.coreExec_keeps | apply State.threadDo_keeps | apply keeps_ite
    | (apply keeps_mk; first  | assumption | apply State.coreExec_keeps | apply State.threadDo_keeps | split) | split
    | dsimp only | intro _ _ _ | intro _ _)

theorem execIcmplt_goes {t : Fin 512} {rd : BitVec 5} {rs1 : BitVec 5} {imm : BitVec 16} {s : State} (h : s.Keeps p b) :
    GoesKeeping p b (execIcmplt t rd rs1 imm s) := by
  unfold execIcmplt
  repeat' (with_reducible first | assumption | apply aluRegImm_keeps | apply goes_next)

theorem execLd64_goes {t : Fin 512} {rd : BitVec 5} {rs1 : BitVec 5} {imm : BitVec 16} {s : State} (h : s.Keeps p b) :
    GoesKeeping p b (execLd64 t rd rs1 imm s) := by
  unfold execLd64
  repeat' (with_reducible first | assumption | apply coreMem_keeps | apply goes_next)

theorem execYield_goes {t : Fin 512} {s : State} (h : s.Keeps p b) : GoesKeeping p b (execYield t s) := by
  unfold execYield
  repeat' (with_reducible first
    | assumption | apply State.coreExec_keeps | apply State.threadDo_keeps | apply goes_next | apply keeps_ite
    | (apply keeps_mk; first  | assumption | apply State.coreExec_keeps | apply State.threadDo_keeps | split) | split
    | dsimp only | intro _ _ _ | intro _ _)

theorem execAluCtz_goes {t : Fin 512} {rd : BitVec 5} {rs1 : BitVec 5} {rs2 : BitVec 5} {s : State} (h : s.Keeps p b) :
    GoesKeeping p b (execAluCtz t rd rs1 rs2 s) := by
  unfold execAluCtz
  repeat' (with_reducible first | assumption | apply aluRegReg_keeps | apply goes_next)

theorem execCsrWrite_goes {t : Fin 512} {rd : BitVec 5} {rs1 : BitVec 5} {csr : BitVec 12} {s : State} (h : s.Keeps p b) :
    GoesKeeping p b (execCsrWrite t rd rs1 csr s) := by
  unfold execCsrWrite
  repeat' (with_reducible first
    | assumption | apply State.coreExec_keeps | apply State.threadDo_keeps | apply State.faultHere_keeps | apply goes_next
    | apply keeps_ite
    | (apply keeps_mk; first  | assumption | apply State.coreExec_keeps | apply State.threadDo_keeps | apply State.faultHere_keeps | split)
    | split | dsimp only | intro _ _ _ | intro _ _)

theorem execSt64_goes {t : Fin 512} {rs2 : BitVec 5} {rs1 : BitVec 5} {imm : BitVec 16} {s : State} (h : s.Keeps p b) :
    GoesKeeping p b (execSt64 t rs2 rs1 imm s) := by
  unfold execSt64
  repeat' (with_reducible first | assumption | apply coreMem_keeps | apply goes_next)

theorem execAluDivs_goes {t : Fin 512} {rd : BitVec 5} {rs1 : BitVec 5} {rs2 : BitVec 5} {s : State} (h : s.Keeps p b) :
    GoesKeeping p b (execAluDivs t rd rs1 rs2 s) := by
  unfold execAluDivs
  repeat' (with_reducible first | assumption | apply aluRegReg_keeps | apply goes_next)

theorem execCsrRead_goes {t : Fin 512} {rd : BitVec 5} {csr : BitVec 12} {s : State} (h : s.Keeps p b) :
    GoesKeeping p b (execCsrRead t rd csr s) := by
  unfold execCsrRead
  repeat' (with_reducible first
    | assumption | apply State.coreExec_keeps | apply State.threadDo_keeps | apply State.faultHere_keeps | apply goes_next
    | apply keeps_ite
    | (apply keeps_mk; first  | assumption | apply State.coreExec_keeps | apply State.threadDo_keeps | apply State.faultHere_keeps | split)
    | split | dsimp only | intro _ _ _ | intro _ _)

theorem execAluXor_goes {t : Fin 512} {rd : BitVec 5} {rs1 : BitVec 5} {rs2 : BitVec 5} {s : State} (h : s.Keeps p b) :
    GoesKeeping p b (execAluXor t rd rs1 rs2 s) := by
  unfold execAluXor
  repeat' (with_reducible first | assumption | apply aluRegReg_keeps | apply goes_next)

theorem execBrz_goes {t : Fin 512} {rs1 : BitVec 5} {cond : BitVec 4} {off : BitVec 17} {s : State} (h : s.Keeps p b) :
    GoesKeeping p b (execBrz t rs1 cond off s) := by
  unfold execBrz
  repeat' (with_reducible first
    | assumption | apply State.coreExec_keeps | apply State.onThread_keeps | apply State.threadDo_keeps
    | apply State.faultHere_keeps | apply goes_next | apply keeps_ite
    | (apply keeps_mk; first  | assumption | apply State.coreExec_keeps | apply State.onThread_keeps | apply State.threadDo_keeps | apply State.faultHere_keeps | split)
    | split | dsimp only | intro _ _ _ | intro _ _)

theorem execLd16u_goes {t : Fin 512} {rd : BitVec 5} {rs1 : BitVec 5} {imm : BitVec 16} {s : State} (h : s.Keeps p b) :
    GoesKeeping p b (execLd16u t rd rs1 imm s) := by
  unfold execLd16u
  repeat' (with_reducible first | assumption | apply coreMem_keeps | apply goes_next)

theorem execAluCmplt_goes {t : Fin 512} {rd : BitVec 5} {rs1 : BitVec 5} {rs2 : BitVec 5} {s : State} (h : s.Keeps p b) :
    GoesKeeping p b (execAluCmplt t rd rs1 rs2 s) := by
  unfold execAluCmplt
  repeat' (with_reducible first | assumption | apply aluRegReg_keeps | apply goes_next)

theorem execAluMods_goes {t : Fin 512} {rd : BitVec 5} {rs1 : BitVec 5} {rs2 : BitVec 5} {s : State} (h : s.Keeps p b) :
    GoesKeeping p b (execAluMods t rd rs1 rs2 s) := by
  unfold execAluMods
  repeat' (with_reducible first | assumption | apply aluRegReg_keeps | apply goes_next)

theorem execSt16_goes {t : Fin 512} {rs2 : BitVec 5} {rs1 : BitVec 5} {imm : BitVec 16} {s : State} (h : s.Keeps p b) :
    GoesKeeping p b (execSt16 t rs2 rs1 imm s) := by
  unfold execSt16
  repeat' (with_reducible first | assumption | apply coreMem_keeps | apply goes_next)

theorem execAluOr_goes {t : Fin 512} {rd : BitVec 5} {rs1 : BitVec 5} {rs2 : BitVec 5} {s : State} (h : s.Keeps p b) :
    GoesKeeping p b (execAluOr t rd rs1 rs2 s) := by
  unfold execAluOr
  repeat' (with_reducible first | assumption | apply aluRegReg_keeps | apply goes_next)

theorem execAmoMax_goes {t : Fin 512} {rd : BitVec 5} {rs1 : BitVec 5} {rs2 : BitVec 5} {ord : BitVec 2} {w : Bool} {s : State} (h : s.Keeps p b) :
    GoesKeeping p b (execAmoMax t rd rs1 rs2 ord w s) := by
  unfold execAmoMax
  repeat' (with_reducible first | assumption | apply coreAtomic_keeps | apply goes_next)

theorem execFret_goes {t : Fin 512} {s : State} (h : s.Keeps p b) : GoesKeeping p b (execFret t s) := by
  unfold execFret
  repeat' (with_reducible first
    | assumption | apply State.coreExec_keeps | apply State.onThread_keeps | apply State.faultHere_keeps | apply goes_next
    | apply keeps_ite
    | (apply keeps_mk; first  | assumption | apply State.coreExec_keeps | apply State.onThread_keeps | apply State.faultHere_keeps | split)
    | split | dsimp only | intro _ _ _ | intro _ _)

theorem execAluMax_goes {t : Fin 512} {rd : BitVec 5} {rs1 : BitVec 5} {rs2 : BitVec 5} {s : State} (h : s.Keeps p b) :
    GoesKeeping p b (execAluMax t rd rs1 rs2 s) := by
  unfold execAluMax
  repeat' (with_reducible first | assumption | apply aluRegReg_keeps | apply goes_next)

theorem execAluClz_goes {t : Fin 512} {rd : BitVec 5} {rs1 : BitVec 5} {rs2 : BitVec 5} {s : State} (h : s.Keeps p b) :
    GoesKeeping p b (execAluClz t rd rs1 rs2 s) := by
  unfold execAluClz
  repeat' (with_reducible first | assumption | apply aluRegReg_keeps | apply goes_next)

theorem execAmoSwap_goes {t : Fin 512} {rd : BitVec 5} {rs1 : BitVec 5} {rs2 : BitVec 5} {ord : BitVec 2} {w : Bool} {s : State} (h : s.Keeps p b) :
    GoesKeeping p b (execAmoSwap t rd rs1 rs2 ord w s) := by
  unfold execAmoSwap
  repeat' (with_reducible first | assumption | apply coreAtomic_keeps | apply goes_next)

theorem execAluShra_goes {t : Fin 512} {rd : BitVec 5} {rs1 : BitVec 5} {rs2 : BitVec 5} {s : State} (h : s.Keeps p b) :
    GoesKeeping p b (execAluShra t rd rs1 rs2 s) := by
  unfold execAluShra
  repeat' (with_reducible first | assumption | apply aluRegReg_keeps | apply goes_next)

theorem execLd32u_goes {t : Fin 512} {rd : BitVec 5} {rs1 : BitVec 5} {imm : BitVec 16} {s : State} (h : s.Keeps p b) :
    GoesKeeping p b (execLd32u t rd rs1 imm s) := by
  unfold execLd32u
  repeat' (with_reducible first | assumption | apply coreMem_keeps | apply goes_next)

theorem execFld64_goes {t : Fin 512} {fd : BitVec 5} {rs1 : BitVec 5} {imm : BitVec 16} {s : State} (h : s.Keeps p b) :
    GoesKeeping p b (execFld64 t fd rs1 imm s) := by
  unfold execFld64
  repeat' (with_reducible first | assumption | apply coreMem_keeps | apply goes_next)

theorem execCall_goes {t : Fin 512} {rd : BitVec 5} {off : BitVec 21} {s : State} (h : s.Keeps p b) :
    GoesKeeping p b (execCall t rd off s) := by
  unfold execCall
  repeat' (with_reducible first
    | assumption | apply State.coreExec_keeps | apply State.onThread_keeps | apply goes_next | apply keeps_ite
    | (apply keeps_mk; first  | assumption | apply State.coreExec_keeps | apply State.onThread_keeps | split) | split
    | dsimp only | intro _ _ _ | intro _ _)

theorem execAluAdd_goes {t : Fin 512} {rd : BitVec 5} {rs1 : BitVec 5} {rs2 : BitVec 5} {s : State} (h : s.Keeps p b) :
    GoesKeeping p b (execAluAdd t rd rs1 rs2 s) := by
  unfold execAluAdd
  repeat' (with_reducible first | assumption | apply aluRegReg_keeps | apply goes_next)

theorem execFst32_goes {t : Fin 512} {fs2 : BitVec 5} {rs1 : BitVec 5} {imm : BitVec 16} {s : State} (h : s.Keeps p b) :
    GoesKeeping p b (execFst32 t fs2 rs1 imm s) := by
  unfold execFst32
  repeat' (with_reducible first | assumption | apply coreMem_keeps | apply goes_next)

theorem execAluMulhi_goes {t : Fin 512} {rd : BitVec 5} {rs1 : BitVec 5} {rs2 : BitVec 5} {s : State} (h : s.Keeps p b) :
    GoesKeeping p b (execAluMulhi t rd rs1 rs2 s) := by
  unfold execAluMulhi
  repeat' (with_reducible first | assumption | apply aluRegReg_keeps | apply goes_next)

theorem execIshfShl_goes {t : Fin 512} {rd : BitVec 5} {rs1 : BitVec 5} {sh : BitVec 6} {s : State} (h : s.Keeps p b) :
    GoesKeeping p b (execIshfShl t rd rs1 sh s) := by
  unfold execIshfShl
  repeat' (with_reducible first | assumption | apply aluRegImm_keeps | apply goes_next)

theorem execAluCmpltu_goes {t : Fin 512} {rd : BitVec 5} {rs1 : BitVec 5} {rs2 : BitVec 5} {s : State} (h : s.Keeps p b) :
    GoesKeeping p b (execAluCmpltu t rd rs1 rs2 s) := by
  unfold execAluCmpltu
  repeat' (with_reducible first | assumption | apply aluRegReg_keeps | apply goes_next)

theorem execAmoXor_goes {t : Fin 512} {rd : BitVec 5} {rs1 : BitVec 5} {rs2 : BitVec 5} {ord : BitVec 2} {w : Bool} {s : State} (h : s.Keeps p b) :
    GoesKeeping p b (execAmoXor t rd rs1 rs2 ord w s) := by
  unfold execAmoXor
  repeat' (with_reducible first | assumption | apply coreAtomic_keeps | apply goes_next)

theorem execFld32_goes {t : Fin 512} {fd : BitVec 5} {rs1 : BitVec 5} {imm : BitVec 16} {s : State} (h : s.Keeps p b) :
    GoesKeeping p b (execFld32 t fd rs1 imm s) := by
  unfold execFld32
  repeat' (with_reducible first | assumption | apply coreMem_keeps | apply goes_next)

theorem execAluPopc_goes {t : Fin 512} {rd : BitVec 5} {rs1 : BitVec 5} {rs2 : BitVec 5} {s : State} (h : s.Keeps p b) :
    GoesKeeping p b (execAluPopc t rd rs1 rs2 s) := by
  unfold execAluPopc
  repeat' (with_reducible first | assumption | apply aluRegReg_keeps | apply goes_next)

theorem execCas_goes {t : Fin 512} {rd : BitVec 5} {rs1 : BitVec 5} {rs2 : BitVec 5} {ord : BitVec 2} {w : Bool} {s : State} (h : s.Keeps p b) :
    GoesKeeping p b (execCas t rd rs1 rs2 ord w s) := by
  unfold execCas
  repeat' (with_reducible first | assumption | apply coreAtomic_keeps | apply goes_next)

theorem execFenceG_goes {t : Fin 512} {s : State} (h : s.Keeps p b) : GoesKeeping p b (execFenceG t s) := by
  unfold execFenceG
  repeat' (with_reducible first
    | assumption | apply State.coreExec_keeps | apply State.runOp_keeps | apply goes_next | apply keeps_ite
    | (apply keeps_mk; first  | assumption | apply State.coreExec_keeps | apply State.runOp_keeps | split) | split
    | dsimp only | intro _ _ _ | intro _ _)

theorem execCallr_goes {t : Fin 512} {rd : BitVec 5} {rs1 : BitVec 5} {imm : BitVec 16} {s : State} (h : s.Keeps p b) :
    GoesKeeping p b (execCallr t rd rs1 imm s) := by
  unfold execCallr
  repeat' (with_reducible first
    | assumption | apply State.coreExec_keeps | apply State.onThread_keeps | apply goes_next | apply keeps_ite
    | (apply keeps_mk; first  | assumption | apply State.coreExec_keeps | apply State.onThread_keeps | split) | split
    | dsimp only | intro _ _ _ | intro _ _)

theorem execIand_goes {t : Fin 512} {rd : BitVec 5} {rs1 : BitVec 5} {imm : BitVec 16} {s : State} (h : s.Keeps p b) :
    GoesKeeping p b (execIand t rd rs1 imm s) := by
  unfold execIand
  repeat' (with_reducible first | assumption | apply aluRegImm_keeps | apply goes_next)

theorem execAluCmpeq_goes {t : Fin 512} {rd : BitVec 5} {rs1 : BitVec 5} {rs2 : BitVec 5} {s : State} (h : s.Keeps p b) :
    GoesKeeping p b (execAluCmpeq t rd rs1 rs2 s) := by
  unfold execAluCmpeq
  repeat' (with_reducible first | assumption | apply aluRegReg_keeps | apply goes_next)

theorem execAluMinu_goes {t : Fin 512} {rd : BitVec 5} {rs1 : BitVec 5} {rs2 : BitVec 5} {s : State} (h : s.Keeps p b) :
    GoesKeeping p b (execAluMinu t rd rs1 rs2 s) := by
  unfold execAluMinu
  repeat' (with_reducible first | assumption | apply aluRegReg_keeps | apply goes_next)

theorem execAluAnd_goes {t : Fin 512} {rd : BitVec 5} {rs1 : BitVec 5} {rs2 : BitVec 5} {s : State} (h : s.Keeps p b) :
    GoesKeeping p b (execAluAnd t rd rs1 rs2 s) := by
  unfold execAluAnd
  repeat' (with_reducible first | assumption | apply aluRegReg_keeps | apply goes_next)

theorem execAmoAdd_goes {t : Fin 512} {rd : BitVec 5} {rs1 : BitVec 5} {rs2 : BitVec 5} {ord : BitVec 2} {w : Bool} {s : State} (h : s.Keeps p b) :
    GoesKeeping p b (execAmoAdd t rd rs1 rs2 ord w s) := by
  unfold execAmoAdd
  repeat' (with_reducible first | assumption | apply coreAtomic_keeps | apply goes_next)

theorem execLd8s_goes {t : Fin 512} {rd : BitVec 5} {rs1 : BitVec 5} {imm : BitVec 16} {s : State} (h : s.Keeps p b) :
    GoesKeeping p b (execLd8s t rd rs1 imm s) := by
  unfold execLd8s
  repeat' (with_reducible first | assumption | apply coreMem_keeps | apply goes_next)

theorem execSt32_goes {t : Fin 512} {rs2 : BitVec 5} {rs1 : BitVec 5} {imm : BitVec 16} {s : State} (h : s.Keeps p b) :
    GoesKeeping p b (execSt32 t rs2 rs1 imm s) := by
  unfold execSt32
  repeat' (with_reducible first | assumption | apply coreMem_keeps | apply goes_next)

theorem execAmoAnd_goes {t : Fin 512} {rd : BitVec 5} {rs1 : BitVec 5} {rs2 : BitVec 5} {ord : BitVec 2} {w : Bool} {s : State} (h : s.Keeps p b) :
    GoesKeeping p b (execAmoAnd t rd rs1 rs2 ord w s) := by
  unfold execAmoAnd
  repeat' (with_reducible first | assumption | apply coreAtomic_keeps | apply goes_next)

theorem execAmoMin_goes {t : Fin 512} {rd : BitVec 5} {rs1 : BitVec 5} {rs2 : BitVec 5} {ord : BitVec 2} {w : Bool} {s : State} (h : s.Keeps p b) :
    GoesKeeping p b (execAmoMin t rd rs1 rs2 ord w s) := by
  unfold execAmoMin
  repeat' (with_reducible first | assumption | apply coreAtomic_keeps | apply goes_next)

theorem execIor_goes {t : Fin 512} {rd : BitVec 5} {rs1 : BitVec 5} {imm : BitVec 16} {s : State} (h : s.Keeps p b) :
    GoesKeeping p b (execIor t rd rs1 imm s) := by
  unfold execIor
  repeat' (with_reducible first | assumption | apply aluRegImm_keeps | apply goes_next)

theorem execLd8u_goes {t : Fin 512} {rd : BitVec 5} {rs1 : BitVec 5} {imm : BitVec 16} {s : State} (h : s.Keeps p b) :
    GoesKeeping p b (execLd8u t rd rs1 imm s) := by
  unfold execLd8u
  repeat' (with_reducible first | assumption | apply coreMem_keeps | apply goes_next)

theorem execLdacq_goes {t : Fin 512} {rd : BitVec 5} {rs1 : BitVec 5} {rs2 : BitVec 5} {ord : BitVec 2} {w : Bool} {s : State} (h : s.Keeps p b) :
    GoesKeeping p b (execLdacq t rd rs1 rs2 ord w s) := by
  unfold execLdacq
  repeat' (with_reducible first | assumption | apply coreAtomic_keeps | apply goes_next)

theorem execPchi_goes {t : Fin 512} {rd : BitVec 5} {imm : BitVec 21} {s : State} (h : s.Keeps p b) :
    GoesKeeping p b (execPchi t rd imm s) := by
  unfold execPchi
  repeat' (with_reducible first
    | assumption | apply State.coreExec_keeps | apply State.threadDo_keeps | apply goes_next | apply keeps_ite
    | (apply keeps_mk; first  | assumption | apply State.coreExec_keeps | apply State.threadDo_keeps | split) | split
    | dsimp only | intro _ _ _ | intro _ _)

theorem execAddp_goes {t : Fin 512} {rd : BitVec 5} {rs1 : BitVec 5} {rs2 : BitVec 5} {ord : BitVec 2} {w : Bool} {s : State} (h : s.Keeps p b) :
    GoesKeeping p b (execAddp t rd rs1 rs2 ord w s) := by
  unfold execAddp
  repeat' (with_reducible first | assumption | apply coreAtomic_keeps | apply goes_next)

theorem execStrel_goes {t : Fin 512} {rd : BitVec 5} {rs1 : BitVec 5} {rs2 : BitVec 5} {ord : BitVec 2} {w : Bool} {s : State} (h : s.Keeps p b) :
    GoesKeeping p b (execStrel t rd rs1 rs2 ord w s) := by
  unfold execStrel
  repeat' (with_reducible first | assumption | apply coreAtomic_keeps | apply goes_next)

theorem execAluDivu_goes {t : Fin 512} {rd : BitVec 5} {rs1 : BitVec 5} {rs2 : BitVec 5} {s : State} (h : s.Keeps p b) :
    GoesKeeping p b (execAluDivu t rd rs1 rs2 s) := by
  unfold execAluDivu
  repeat' (with_reducible first | assumption | apply aluRegReg_keeps | apply goes_next)

theorem execAluModu_goes {t : Fin 512} {rd : BitVec 5} {rs1 : BitVec 5} {rs2 : BitVec 5} {s : State} (h : s.Keeps p b) :
    GoesKeeping p b (execAluModu t rd rs1 rs2 s) := by
  unfold execAluModu
  repeat' (with_reducible first | assumption | apply aluRegReg_keeps | apply goes_next)

theorem execIxor_goes {t : Fin 512} {rd : BitVec 5} {rs1 : BitVec 5} {imm : BitVec 16} {s : State} (h : s.Keeps p b) :
    GoesKeeping p b (execIxor t rd rs1 imm s) := by
  unfold execIxor
  repeat' (with_reducible first | assumption | apply aluRegImm_keeps | apply goes_next)

theorem execAluMulhiu_goes {t : Fin 512} {rd : BitVec 5} {rs1 : BitVec 5} {rs2 : BitVec 5} {s : State} (h : s.Keeps p b) :
    GoesKeeping p b (execAluMulhiu t rd rs1 rs2 s) := by
  unfold execAluMulhiu
  repeat' (with_reducible first | assumption | apply aluRegReg_keeps | apply goes_next)

theorem execIadd_goes {t : Fin 512} {rd : BitVec 5} {rs1 : BitVec 5} {imm : BitVec 16} {s : State} (h : s.Keeps p b) :
    GoesKeeping p b (execIadd t rd rs1 imm s) := by
  unfold execIadd
  repeat' (with_reducible first | assumption | apply aluRegImm_keeps | apply goes_next)

theorem execAluAndn_goes {t : Fin 512} {rd : BitVec 5} {rs1 : BitVec 5} {rs2 : BitVec 5} {s : State} (h : s.Keeps p b) :
    GoesKeeping p b (execAluAndn t rd rs1 rs2 s) := by
  unfold execAluAndn
  repeat' (with_reducible first | assumption | apply aluRegReg_keeps | apply goes_next)

theorem execIhi_goes {t : Fin 512} {rd : BitVec 5} {imm : BitVec 21} {s : State} (h : s.Keeps p b) :
    GoesKeeping p b (execIhi t rd imm s) := by
  unfold execIhi
  repeat' (with_reducible first
    | assumption | apply State.coreExec_keeps | apply State.threadDo_keeps | apply goes_next | apply keeps_ite
    | (apply keeps_mk; first  | assumption | apply State.coreExec_keeps | apply State.threadDo_keeps | split) | split
    | dsimp only | intro _ _ _ | intro _ _)

theorem execAmoMinu_goes {t : Fin 512} {rd : BitVec 5} {rs1 : BitVec 5} {rs2 : BitVec 5} {ord : BitVec 2} {w : Bool} {s : State} (h : s.Keeps p b) :
    GoesKeeping p b (execAmoMinu t rd rs1 rs2 ord w s) := by
  unfold execAmoMinu
  repeat' (with_reducible first | assumption | apply coreAtomic_keeps | apply goes_next)

theorem execIshfShrl_goes {t : Fin 512} {rd : BitVec 5} {rs1 : BitVec 5} {sh : BitVec 6} {s : State} (h : s.Keeps p b) :
    GoesKeeping p b (execIshfShrl t rd rs1 sh s) := by
  unfold execIshfShrl
  repeat' (with_reducible first | assumption | apply aluRegImm_keeps | apply goes_next)

theorem execFst64_goes {t : Fin 512} {fs2 : BitVec 5} {rs1 : BitVec 5} {imm : BitVec 16} {s : State} (h : s.Keeps p b) :
    GoesKeeping p b (execFst64 t fs2 rs1 imm s) := by
  unfold execFst64
  repeat' (with_reducible first | assumption | apply coreMem_keeps | apply goes_next)

theorem execIshfShra_goes {t : Fin 512} {rd : BitVec 5} {rs1 : BitVec 5} {sh : BitVec 6} {s : State} (h : s.Keeps p b) :
    GoesKeeping p b (execIshfShra t rd rs1 sh s) := by
  unfold execIshfShra
  repeat' (with_reducible first | assumption | apply aluRegImm_keeps | apply goes_next)

theorem execSt8_goes {t : Fin 512} {rs2 : BitVec 5} {rs1 : BitVec 5} {imm : BitVec 16} {s : State} (h : s.Keeps p b) :
    GoesKeeping p b (execSt8 t rs2 rs1 imm s) := by
  unfold execSt8
  repeat' (with_reducible first | assumption | apply coreMem_keeps | apply goes_next)

theorem execAmoFadd_goes {t : Fin 512} {rd : BitVec 5} {rs1 : BitVec 5} {rs2 : BitVec 5} {ord : BitVec 2} {w : Bool} {s : State} (h : s.Keeps p b) :
    GoesKeeping p b (execAmoFadd t rd rs1 rs2 ord w s) := by
  unfold execAmoFadd
  repeat' (with_reducible first | assumption | apply coreAtomic_keeps | apply goes_next)

theorem execAluMaxu_goes {t : Fin 512} {rd : BitVec 5} {rs1 : BitVec 5} {rs2 : BitVec 5} {s : State} (h : s.Keeps p b) :
    GoesKeeping p b (execAluMaxu t rd rs1 rs2 s) := by
  unfold execAluMaxu
  repeat' (with_reducible first | assumption | apply aluRegReg_keeps | apply goes_next)

theorem execAluSub_goes {t : Fin 512} {rd : BitVec 5} {rs1 : BitVec 5} {rs2 : BitVec 5} {s : State} (h : s.Keeps p b) :
    GoesKeeping p b (execAluSub t rd rs1 rs2 s) := by
  unfold execAluSub
  repeat' (with_reducible first | assumption | apply aluRegReg_keeps | apply goes_next)

theorem execAluShrl_goes {t : Fin 512} {rd : BitVec 5} {rs1 : BitVec 5} {rs2 : BitVec 5} {s : State} (h : s.Keeps p b) :
    GoesKeeping p b (execAluShrl t rd rs1 rs2 s) := by
  unfold execAluShrl
  repeat' (with_reducible first | assumption | apply aluRegReg_keeps | apply goes_next)

theorem execAmoOr_goes {t : Fin 512} {rd : BitVec 5} {rs1 : BitVec 5} {rs2 : BitVec 5} {ord : BitVec 2} {w : Bool} {s : State} (h : s.Keeps p b) :
    GoesKeeping p b (execAmoOr t rd rs1 rs2 ord w s) := by
  unfold execAmoOr
  repeat' (with_reducible first | assumption | apply coreAtomic_keeps | apply goes_next)

theorem fpuToF_keeps {t : Fin 512} {w : Nat} {ign : Nat} {fd : BitVec 5} {f : Thread → Nat × Flags} {s : State} (h : s.Keeps p b) :
    (fpuToF t w ign fd f s).Keeps p b := by
  unfold fpuToF
  repeat' (with_reducible first
    | assumption | apply State.coreExec_keeps | apply State.threadDo_keeps | apply keeps_ite
    | (apply keeps_mk; first  | assumption | apply State.coreExec_keeps | apply State.threadDo_keeps | split) | split
    | dsimp only | intro _ _ _ | intro _ _)

theorem execFcpys_goes {t : Fin 512} {ty : FType} {fd : BitVec 5} {fs1 : BitVec 5} {fs2 : BitVec 5} {s : State} (h : s.Keeps p b) :
    GoesKeeping p b (execFcpys t ty fd fs1 fs2 s) := by
  unfold execFcpys
  repeat' (with_reducible first | assumption | apply fpuToF_keeps | apply goes_next)

theorem execFmul_goes {t : Fin 512} {ty : FType} {fd : BitVec 5} {fs1 : BitVec 5} {fs2 : BitVec 5} {s : State} (h : s.Keeps p b) :
    GoesKeeping p b (execFmul t ty fd fs1 fs2 s) := by
  unfold execFmul
  repeat' (with_reducible first | assumption | apply fpuToF_keeps | apply goes_next)

theorem execFsqrt_goes {t : Fin 512} {ty : FType} {fd : BitVec 5} {fs1 : BitVec 5} {fs2 : BitVec 5} {s : State} (h : s.Keeps p b) :
    GoesKeeping p b (execFsqrt t ty fd fs1 fs2 s) := by
  unfold execFsqrt
  repeat' (with_reducible first | assumption | apply fpuToF_keeps | apply goes_next)

theorem execFmin_goes {t : Fin 512} {ty : FType} {fd : BitVec 5} {fs1 : BitVec 5} {fs2 : BitVec 5} {s : State} (h : s.Keeps p b) :
    GoesKeeping p b (execFmin t ty fd fs1 fs2 s) := by
  unfold execFmin
  repeat' (with_reducible first | assumption | apply fpuToF_keeps | apply goes_next)

theorem execFdiv_goes {t : Fin 512} {ty : FType} {fd : BitVec 5} {fs1 : BitVec 5} {fs2 : BitVec 5} {s : State} (h : s.Keeps p b) :
    GoesKeeping p b (execFdiv t ty fd fs1 fs2 s) := by
  unfold execFdiv
  repeat' (with_reducible first | assumption | apply fpuToF_keeps | apply goes_next)

theorem execFsub_goes {t : Fin 512} {ty : FType} {fd : BitVec 5} {fs1 : BitVec 5} {fs2 : BitVec 5} {s : State} (h : s.Keeps p b) :
    GoesKeeping p b (execFsub t ty fd fs1 fs2 s) := by
  unfold execFsub
  repeat' (with_reducible first | assumption | apply fpuToF_keeps | apply goes_next)

theorem execFmadd_goes {t : Fin 512} {ty : FType} {var : BitVec 2} {fd : BitVec 5} {fs1 : BitVec 5} {fs2 : BitVec 5} {fs3 : BitVec 5} {s : State} (h : s.Keeps p b) :
    GoesKeeping p b (execFmadd t ty var fd fs1 fs2 fs3 s) := by
  unfold execFmadd
  repeat' (with_reducible first | assumption | apply fpuToF_keeps | apply goes_next)

theorem execFadd_goes {t : Fin 512} {ty : FType} {fd : BitVec 5} {fs1 : BitVec 5} {fs2 : BitVec 5} {s : State} (h : s.Keeps p b) :
    GoesKeeping p b (execFadd t ty fd fs1 fs2 s) := by
  unfold execFadd
  repeat' (with_reducible first | assumption | apply fpuToF_keeps | apply goes_next)

theorem fpuToX_keeps {t : Fin 512} {w : Nat} {ign : Nat} {rd : BitVec 5} {f : Thread → Nat × Flags} {s : State} (h : s.Keeps p b) :
    (fpuToX t w ign rd f s).Keeps p b := by
  unfold fpuToX
  repeat' (with_reducible first
    | assumption | apply State.coreExec_keeps | apply State.threadDo_keeps | apply keeps_ite
    | (apply keeps_mk; first  | assumption | apply State.coreExec_keeps | apply State.threadDo_keeps | split) | split
    | dsimp only | intro _ _ _ | intro _ _)

theorem execFcmplt_goes {t : Fin 512} {ty : FType} {rd : BitVec 5} {fs1 : BitVec 5} {fs2 : BitVec 5} {s : State} (h : s.Keeps p b) :
    GoesKeeping p b (execFcmplt t ty rd fs1 fs2 s) := by
  unfold execFcmplt
  repeat' (with_reducible first | assumption | apply fpuToX_keeps | apply goes_next)

theorem execFcmple_goes {t : Fin 512} {ty : FType} {rd : BitVec 5} {fs1 : BitVec 5} {fs2 : BitVec 5} {s : State} (h : s.Keeps p b) :
    GoesKeeping p b (execFcmple t ty rd fs1 fs2 s) := by
  unfold execFcmple
  repeat' (with_reducible first | assumption | apply fpuToX_keeps | apply goes_next)

theorem execFcmpeq_goes {t : Fin 512} {ty : FType} {rd : BitVec 5} {fs1 : BitVec 5} {fs2 : BitVec 5} {s : State} (h : s.Keeps p b) :
    GoesKeeping p b (execFcmpeq t ty rd fs1 fs2 s) := by
  unfold execFcmpeq
  repeat' (with_reducible first | assumption | apply fpuToX_keeps | apply goes_next)

theorem execFtox_goes {t : Fin 512} {ty : FType} {rd : BitVec 5} {fs1 : BitVec 5} {s : State} (h : s.Keeps p b) :
    GoesKeeping p b (execFtox t ty rd fs1 s) := by
  unfold execFtox
  repeat' (with_reducible first | assumption | apply fpuToX_keeps | apply goes_next)

theorem execFcvt_goes {t : Fin 512} {src : CvtType} {dst : CvtType} {fd : BitVec 5} {fs1 : BitVec 5} {s : State} (h : s.Keeps p b) :
    GoesKeeping p b (execFcvt t src dst fd fs1 s) := by
  unfold execFcvt
  repeat' (with_reducible first | assumption | apply fpuToF_keeps | apply badEncoding_keeps | apply goes_next | apply keeps_ite | split)

theorem execFmax_goes {t : Fin 512} {ty : FType} {fd : BitVec 5} {fs1 : BitVec 5} {fs2 : BitVec 5} {s : State} (h : s.Keeps p b) :
    GoesKeeping p b (execFmax t ty fd fs1 fs2 s) := by
  unfold execFmax
  repeat' (with_reducible first | assumption | apply fpuToF_keeps | apply goes_next)

theorem execXtof_goes {t : Fin 512} {ty : FType} {fd : BitVec 5} {rs1 : BitVec 5} {s : State} (h : s.Keeps p b) :
    GoesKeeping p b (execXtof t ty fd rs1 s) := by
  unfold execXtof
  repeat' (with_reducible first | assumption | apply fpuToF_keeps | apply goes_next)

theorem wideExec_keeps {t : Fin 512} {w : Nat} {ign : Nat} {ok : Bool} {f : Thread → Thread} {s : State} (h : s.Keeps p b) :
    (wideExec t w ign ok f s).Keeps p b := by
  unfold wideExec
  repeat' (with_reducible first
    | assumption | apply State.coreExec_keeps | apply State.threadDo_keeps | apply State.faultHere_keeps | apply keeps_ite
    | (apply keeps_mk; first  | assumption | apply State.coreExec_keeps | apply State.threadDo_keeps | apply State.faultHere_keeps | split)
    | split | dsimp only | intro _ _ _ | intro _ _)

theorem execKor_goes {t : Fin 512} {kd : BitVec 5} {ks1 : BitVec 5} {ks2 : BitVec 5} {s : State} (h : s.Keeps p b) :
    GoesKeeping p b (execKor t kd ks1 ks2 s) := by
  unfold execKor
  repeat' (with_reducible first | assumption | apply wideExec_keeps | apply goes_next)

theorem wideWiden_keeps {t : Fin 512} {fn : Nat} {et : ElemType} {ok : Bool} {high : Bool} {k : BitVec 3} {z : Bool} {wd : BitVec 5} {ws1 : BitVec 5} {ws2 : BitVec 5} {f : Rnd → Nat → Nat → Nat → Nat × Flags} {s : State} (h : s.Keeps p b) :
    (wideWiden t fn et ok high k z wd ws1 ws2 f s).Keeps p b := by
  unfold wideWiden
  repeat' (with_reducible first | assumption | apply wideExec_keeps)

theorem execMulwh_goes {t : Fin 512} {et : ElemType} {k : BitVec 3} {z : Bool} {wd : BitVec 5} {ws1 : BitVec 5} {ws2 : BitVec 5} {s : State} (h : s.Keeps p b) :
    GoesKeeping p b (execMulwh t et k z wd ws1 ws2 s) := by
  unfold execMulwh
  repeat' (with_reducible first | assumption | apply wideWiden_keeps | apply goes_next)

theorem wideReduce_keeps {t : Fin 512} {fn : Nat} {et : ElemType} {k : BitVec 3} {z : Bool} {wd : BitVec 5} {ws1 : BitVec 5} {op : Rnd → Nat → Nat → Nat × Flags} {s : State} (h : s.Keeps p b) :
    (wideReduce t fn et k z wd ws1 op s).Keeps p b := by
  unfold wideReduce
  repeat' (with_reducible first | assumption | apply wideExec_keeps)

theorem execWredmin_goes {t : Fin 512} {et : ElemType} {k : BitVec 3} {z : Bool} {wd : BitVec 5} {ws1 : BitVec 5} {s : State} (h : s.Keeps p b) :
    GoesKeeping p b (execWredmin t et k z wd ws1 s) := by
  unfold execWredmin
  repeat' (with_reducible first | assumption | apply wideReduce_keeps | apply goes_next)

theorem execMulwl_goes {t : Fin 512} {et : ElemType} {k : BitVec 3} {z : Bool} {wd : BitVec 5} {ws1 : BitVec 5} {ws2 : BitVec 5} {s : State} (h : s.Keeps p b) :
    GoesKeeping p b (execMulwl t et k z wd ws1 ws2 s) := by
  unfold execMulwl
  repeat' (with_reducible first | assumption | apply wideWiden_keeps | apply goes_next)

theorem execFmawh_goes {t : Fin 512} {et : ElemType} {k : BitVec 3} {z : Bool} {wd : BitVec 5} {ws1 : BitVec 5} {ws2 : BitVec 5} {s : State} (h : s.Keeps p b) :
    GoesKeeping p b (execFmawh t et k z wd ws1 ws2 s) := by
  unfold execFmawh
  repeat' (with_reducible first | assumption | apply wideWiden_keeps | apply goes_next)

theorem wideFdot_keeps {t : Fin 512} {fn : Nat} {et : ElemType} {k : BitVec 3} {z : Bool} {wd : BitVec 5} {ws1 : BitVec 5} {ws2 : BitVec 5} {fin : Fmt} {fout : Fmt} {s : State} (h : s.Keeps p b) :
    (wideFdot t fn et k z wd ws1 ws2 fin fout s).Keeps p b := by
  unfold wideFdot
  repeat' (with_reducible first | assumption | apply wideExec_keeps)

theorem execFdot2b_goes {t : Fin 512} {et : ElemType} {k : BitVec 3} {z : Bool} {wd : BitVec 5} {ws1 : BitVec 5} {ws2 : BitVec 5} {s : State} (h : s.Keeps p b) :
    GoesKeeping p b (execFdot2b t et k z wd ws1 ws2 s) := by
  unfold execFdot2b
  repeat' (with_reducible first | assumption | apply wideFdot_keeps | apply goes_next)

theorem wideDot_keeps {t : Fin 512} {fn : Nat} {et : ElemType} {k : BitVec 3} {z : Bool} {wd : BitVec 5} {ws1 : BitVec 5} {ws2 : BitVec 5} {win : Nat} {wout : Nat} {n : Nat} {sa : Bool} {sb : Bool} {s : State} (h : s.Keeps p b) :
    (wideDot t fn et k z wd ws1 ws2 win wout n sa sb s).Keeps p b := by
  unfold wideDot
  repeat' (with_reducible first | assumption | apply wideExec_keeps)

theorem execDot4u_goes {t : Fin 512} {et : ElemType} {k : BitVec 3} {z : Bool} {wd : BitVec 5} {ws1 : BitVec 5} {ws2 : BitVec 5} {s : State} (h : s.Keeps p b) :
    GoesKeeping p b (execDot4u t et k z wd ws1 ws2 s) := by
  unfold execDot4u
  repeat' (with_reducible first | assumption | apply wideDot_keeps | apply goes_next)

theorem execKxor_goes {t : Fin 512} {kd : BitVec 5} {ks1 : BitVec 5} {ks2 : BitVec 5} {s : State} (h : s.Keeps p b) :
    GoesKeeping p b (execKxor t kd ks1 ks2 s) := by
  unfold execKxor
  repeat' (with_reducible first | assumption | apply wideExec_keeps | apply goes_next)

theorem execWbcf_goes {t : Fin 512} {et : ElemType} {k : BitVec 3} {z : Bool} {wd : BitVec 5} {fs1 : BitVec 5} {s : State} (h : s.Keeps p b) :
    GoesKeeping p b (execWbcf t et k z wd fs1 s) := by
  unfold execWbcf
  repeat' (with_reducible first | assumption | apply wideExec_keeps | apply goes_next)

theorem wideCmp_keeps {t : Fin 512} {fn : Nat} {et : ElemType} {ok : Bool} {k : BitVec 3} {z : Bool} {kd : BitVec 5} {ws1 : BitVec 5} {ws2 : BitVec 5} {f : Nat → Nat → Bool} {s : State} (h : s.Keeps p b) :
    (wideCmp t fn et ok k z kd ws1 ws2 f s).Keeps p b := by
  unfold wideCmp
  repeat' (with_reducible first | assumption | apply wideExec_keeps)

theorem execWcmpLt_goes {t : Fin 512} {et : ElemType} {k : BitVec 3} {z : Bool} {kd : BitVec 5} {ws1 : BitVec 5} {ws2 : BitVec 5} {s : State} (h : s.Keeps p b) :
    GoesKeeping p b (execWcmpLt t et k z kd ws1 ws2 s) := by
  unfold execWcmpLt
  repeat' (with_reducible first | assumption | apply wideCmp_keeps | apply goes_next)

theorem execKand_goes {t : Fin 512} {kd : BitVec 5} {ks1 : BitVec 5} {ks2 : BitVec 5} {s : State} (h : s.Keeps p b) :
    GoesKeeping p b (execKand t kd ks1 ks2 s) := by
  unfold execKand
  repeat' (with_reducible first | assumption | apply wideExec_keeps | apply goes_next)

theorem execWcmpUnord_goes {t : Fin 512} {et : ElemType} {k : BitVec 3} {z : Bool} {kd : BitVec 5} {ws1 : BitVec 5} {ws2 : BitVec 5} {s : State} (h : s.Keeps p b) :
    GoesKeeping p b (execWcmpUnord t et k z kd ws1 ws2 s) := by
  unfold execWcmpUnord
  repeat' (with_reducible first | assumption | apply wideCmp_keeps | apply goes_next)

theorem execXmovk_goes {t : Fin 512} {rd : BitVec 5} {ks1 : BitVec 5} {s : State} (h : s.Keeps p b) :
    GoesKeeping p b (execXmovk t rd ks1 s) := by
  unfold execXmovk
  repeat' (with_reducible first | assumption | apply wideExec_keeps | apply goes_next)

theorem execDot4_goes {t : Fin 512} {et : ElemType} {k : BitVec 3} {z : Bool} {wd : BitVec 5} {ws1 : BitVec 5} {ws2 : BitVec 5} {s : State} (h : s.Keeps p b) :
    GoesKeeping p b (execDot4 t et k z wd ws1 ws2 s) := by
  unfold execDot4
  repeat' (with_reducible first | assumption | apply wideDot_keeps | apply goes_next)

theorem execFdot2s_goes {t : Fin 512} {et : ElemType} {k : BitVec 3} {z : Bool} {wd : BitVec 5} {ws1 : BitVec 5} {ws2 : BitVec 5} {s : State} (h : s.Keeps p b) :
    GoesKeeping p b (execFdot2s t et k z wd ws1 ws2 s) := by
  unfold execFdot2s
  repeat' (with_reducible first | assumption | apply wideFdot_keeps | apply goes_next)

theorem wideBin_keeps {t : Fin 512} {op : Nat} {fn : Nat} {et : ElemType} {ok : Bool} {k : BitVec 3} {z : Bool} {wd : BitVec 5} {ws1 : BitVec 5} {ws2 : BitVec 5} {f : Rnd → Nat → Nat → Nat × Flags} {s : State} (h : s.Keeps p b) :
    (wideBin t op fn et ok k z wd ws1 ws2 f s).Keeps p b := by
  unfold wideBin
  repeat' (with_reducible first | assumption | apply wideExec_keeps)

theorem execWmin_goes {t : Fin 512} {et : ElemType} {k : BitVec 3} {z : Bool} {wd : BitVec 5} {ws1 : BitVec 5} {ws2 : BitVec 5} {s : State} (h : s.Keeps p b) :
    GoesKeeping p b (execWmin t et k z wd ws1 ws2 s) := by
  unfold execWmin
  repeat' (with_reducible first | assumption | apply wideBin_keeps | apply goes_next)

theorem execWmullo_goes {t : Fin 512} {et : ElemType} {k : BitVec 3} {z : Bool} {wd : BitVec 5} {ws1 : BitVec 5} {ws2 : BitVec 5} {s : State} (h : s.Keeps p b) :
    GoesKeeping p b (execWmullo t et k z wd ws1 ws2 s) := by
  unfold execWmullo
  repeat' (with_reducible first | assumption | apply wideBin_keeps | apply goes_next)

theorem execWcmpLtu_goes {t : Fin 512} {et : ElemType} {k : BitVec 3} {z : Bool} {kd : BitVec 5} {ws1 : BitVec 5} {ws2 : BitVec 5} {s : State} (h : s.Keeps p b) :
    GoesKeeping p b (execWcmpLtu t et k z kd ws1 ws2 s) := by
  unfold execWcmpLtu
  repeat' (with_reducible first | assumption | apply wideCmp_keeps | apply goes_next)

theorem execWst_goes {t : Fin 512} {k : BitVec 3} {ws : BitVec 5} {rs1 : BitVec 5} {off : BitVec 13} {s : State} (h : s.Keeps p b) :
    GoesKeeping p b (execWst t k ws rs1 off s) := by
  unfold execWst
  repeat' (with_reducible first | assumption | apply coreMem_keeps | apply goes_next)

theorem execWintMin_goes {t : Fin 512} {et : ElemType} {k : BitVec 3} {z : Bool} {wd : BitVec 5} {ws1 : BitVec 5} {ws2 : BitVec 5} {s : State} (h : s.Keeps p b) :
    GoesKeeping p b (execWintMin t et k z wd ws1 ws2 s) := by
  unfold execWintMin
  repeat' (with_reducible first | assumption | apply wideBin_keeps | apply goes_next)

theorem wideConvert_keeps {t : Fin 512} {w : Nat} {src : Fmt} {dst : Fmt} {part : Nat} {k : BitVec 3} {z : Bool} {wd : BitVec 5} {ws1 : BitVec 5} {s : State} (h : s.Keeps p b) :
    (wideConvert t w src dst part k z wd ws1 s).Keeps p b := by
  unfold wideConvert
  repeat' (with_reducible first | assumption | apply wideExec_keeps)

theorem execWcvt_goes {t : Fin 512} {src : BitVec 4} {dst : BitVec 4} {part : BitVec 4} {k : BitVec 3} {z : Bool} {wd : BitVec 5} {ws1 : BitVec 5} {s : State} (h : s.Keeps p b) :
    GoesKeeping p b (execWcvt t src dst part k z wd ws1 s) := by
  unfold execWcvt
  repeat' (with_reducible first | assumption | apply wideConvert_keeps | apply badEncoding_keeps | apply goes_next | apply keeps_ite | split)

theorem execWld_goes {t : Fin 512} {k : BitVec 3} {wd : BitVec 5} {rs1 : BitVec 5} {off : BitVec 13} {s : State} (h : s.Keeps p b) :
    GoesKeeping p b (execWld t k wd rs1 off s) := by
  unfold execWld
  repeat' (with_reducible first | assumption | apply coreMem_keeps | apply goes_next)

theorem execWandn_goes {t : Fin 512} {et : ElemType} {k : BitVec 3} {z : Bool} {wd : BitVec 5} {ws1 : BitVec 5} {ws2 : BitVec 5} {s : State} (h : s.Keeps p b) :
    GoesKeeping p b (execWandn t et k z wd ws1 ws2 s) := by
  unfold execWandn
  repeat' (with_reducible first | assumption | apply wideBin_keeps | apply goes_next)

theorem execWshra_goes {t : Fin 512} {et : ElemType} {k : BitVec 3} {z : Bool} {wd : BitVec 5} {ws1 : BitVec 5} {ws2 : BitVec 5} {s : State} (h : s.Keeps p b) :
    GoesKeeping p b (execWshra t et k z wd ws1 ws2 s) := by
  unfold execWshra
  repeat' (with_reducible first | assumption | apply wideBin_keeps | apply goes_next)

theorem execWneg_goes {t : Fin 512} {et : ElemType} {k : BitVec 3} {z : Bool} {wd : BitVec 5} {ws1 : BitVec 5} {ws2 : BitVec 5} {s : State} (h : s.Keeps p b) :
    GoesKeeping p b (execWneg t et k z wd ws1 ws2 s) := by
  unfold execWneg
  repeat' (with_reducible first | assumption | apply wideBin_keeps | apply goes_next)

theorem execWcmpEq_goes {t : Fin 512} {et : ElemType} {k : BitVec 3} {z : Bool} {kd : BitVec 5} {ws1 : BitVec 5} {ws2 : BitVec 5} {s : State} (h : s.Keeps p b) :
    GoesKeeping p b (execWcmpEq t et k z kd ws1 ws2 s) := by
  unfold execWcmpEq
  repeat' (with_reducible first | assumption | apply wideCmp_keeps | apply goes_next)

theorem wideMove_keeps {t : Fin 512} {w : Nat} {et : ElemType} {op : Thread → CoreOp} {s : State} (h : s.Keeps p b) :
    (wideMove t w et op s).Keeps p b := by
  unfold wideMove
  repeat' (with_reducible first | assumption | apply coreMem_keeps | apply badEncoding_keeps | apply keeps_ite | split)

theorem execWgsScatter_goes {t : Fin 512} {et : ElemType} {k : BitVec 3} {scale : BitVec 2} {wd : BitVec 5} {rs1 : BitVec 5} {ws2 : BitVec 5} {s : State} (h : s.Keeps p b) :
    GoesKeeping p b (execWgsScatter t et k scale wd rs1 ws2 s) := by
  unfold execWgsScatter
  repeat' (with_reducible first | assumption | apply wideMove_keeps | apply goes_next)

theorem execFmulwh_goes {t : Fin 512} {et : ElemType} {k : BitVec 3} {z : Bool} {wd : BitVec 5} {ws1 : BitVec 5} {ws2 : BitVec 5} {s : State} (h : s.Keeps p b) :
    GoesKeeping p b (execFmulwh t et k z wd ws1 ws2 s) := by
  unfold execFmulwh
  repeat' (with_reducible first | assumption | apply wideWiden_keeps | apply goes_next)

theorem execWextx_goes {t : Fin 512} {et : ElemType} {k : BitVec 3} {z : Bool} {rd : BitVec 5} {ws1 : BitVec 5} {rs2 : BitVec 5} {s : State} (h : s.Keeps p b) :
    GoesKeeping p b (execWextx t et k z rd ws1 rs2 s) := by
  unfold execWextx
  repeat' (with_reducible first | assumption | apply wideExec_keeps | apply goes_next)

theorem execWsgnj_goes {t : Fin 512} {et : ElemType} {k : BitVec 3} {z : Bool} {wd : BitVec 5} {ws1 : BitVec 5} {ws2 : BitVec 5} {s : State} (h : s.Keeps p b) :
    GoesKeeping p b (execWsgnj t et k z wd ws1 ws2 s) := by
  unfold execWsgnj
  repeat' (with_reducible first | assumption | apply wideBin_keeps | apply goes_next)

theorem execWmul_goes {t : Fin 512} {et : ElemType} {k : BitVec 3} {z : Bool} {wd : BitVec 5} {ws1 : BitVec 5} {ws2 : BitVec 5} {s : State} (h : s.Keeps p b) :
    GoesKeeping p b (execWmul t et k z wd ws1 ws2 s) := by
  unfold execWmul
  repeat' (with_reducible first | assumption | apply wideBin_keeps | apply goes_next)

theorem execWxor_goes {t : Fin 512} {et : ElemType} {k : BitVec 3} {z : Bool} {wd : BitVec 5} {ws1 : BitVec 5} {ws2 : BitVec 5} {s : State} (h : s.Keeps p b) :
    GoesKeeping p b (execWxor t et k z wd ws1 ws2 s) := by
  unfold execWxor
  repeat' (with_reducible first | assumption | apply wideBin_keeps | apply goes_next)

theorem execWintSub_goes {t : Fin 512} {et : ElemType} {k : BitVec 3} {z : Bool} {wd : BitVec 5} {ws1 : BitVec 5} {ws2 : BitVec 5} {s : State} (h : s.Keeps p b) :
    GoesKeeping p b (execWintSub t et k z wd ws1 ws2 s) := by
  unfold execWintSub
  repeat' (with_reducible first | assumption | apply wideBin_keeps | apply goes_next)

theorem execWintAdd_goes {t : Fin 512} {et : ElemType} {k : BitVec 3} {z : Bool} {wd : BitVec 5} {ws1 : BitVec 5} {ws2 : BitVec 5} {s : State} (h : s.Keeps p b) :
    GoesKeeping p b (execWintAdd t et k z wd ws1 ws2 s) := by
  unfold execWintAdd
  repeat' (with_reducible first | assumption | apply wideBin_keeps | apply goes_next)

theorem execWabs_goes {t : Fin 512} {et : ElemType} {k : BitVec 3} {z : Bool} {wd : BitVec 5} {ws1 : BitVec 5} {ws2 : BitVec 5} {s : State} (h : s.Keeps p b) :
    GoesKeeping p b (execWabs t et k z wd ws1 ws2 s) := by
  unfold execWabs
  repeat' (with_reducible first | assumption | apply wideBin_keeps | apply goes_next)

theorem execWand_goes {t : Fin 512} {et : ElemType} {k : BitVec 3} {z : Bool} {wd : BitVec 5} {ws1 : BitVec 5} {ws2 : BitVec 5} {s : State} (h : s.Keeps p b) :
    GoesKeeping p b (execWand t et k z wd ws1 ws2 s) := by
  unfold execWand
  repeat' (with_reducible first | assumption | apply wideBin_keeps | apply goes_next)

theorem execWmulhi_goes {t : Fin 512} {et : ElemType} {k : BitVec 3} {z : Bool} {wd : BitVec 5} {ws1 : BitVec 5} {ws2 : BitVec 5} {s : State} (h : s.Keeps p b) :
    GoesKeeping p b (execWmulhi t et k z wd ws1 ws2 s) := by
  unfold execWmulhi
  repeat' (with_reducible first | assumption | apply wideBin_keeps | apply goes_next)

theorem execMulwlu_goes {t : Fin 512} {et : ElemType} {k : BitVec 3} {z : Bool} {wd : BitVec 5} {ws1 : BitVec 5} {ws2 : BitVec 5} {s : State} (h : s.Keeps p b) :
    GoesKeeping p b (execMulwlu t et k z wd ws1 ws2 s) := by
  unfold execMulwlu
  repeat' (with_reducible first | assumption | apply wideWiden_keeps | apply goes_next)

theorem execWsub_goes {t : Fin 512} {et : ElemType} {k : BitVec 3} {z : Bool} {wd : BitVec 5} {ws1 : BitVec 5} {ws2 : BitVec 5} {s : State} (h : s.Keeps p b) :
    GoesKeeping p b (execWsub t et k z wd ws1 ws2 s) := by
  unfold execWsub
  repeat' (with_reducible first | assumption | apply wideBin_keeps | apply goes_next)

theorem execKmovx_goes {t : Fin 512} {kd : BitVec 5} {rs1 : BitVec 5} {s : State} (h : s.Keeps p b) :
    GoesKeeping p b (execKmovx t kd rs1 s) := by
  unfold execKmovx
  repeat' (with_reducible first | assumption | apply wideExec_keeps | apply goes_next)

theorem wideFma_keeps {t : Fin 512} {op : Nat} {ft : BitVec 2} {k : BitVec 3} {z : Bool} {wd : BitVec 5} {ws1 : BitVec 5} {ws2 : BitVec 5} {ws3 : BitVec 5} {negProd : Bool} {negC : Bool} {s : State} (h : s.Keeps p b) :
    (wideFma t op ft k z wd ws1 ws2 ws3 negProd negC s).Keeps p b := by
  unfold wideFma
  repeat' (with_reducible first | assumption | apply wideExec_keeps)

theorem execWfnma_goes {t : Fin 512} {ft : BitVec 2} {k : BitVec 3} {z : Bool} {wd : BitVec 5} {ws1 : BitVec 5} {ws2 : BitVec 5} {ws3 : BitVec 5} {s : State} (h : s.Keeps p b) :
    GoesKeeping p b (execWfnma t ft k z wd ws1 ws2 ws3 s) := by
  unfold execWfnma
  repeat' (with_reducible first | assumption | apply wideFma_keeps | apply goes_next)

theorem execWminu_goes {t : Fin 512} {et : ElemType} {k : BitVec 3} {z : Bool} {wd : BitVec 5} {ws1 : BitVec 5} {ws2 : BitVec 5} {s : State} (h : s.Keeps p b) :
    GoesKeeping p b (execWminu t et k z wd ws1 ws2 s) := by
  unfold execWminu
  repeat' (with_reducible first | assumption | apply wideBin_keeps | apply goes_next)

theorem execKnot_goes {t : Fin 512} {kd : BitVec 5} {ks1 : BitVec 5} {s : State} (h : s.Keeps p b) :
    GoesKeeping p b (execKnot t kd ks1 s) := by
  unfold execKnot
  repeat' (with_reducible first | assumption | apply wideExec_keeps | apply goes_next)

theorem execWinsx_goes {t : Fin 512} {et : ElemType} {k : BitVec 3} {z : Bool} {wd : BitVec 5} {rs1 : BitVec 5} {rs2 : BitVec 5} {s : State} (h : s.Keeps p b) :
    GoesKeeping p b (execWinsx t et k z wd rs1 rs2 s) := by
  unfold execWinsx
  repeat' (with_reducible first | assumption | apply wideExec_keeps | apply goes_next)

theorem execFmulwl_goes {t : Fin 512} {et : ElemType} {k : BitVec 3} {z : Bool} {wd : BitVec 5} {ws1 : BitVec 5} {ws2 : BitVec 5} {s : State} (h : s.Keeps p b) :
    GoesKeeping p b (execFmulwl t et k z wd ws1 ws2 s) := by
  unfold execFmulwl
  repeat' (with_reducible first | assumption | apply wideWiden_keeps | apply goes_next)

theorem execWgsGather_goes {t : Fin 512} {et : ElemType} {k : BitVec 3} {scale : BitVec 2} {wd : BitVec 5} {rs1 : BitVec 5} {ws2 : BitVec 5} {s : State} (h : s.Keeps p b) :
    GoesKeeping p b (execWgsGather t et k scale wd rs1 ws2 s) := by
  unfold execWgsGather
  repeat' (with_reducible first | assumption | apply wideMove_keeps | apply goes_next)

theorem execFmawl_goes {t : Fin 512} {et : ElemType} {k : BitVec 3} {z : Bool} {wd : BitVec 5} {ws1 : BitVec 5} {ws2 : BitVec 5} {s : State} (h : s.Keeps p b) :
    GoesKeeping p b (execFmawl t et k z wd ws1 ws2 s) := by
  unfold execFmawl
  repeat' (with_reducible first | assumption | apply wideWiden_keeps | apply goes_next)

theorem execWmaxu_goes {t : Fin 512} {et : ElemType} {k : BitVec 3} {z : Bool} {wd : BitVec 5} {ws1 : BitVec 5} {ws2 : BitVec 5} {s : State} (h : s.Keeps p b) :
    GoesKeeping p b (execWmaxu t et k z wd ws1 ws2 s) := by
  unfold execWmaxu
  repeat' (with_reducible first | assumption | apply wideBin_keeps | apply goes_next)

theorem execWor_goes {t : Fin 512} {et : ElemType} {k : BitVec 3} {z : Bool} {wd : BitVec 5} {ws1 : BitVec 5} {ws2 : BitVec 5} {s : State} (h : s.Keeps p b) :
    GoesKeeping p b (execWor t et k z wd ws1 ws2 s) := by
  unfold execWor
  repeat' (with_reducible first | assumption | apply wideBin_keeps | apply goes_next)

theorem execWphilox_goes {t : Fin 512} {et : ElemType} {k : BitVec 3} {z : Bool} {wd : BitVec 5} {ws1 : BitVec 5} {ws2 : BitVec 5} {s : State} (h : s.Keeps p b) :
    GoesKeeping p b (execWphilox t et k z wd ws1 ws2 s) := by
  unfold execWphilox
  repeat' (with_reducible first | assumption | apply wideExec_keeps | apply goes_next)

theorem execDot8_goes {t : Fin 512} {et : ElemType} {k : BitVec 3} {z : Bool} {wd : BitVec 5} {ws1 : BitVec 5} {ws2 : BitVec 5} {s : State} (h : s.Keeps p b) :
    GoesKeeping p b (execDot8 t et k z wd ws1 ws2 s) := by
  unfold execDot8
  repeat' (with_reducible first | assumption | apply wideDot_keeps | apply goes_next)

theorem execWshr_goes {t : Fin 512} {et : ElemType} {k : BitVec 3} {z : Bool} {wd : BitVec 5} {ws1 : BitVec 5} {ws2 : BitVec 5} {s : State} (h : s.Keeps p b) :
    GoesKeeping p b (execWshr t et k z wd ws1 ws2 s) := by
  unfold execWshr
  repeat' (with_reducible first | assumption | apply wideBin_keeps | apply goes_next)

theorem execWcmpLe_goes {t : Fin 512} {et : ElemType} {k : BitVec 3} {z : Bool} {kd : BitVec 5} {ws1 : BitVec 5} {ws2 : BitVec 5} {s : State} (h : s.Keeps p b) :
    GoesKeeping p b (execWcmpLe t et k z kd ws1 ws2 s) := by
  unfold execWcmpLe
  repeat' (with_reducible first | assumption | apply wideCmp_keeps | apply goes_next)

theorem execWsqrt_goes {t : Fin 512} {et : ElemType} {k : BitVec 3} {z : Bool} {wd : BitVec 5} {ws1 : BitVec 5} {ws2 : BitVec 5} {s : State} (h : s.Keeps p b) :
    GoesKeeping p b (execWsqrt t et k z wd ws1 ws2 s) := by
  unfold execWsqrt
  repeat' (with_reducible first | assumption | apply wideBin_keeps | apply goes_next)

theorem execWredmax_goes {t : Fin 512} {et : ElemType} {k : BitVec 3} {z : Bool} {wd : BitVec 5} {ws1 : BitVec 5} {s : State} (h : s.Keeps p b) :
    GoesKeeping p b (execWredmax t et k z wd ws1 s) := by
  unfold execWredmax
  repeat' (with_reducible first | assumption | apply wideReduce_keeps | apply goes_next)

theorem execWmov_goes {t : Fin 512} {et : ElemType} {k : BitVec 3} {z : Bool} {wd : BitVec 5} {ws1 : BitVec 5} {s : State} (h : s.Keeps p b) :
    GoesKeeping p b (execWmov t et k z wd ws1 s) := by
  unfold execWmov
  repeat' (with_reducible first | assumption | apply wideExec_keeps | apply goes_next)

theorem execWbcx_goes {t : Fin 512} {et : ElemType} {k : BitVec 3} {z : Bool} {wd : BitVec 5} {rs1 : BitVec 5} {s : State} (h : s.Keeps p b) :
    GoesKeeping p b (execWbcx t et k z wd rs1 s) := by
  unfold execWbcx
  repeat' (with_reducible first | assumption | apply wideExec_keeps | apply goes_next)

theorem execMulwhu_goes {t : Fin 512} {et : ElemType} {k : BitVec 3} {z : Bool} {wd : BitVec 5} {ws1 : BitVec 5} {ws2 : BitVec 5} {s : State} (h : s.Keeps p b) :
    GoesKeeping p b (execMulwhu t et k z wd ws1 ws2 s) := by
  unfold execMulwhu
  repeat' (with_reducible first | assumption | apply wideWiden_keeps | apply goes_next)

theorem execWmulhiu_goes {t : Fin 512} {et : ElemType} {k : BitVec 3} {z : Bool} {wd : BitVec 5} {ws1 : BitVec 5} {ws2 : BitVec 5} {s : State} (h : s.Keeps p b) :
    GoesKeeping p b (execWmulhiu t et k z wd ws1 ws2 s) := by
  unfold execWmulhiu
  repeat' (with_reducible first | assumption | apply wideBin_keeps | apply goes_next)

theorem execWfms_goes {t : Fin 512} {ft : BitVec 2} {k : BitVec 3} {z : Bool} {wd : BitVec 5} {ws1 : BitVec 5} {ws2 : BitVec 5} {ws3 : BitVec 5} {s : State} (h : s.Keeps p b) :
    GoesKeeping p b (execWfms t ft k z wd ws1 ws2 ws3 s) := by
  unfold execWfms
  repeat' (with_reducible first | assumption | apply wideFma_keeps | apply goes_next)

theorem execDot4su_goes {t : Fin 512} {et : ElemType} {k : BitVec 3} {z : Bool} {wd : BitVec 5} {ws1 : BitVec 5} {ws2 : BitVec 5} {s : State} (h : s.Keeps p b) :
    GoesKeeping p b (execDot4su t et k z wd ws1 ws2 s) := by
  unfold execDot4su
  repeat' (with_reducible first | assumption | apply wideDot_keeps | apply goes_next)

theorem execWredadd_goes {t : Fin 512} {et : ElemType} {k : BitVec 3} {z : Bool} {wd : BitVec 5} {ws1 : BitVec 5} {s : State} (h : s.Keeps p b) :
    GoesKeeping p b (execWredadd t et k z wd ws1 s) := by
  unfold execWredadd
  repeat' (with_reducible first | assumption | apply wideReduce_keeps | apply goes_next)

theorem execWcmpLeu_goes {t : Fin 512} {et : ElemType} {k : BitVec 3} {z : Bool} {kd : BitVec 5} {ws1 : BitVec 5} {ws2 : BitVec 5} {s : State} (h : s.Keeps p b) :
    GoesKeeping p b (execWcmpLeu t et k z kd ws1 ws2 s) := by
  unfold execWcmpLeu
  repeat' (with_reducible first | assumption | apply wideCmp_keeps | apply goes_next)

theorem execWshl_goes {t : Fin 512} {et : ElemType} {k : BitVec 3} {z : Bool} {wd : BitVec 5} {ws1 : BitVec 5} {ws2 : BitVec 5} {s : State} (h : s.Keeps p b) :
    GoesKeeping p b (execWshl t et k z wd ws1 ws2 s) := by
  unfold execWshl
  repeat' (with_reducible first | assumption | apply wideBin_keeps | apply goes_next)

theorem execWfma_goes {t : Fin 512} {ft : BitVec 2} {k : BitVec 3} {z : Bool} {wd : BitVec 5} {ws1 : BitVec 5} {ws2 : BitVec 5} {ws3 : BitVec 5} {s : State} (h : s.Keeps p b) :
    GoesKeeping p b (execWfma t ft k z wd ws1 ws2 ws3 s) := by
  unfold execWfma
  repeat' (with_reducible first | assumption | apply wideFma_keeps | apply goes_next)

theorem execWdiv_goes {t : Fin 512} {et : ElemType} {k : BitVec 3} {z : Bool} {wd : BitVec 5} {ws1 : BitVec 5} {ws2 : BitVec 5} {s : State} (h : s.Keeps p b) :
    GoesKeeping p b (execWdiv t et k z wd ws1 ws2 s) := by
  unfold execWdiv
  repeat' (with_reducible first | assumption | apply wideBin_keeps | apply goes_next)

theorem execDot2_goes {t : Fin 512} {et : ElemType} {k : BitVec 3} {z : Bool} {wd : BitVec 5} {ws1 : BitVec 5} {ws2 : BitVec 5} {s : State} (h : s.Keeps p b) :
    GoesKeeping p b (execDot2 t et k z wd ws1 ws2 s) := by
  unfold execDot2
  repeat' (with_reducible first | assumption | apply wideDot_keeps | apply goes_next)

theorem execWmax_goes {t : Fin 512} {et : ElemType} {k : BitVec 3} {z : Bool} {wd : BitVec 5} {ws1 : BitVec 5} {ws2 : BitVec 5} {s : State} (h : s.Keeps p b) :
    GoesKeeping p b (execWmax t et k z wd ws1 ws2 s) := by
  unfold execWmax
  repeat' (with_reducible first | assumption | apply wideBin_keeps | apply goes_next)

theorem execWfnms_goes {t : Fin 512} {ft : BitVec 2} {k : BitVec 3} {z : Bool} {wd : BitVec 5} {ws1 : BitVec 5} {ws2 : BitVec 5} {ws3 : BitVec 5} {s : State} (h : s.Keeps p b) :
    GoesKeeping p b (execWfnms t ft k z wd ws1 ws2 ws3 s) := by
  unfold execWfnms
  repeat' (with_reducible first | assumption | apply wideFma_keeps | apply goes_next)

theorem execWadd_goes {t : Fin 512} {et : ElemType} {k : BitVec 3} {z : Bool} {wd : BitVec 5} {ws1 : BitVec 5} {ws2 : BitVec 5} {s : State} (h : s.Keeps p b) :
    GoesKeeping p b (execWadd t et k z wd ws1 ws2 s) := by
  unfold execWadd
  repeat' (with_reducible first | assumption | apply wideBin_keeps | apply goes_next)

theorem execDot4w_goes {t : Fin 512} {et : ElemType} {k : BitVec 3} {z : Bool} {wd : BitVec 5} {ws1 : BitVec 5} {ws2 : BitVec 5} {s : State} (h : s.Keeps p b) :
    GoesKeeping p b (execDot4w t et k z wd ws1 ws2 s) := by
  unfold execDot4w
  repeat' (with_reducible first | assumption | apply wideDot_keeps | apply goes_next)

theorem execWintMax_goes {t : Fin 512} {et : ElemType} {k : BitVec 3} {z : Bool} {wd : BitVec 5} {ws1 : BitVec 5} {ws2 : BitVec 5} {s : State} (h : s.Keeps p b) :
    GoesKeeping p b (execWintMax t et k z wd ws1 ws2 s) := by
  unfold execWintMax
  repeat' (with_reducible first | assumption | apply wideBin_keeps | apply goes_next)

theorem execWperm_goes {t : Fin 512} {et : ElemType} {k : BitVec 3} {z : Bool} {wd : BitVec 5} {ws1 : BitVec 5} {ws2 : BitVec 5} {s : State} (h : s.Keeps p b) :
    GoesKeeping p b (execWperm t et k z wd ws1 ws2 s) := by
  unfold execWperm
  repeat' (with_reducible first | assumption | apply wideExec_keeps | apply goes_next)

theorem execWcmpNe_goes {t : Fin 512} {et : ElemType} {k : BitVec 3} {z : Bool} {kd : BitVec 5} {ws1 : BitVec 5} {ws2 : BitVec 5} {s : State} (h : s.Keeps p b) :
    GoesKeeping p b (execWcmpNe t et k z kd ws1 ws2 s) := by
  unfold execWcmpNe
  repeat' (with_reducible first | assumption | apply wideCmp_keeps | apply goes_next)

theorem execFdot2h_goes {t : Fin 512} {et : ElemType} {k : BitVec 3} {z : Bool} {wd : BitVec 5} {ws1 : BitVec 5} {ws2 : BitVec 5} {s : State} (h : s.Keeps p b) :
    GoesKeeping p b (execFdot2h t et k z wd ws1 ws2 s) := by
  unfold execFdot2h
  repeat' (with_reducible first | assumption | apply wideFdot_keeps | apply goes_next)

end Sys2Proof.Machine
end

