-- ==== Sys2Proof/Laws/KeepEngines.lean ====
section
/-!
SUPPORT. One lemma for each operation of the vector, tile and solver engines: it keeps the queue of
waiting commands and the canonical form of local memory, and each command answers a next state.
-/

namespace Sys2Proof.Machine

variable {p : List Instr} {b : Bool}

theorem State.setVec_keeps {s : State} {v : Nat} {x : Vec} (h : s.Keeps p b) : (State.setVec s v x).Keeps p b := by
  unfold State.setVec
  repeat' (with_reducible first
    | assumption | apply State.wr_keeps | apply keeps_ite | split
    | (apply keeps_mk; first  | assumption | apply State.wr_keeps))

theorem State.vecDone_keeps {s : State} {v : Nat} (h : s.Keeps p b) : (State.vecDone s v).Keeps p b := by
  unfold State.vecDone
  repeat' (with_reducible first | assumption | apply State.bump_keeps | apply State.setVec_keeps)

theorem execVst_goes {v : Fin 16} {s : State} (h : s.Keeps p b) : GoesKeeping p b (execVst v s) := by
  unfold execVst
  repeat' (with_reducible first
    | assumption | apply State.vecDone_keeps | apply State.resultStage_keeps | apply State.countVec_keeps | apply goes_next
    | apply keeps_ite | split)

theorem State.vecBusy_keeps {s : State} {v : Nat} {i : VecInstr} {r : VecRegion} (h : s.Keeps p b) : (State.vecBusy s v i r).Keeps p b := by
  unfold State.vecBusy
  repeat' (with_reducible first | assumption | apply State.bump64_keeps | apply State.bumpFree_keeps | apply keeps_ite | split)

theorem vecElementwise_keeps {v : Fin 16} {opcode : Nat} {s : State} (h : s.Keeps p b) : (vecElementwise v opcode s).Keeps p b := by
  unfold vecElementwise
  repeat' (with_reducible first
    | assumption | apply State.setVec_keeps | apply State.vecDone_keeps | apply State.vecBusy_keeps | apply State.bump_keeps
    | apply keeps_ite | split)

theorem execVecMax_goes {v : Fin 16} {s : State} (h : s.Keeps p b) : GoesKeeping p b (execVecMax v s) := by
  unfold execVecMax
  repeat' (with_reducible first | assumption | apply vecElementwise_keeps | apply goes_next)

theorem execVecMov_goes {v : Fin 16} {s : State} (h : s.Keeps p b) : GoesKeeping p b (execVecMov v s) := by
  unfold execVecMov
  repeat' (with_reducible first | assumption | apply vecElementwise_keeps | apply goes_next)

theorem execVecAnd_goes {v : Fin 16} {s : State} (h : s.Keeps p b) : GoesKeeping p b (execVecAnd v s) := by
  unfold execVecAnd
  repeat' (with_reducible first | assumption | apply vecElementwise_keeps | apply goes_next)

theorem State.takeHalf_keeps {s : State} {v : Nat} {x2 : Nat} (h : s.Keeps p b) : (State.takeHalf s v x2).Keeps p b := by
  unfold State.takeHalf
  repeat' (with_reducible first | assumption | apply State.vecDone_keeps | apply State.setVec_keeps)

theorem State.deliverHalf_keeps {s : State} {v : Nat} {x2 : Nat} {rows : List (List Nat)} (h : s.Keeps p b) :
    (State.deliverHalf s v x2 rows).Keeps p b := by
  unfold State.deliverHalf
  repeat' (with_reducible first | assumption | apply State.setVec_keeps | apply State.takeHalf_keeps | apply keeps_ite | split)

theorem execVecAbs_goes {v : Fin 16} {s : State} (h : s.Keeps p b) : GoesKeeping p b (execVecAbs v s) := by
  unfold execVecAbs
  repeat' (with_reducible first | assumption | apply vecElementwise_keeps | apply goes_next)

theorem execVecShra_goes {v : Fin 16} {s : State} (h : s.Keeps p b) : GoesKeeping p b (execVecShra v s) := by
  unfold execVecShra
  repeat' (with_reducible first | assumption | apply vecElementwise_keeps | apply goes_next)

theorem execVecNeg_goes {v : Fin 16} {s : State} (h : s.Keeps p b) : GoesKeeping p b (execVecNeg v s) := by
  unfold execVecNeg
  repeat' (with_reducible first | assumption | apply vecElementwise_keeps | apply goes_next)

theorem execVld_goes {v : Fin 16} {s : State} (h : s.Keeps p b) : GoesKeeping p b (execVld v s) := by
  unfold execVld
  repeat' (with_reducible first
    | assumption | apply State.vecDone_keeps | apply State.noteIdx_keeps | apply State.setVec_keeps | apply goes_next
    | apply keeps_ite | split)

theorem execVecXor_goes {v : Fin 16} {s : State} (h : s.Keeps p b) : GoesKeeping p b (execVecXor v s) := by
  unfold execVecXor
  repeat' (with_reducible first | assumption | apply vecElementwise_keeps | apply goes_next)

theorem execLoop_goes {v : Fin 16} {s : State} (h : s.Keeps p b) : GoesKeeping p b (execLoop v s) := by
  unfold execLoop
  repeat' (with_reducible first | assumption | apply State.vecDone_keeps | apply State.setVec_keeps | apply goes_next | apply keeps_ite | split)

theorem vecReduction_keeps {v : Fin 16} {opcode : Nat} {s : State} (h : s.Keeps p b) : (vecReduction v opcode s).Keeps p b := by
  unfold vecReduction
  repeat' (with_reducible first
    | assumption | apply State.setVec_keeps | apply State.vecDone_keeps | apply State.vecBusy_keeps | apply State.bump_keeps
    | apply keeps_ite | split)

theorem execRmin_goes {v : Fin 16} {s : State} (h : s.Keeps p b) : GoesKeeping p b (execRmin v s) := by
  unfold execRmin
  repeat' (with_reducible first | assumption | apply vecReduction_keeps | apply goes_next)

theorem execVecMin_goes {v : Fin 16} {s : State} (h : s.Keeps p b) : GoesKeeping p b (execVecMin v s) := by
  unfold execVecMin
  repeat' (with_reducible first | assumption | apply vecElementwise_keeps | apply goes_next)

theorem execLog2_goes {v : Fin 16} {s : State} (h : s.Keeps p b) : GoesKeeping p b (execLog2 v s) := by
  unfold execLog2
  repeat' (with_reducible first | assumption | apply vecElementwise_keeps | apply goes_next)

theorem execSel_goes {v : Fin 16} {s : State} (h : s.Keeps p b) : GoesKeeping p b (execSel v s) := by
  unfold execSel
  repeat' (with_reducible first | assumption | apply vecElementwise_keeps | apply goes_next)

theorem execVecCmplt_goes {v : Fin 16} {s : State} (h : s.Keeps p b) : GoesKeeping p b (execVecCmplt v s) := by
  unfold execVecCmplt
  repeat' (with_reducible first | assumption | apply vecElementwise_keeps | apply goes_next)

theorem execVecCmpeq_goes {v : Fin 16} {s : State} (h : s.Keeps p b) : GoesKeeping p b (execVecCmpeq v s) := by
  unfold execVecCmpeq
  repeat' (with_reducible first | assumption | apply vecElementwise_keeps | apply goes_next)

theorem execVecFma_goes {v : Fin 16} {s : State} (h : s.Keeps p b) : GoesKeeping p b (execVecFma v s) := by
  unfold execVecFma
  repeat' (with_reducible first | assumption | apply vecElementwise_keeps | apply goes_next)

theorem execTake_goes {v : Fin 16} {s : State} (h : s.Keeps p b) : GoesKeeping p b (execTake v s) := by
  unfold execTake
  repeat' (with_reducible first
    | assumption | apply State.vecDone_keeps | apply State.takeHalf_keeps | apply State.setVec_keeps | apply goes_next
    | apply keeps_ite | split)

theorem execVecSqrt_goes {v : Fin 16} {s : State} (h : s.Keeps p b) : GoesKeeping p b (execVecSqrt v s) := by
  unfold execVecSqrt
  repeat' (with_reducible first | assumption | apply vecElementwise_keeps | apply goes_next)

theorem execExp2_goes {v : Fin 16} {s : State} (h : s.Keeps p b) : GoesKeeping p b (execExp2 v s) := by
  unfold execExp2
  repeat' (with_reducible first | assumption | apply vecElementwise_keeps | apply goes_next)

theorem execVecSub_goes {v : Fin 16} {s : State} (h : s.Keeps p b) : GoesKeeping p b (execVecSub v s) := by
  unfold execVecSub
  repeat' (with_reducible first | assumption | apply vecElementwise_keeps | apply goes_next)

theorem execRsum_goes {v : Fin 16} {s : State} (h : s.Keeps p b) : GoesKeeping p b (execRsum v s) := by
  unfold execRsum
  repeat' (with_reducible first | assumption | apply vecReduction_keeps | apply goes_next)

theorem execVecAdd_goes {v : Fin 16} {s : State} (h : s.Keeps p b) : GoesKeeping p b (execVecAdd v s) := by
  unfold execVecAdd
  repeat' (with_reducible first | assumption | apply vecElementwise_keeps | apply goes_next)

theorem execRelu_goes {v : Fin 16} {s : State} (h : s.Keeps p b) : GoesKeeping p b (execRelu v s) := by
  unfold execRelu
  repeat' (with_reducible first | assumption | apply vecElementwise_keeps | apply goes_next)

theorem execRmax_goes {v : Fin 16} {s : State} (h : s.Keeps p b) : GoesKeeping p b (execRmax v s) := by
  unfold execRmax
  repeat' (with_reducible first | assumption | apply vecReduction_keeps | apply goes_next)

theorem execVecMul_goes {v : Fin 16} {s : State} (h : s.Keeps p b) : GoesKeeping p b (execVecMul v s) := by
  unfold execVecMul
  repeat' (with_reducible first | assumption | apply vecElementwise_keeps | apply goes_next)

theorem execRel_goes {v : Fin 16} {s : State} (h : s.Keeps p b) : GoesKeeping p b (execRel v s) := by
  unfold execRel
  repeat' (with_reducible first | assumption | apply State.vecDone_keeps | apply State.setVec_keeps | apply goes_next | apply keeps_ite | split)

theorem execVecDiv_goes {v : Fin 16} {s : State} (h : s.Keeps p b) : GoesKeeping p b (execVecDiv v s) := by
  unfold execVecDiv
  repeat' (with_reducible first | assumption | apply vecElementwise_keeps | apply goes_next)

theorem execVecClamp_goes {v : Fin 16} {s : State} (h : s.Keeps p b) : GoesKeeping p b (execVecClamp v s) := by
  unfold execVecClamp
  repeat' (with_reducible first | assumption | apply vecElementwise_keeps | apply goes_next)

theorem execVecShl_goes {v : Fin 16} {s : State} (h : s.Keeps p b) : GoesKeeping p b (execVecShl v s) := by
  unfold execVecShl
  repeat' (with_reducible first | assumption | apply vecElementwise_keeps | apply goes_next)

theorem execVecOr_goes {v : Fin 16} {s : State} (h : s.Keeps p b) : GoesKeeping p b (execVecOr v s) := by
  unfold execVecOr
  repeat' (with_reducible first | assumption | apply vecElementwise_keeps | apply goes_next)

theorem State.setTile_keeps {s : State} {t : Nat} {x : Tile} (h : s.Keeps p b) : (State.setTile s t x).Keeps p b := by
  unfold State.setTile
  repeat' (with_reducible first
    | assumption | apply State.wr_keeps | apply keeps_ite | split
    | (apply keeps_mk; first  | assumption | apply State.wr_keeps))

theorem State.tileAdvance_keeps {s : State} {t : Nat} (h : s.Keeps p b) : (State.tileAdvance s t).Keeps p b := by
  unfold State.tileAdvance
  repeat' (with_reducible first | assumption | apply State.setTile_keeps)

theorem State.tileDone_keeps {s : State} {t : Nat} (h : s.Keeps p b) : (State.tileDone s t).Keeps p b := by
  unfold State.tileDone
  repeat' (with_reducible first | assumption | apply State.bump_keeps | apply State.tileAdvance_keeps)

theorem State.walnutEvent_keeps {s : State} {t : Nat} {kind : Nat} {opB : Bool} (h : s.Keeps p b) :
    (State.walnutEvent s t kind opB).Keeps p b := by
  unfold State.walnutEvent
  repeat' (with_reducible first | assumption | apply State.raise_keeps | apply State.setTile_keeps | apply keeps_ite | split)

theorem State.countLong_keeps {s : State} {t : Nat} {e : LongEvents} (h : s.Keeps p b) : (State.countLong s t e).Keeps p b := by
  unfold State.countLong
  repeat' (with_reducible first | assumption | apply State.bump_keeps | apply State.walnutEvent_keeps | apply keeps_ite | split)

theorem State.putLong_keeps {s : State} {t : Nat} {cells : List (Nat × LongCell × LongEvents)} (h : s.Keeps p b) :
    (State.putLong s t cells).Keeps p b := by
  unfold State.putLong
  repeat' (with_reducible first | assumption | apply State.countLong_keeps | apply State.setTile_keeps)

theorem execLadd_goes {t : Fin 256} {s : State} (h : s.Keeps p b) : GoesKeeping p b (execLadd t s) := by
  unfold execLadd
  repeat' (with_reducible first
    | assumption | apply State.tileDone_keeps | apply State.noteIdx_keeps | apply State.putLong_keeps | apply goes_next
    | apply keeps_ite | split)

theorem State.noteOperand_keeps {s : State} {f : Field} {d : OpDesc} {walnut : Bool} {rows : Nat} {k : Nat} (h : s.Keeps p b) :
    (State.noteOperand s f d walnut rows k).Keeps p b := by
  unfold State.noteOperand
  repeat' (with_reducible first | assumption | apply State.noteIdx_keeps | apply keeps_ite | split)

theorem State.readOperand_keeps {s : State} {t : Nat} {fmt : Nat} {d : OpDesc} {rows : Nat} {k : Nat} {opB : Bool} (h : s.Keeps p b) :
    (((State.readOperand s t fmt d rows k opB)).2).Keeps p b := by
  unfold State.readOperand
  repeat' (with_reducible first
    | assumption | apply State.noteOperand_keeps | apply State.walnutEvent_keeps | apply State.bump_keeps
    | apply State.countTile_keeps | apply keeps_ite | split)

theorem State.slotRows_keeps {s : State} {t : Nat} {fmt : Nat} {slot : Nat} {rows : Nat} {k : Nat} (h : s.Keeps p b) :
    (((State.slotRows s t fmt slot rows k)).2).Keeps p b := by
  unfold State.slotRows
  repeat' (with_reducible first | assumption | apply keeps_ite | split | (apply keeps_mk; first  | assumption))

theorem State.arrayOperand_keeps {s : State} {t : Nat} {fmt : Nat} {src : Nat} {stream : Bool} {d : OpDesc} {rows : Nat} {k : Nat} {opB : Bool} (h : s.Keeps p b) :
    (((State.arrayOperand s t fmt src stream d rows k opB)).2).Keeps p b := by
  unfold State.arrayOperand
  repeat' (with_reducible first | assumption | apply State.readOperand_keeps | apply State.slotRows_keeps | apply keeps_ite | split)

theorem State.arrayBusy_keeps {s : State} {t : Nat} {c : TileCmd} (h : s.Keeps p b) : (State.arrayBusy s t c).Keeps p b := by
  unfold State.arrayBusy
  repeat' (with_reducible first | assumption | apply State.free_keeps | apply State.bump64_keeps)

theorem execWmma_goes {t : Fin 256} {s : State} (h : s.Keeps p b) : GoesKeeping p b (execWmma t s) := by
  unfold execWmma
  repeat' (with_reducible first
    | assumption | apply State.arrayOperand_keeps | apply State.tileDone_keeps | apply State.arrayBusy_keeps
    | apply State.putLong_keeps | apply State.setTile_keeps | apply goes_next | apply keeps_ite | split)

theorem State.drainLong_keeps {s : State} {t : Nat} {c : TileCmd} {f : Field} (h : s.Keeps p b) : (State.drainLong s t c f).Keeps p b := by
  unfold State.drainLong
  repeat' (with_reducible first | assumption | apply State.resultStage_keeps | apply State.bump_keeps | apply State.countTile_keeps)

theorem State.drainDeliver_keeps {s : State} {t : Nat} {c : TileCmd} (h : s.Keeps p b) : (State.drainDeliver s t c).Keeps p b := by
  unfold State.drainDeliver
  repeat' (with_reducible first | assumption | apply State.deliverHalf_keeps)

theorem execDrainAccept_goes {t : Fin 256} {s : State} (h : s.Keeps p b) : GoesKeeping p b (execDrainAccept t s) := by
  unfold execDrainAccept
  repeat' (with_reducible first
    | assumption | apply State.bump_keeps | apply State.setTile_keeps | apply State.drainDeliver_keeps | apply goes_next
    | apply keeps_ite | split)

theorem State.drainRaw_keeps {s : State} {t : Nat} {c : TileCmd} {f : Field} (h : s.Keeps p b) : (State.drainRaw s t c f).Keeps p b := by
  unfold State.drainRaw
  repeat' (with_reducible first | assumption | apply State.resultStage_keeps)

theorem State.drainBank_keeps {s : State} {t : Nat} {c : TileCmd} {f : Field} (h : s.Keeps p b) : (State.drainBank s t c f).Keeps p b := by
  unfold State.drainBank
  repeat' (with_reducible first | assumption | apply State.resultStage_keeps | apply State.countTile_keeps)

theorem execDrain_goes {t : Fin 256} {s : State} (h : s.Keeps p b) : GoesKeeping p b (execDrain t s) := by
  unfold execDrain
  repeat' (with_reducible first
    | assumption | apply State.tileDone_keeps | apply State.drainDeliver_keeps | apply State.tileAdvance_keeps
    | apply State.setTile_keeps | apply State.drainRaw_keeps | apply State.drainLong_keeps | apply State.drainBank_keeps
    | apply goes_next | apply keeps_ite | split)

theorem execFetch_goes {t : Fin 256} {s : State} (h : s.Keeps p b) : GoesKeeping p b (execFetch t s) := by
  unfold execFetch
  repeat' (with_reducible first
    | assumption | apply State.readOperand_keeps | apply State.tileDone_keeps | apply State.setTile_keeps | apply goes_next
    | apply keeps_ite | split)

theorem State.mma_keeps {s : State} {t : Nat} {c : TileCmd} {as : List (List Cell)} {bs : List (List Cell)} {at_ : Nat} (h : s.Keeps p b) :
    (State.mma s t c as bs at_).Keeps p b := by
  unfold State.mma
  repeat' (with_reducible first | assumption | apply State.bump_keeps | apply State.setTile_keeps)

theorem execMma_goes {t : Fin 256} {s : State} (h : s.Keeps p b) : GoesKeeping p b (execMma t s) := by
  unfold execMma
  repeat' (with_reducible first
    | assumption | apply State.arrayOperand_keeps | apply State.free_keeps | apply State.tileDone_keeps
    | apply State.arrayBusy_keeps | apply State.mma_keeps | apply goes_next | apply keeps_ite | split)

theorem State.setAsm_keeps {s : State} {u : Nat} {x : Asm} (h : s.Keeps p b) : (State.setAsm s u x).Keeps p b := by
  unfold State.setAsm
  repeat' (with_reducible first
    | assumption | apply State.wr_keeps | apply keeps_ite | split
    | (apply keeps_mk; first  | assumption | apply State.wr_keeps))

theorem State.asmDone_keeps {s : State} {u : Nat} {i : AsmInstr} (h : s.Keeps p b) : (State.asmDone s u i).Keeps p b := by
  unfold State.asmDone
  repeat' (with_reducible first | assumption | apply State.bumpFree_keeps | apply State.bump64_keeps | apply State.bump_keeps | apply State.setAsm_keeps)

theorem State.noteEntry_keeps {s : State} {i : AsmInstr} {st : AsmStream} {j : Nat} (h : s.Keeps p b) :
    (State.noteEntry s i st j).Keeps p b := by
  unfold State.noteEntry
  repeat' (with_reducible first | assumption | apply State.noteIdx_keeps | split | dsimp only | intro _ _ _ | apply keeps_foldl)

theorem State.asmSkip_keeps {s : State} {u : Nat} {j : Nat} (h : s.Keeps p b) : (State.asmSkip s u j).Keeps p b := by
  unfold State.asmSkip
  repeat' (with_reducible first | assumption | apply State.raise_keeps | apply State.bump_keeps | apply keeps_ite | split)

theorem State.asmRun_keeps {s : State} {u : Nat} {i : AsmInstr} {st : AsmStream} {j : Nat} (h : s.Keeps p b) :
    (State.asmRun s u i st j).Keeps p b := by
  unfold State.asmRun
  repeat' (with_reducible first
    | assumption | apply State.bump64_keeps | apply State.bump_keeps | apply State.putElem_keeps | apply State.noteEntry_keeps
    | apply State.asmSkip_keeps | apply keeps_ite | split)

theorem asmGather_keeps {u : Fin 4} {opcode : Nat} {s : State} (h : s.Keeps p b) : (asmGather u opcode s).Keeps p b := by
  unfold asmGather
  repeat' (with_reducible first | assumption | apply State.asmDone_keeps | apply State.asmRun_keeps | split | dsimp only | intro _ _ _ | apply keeps_foldl)

theorem execGss_goes {u : Fin 4} {s : State} (h : s.Keeps p b) : GoesKeeping p b (execGss u s) := by
  unfold execGss
  repeat' (with_reducible first | assumption | apply asmGather_keeps | apply goes_next)

theorem execGsp_goes {u : Fin 4} {s : State} (h : s.Keeps p b) : GoesKeeping p b (execGsp u s) := by
  unfold execGsp
  repeat' (with_reducible first | assumption | apply asmGather_keeps | apply goes_next)

theorem execClear_goes {u : Fin 4} {s : State} (h : s.Keeps p b) : GoesKeeping p b (execClear u s) := by
  unfold execClear
  repeat' (with_reducible first
    | assumption | apply State.asmSkip_keeps | apply State.bump64_keeps | apply State.putElem_keeps
    | apply State.asmDone_keeps | apply goes_next | split | dsimp only | intro _ _ _ | apply keeps_foldl)

theorem State.putWords_keeps {s : State} {f : Field} {bs : List Byte} (h : s.Keeps p b) : (State.putWords s f bs).Keeps p b := by
  unfold State.putWords
  repeat' (with_reducible first | assumption | apply State.putElem_keeps | split | dsimp only | intro _ _ _ | apply keeps_foldl)

theorem State.warmReject_keeps {s : State} {r : SolvRec} {kind : Nat} (h : s.Keeps p b) : (State.warmReject s r kind).Keeps p b := by
  unfold State.warmReject
  repeat' (with_reducible first | assumption | apply State.raise_keeps | apply State.bump_keeps)

theorem State.closeFeeds_keeps {s : State} {e : Nat} (h : s.Keeps p b) : (State.closeFeeds s e).Keeps p b := by
  unfold State.closeFeeds
  repeat' (with_reducible first | assumption | apply State.setTile_keeps | split | dsimp only | intro _ _ _ | apply keeps_foldl)

theorem State.noteRole_keeps {s : State} {r : SolvRec} {k : Nat} {count : Nat} (h : s.Keeps p b) :
    (State.noteRole s r k count).Keeps p b := by
  unfold State.noteRole
  repeat' (with_reducible first | assumption | apply State.noteIdx_keeps | apply keeps_ite | split)

theorem State.noteCommand_keeps {s : State} {v : Solver} {reads : List (Nat × Nat)} (h : s.Keeps p b) :
    (State.noteCommand s v reads).Keeps p b := by
  unfold State.noteCommand
  repeat' (with_reducible first
    | assumption | apply State.noteRole_keeps | apply State.bumpFree_keeps | split | dsimp only | intro _ _ _
    | apply keeps_foldl)

theorem State.rolePut_keeps {s : State} {r : SolvRec} {k : Nat} {i : Nat} {v : Nat} (h : s.Keeps p b) :
    (State.rolePut s r k i v).Keeps p b := by
  unfold State.rolePut
  repeat' (with_reducible first | assumption | apply State.putElem_keeps | apply keeps_ite | split)

theorem State.rolePut4_keeps {s : State} {r : SolvRec} {k : Nat} {i : Nat} {x4 : Nat} {v : Nat} (h : s.Keeps p b) :
    (State.rolePut4 s r k i x4 v).Keeps p b := by
  unfold State.rolePut4
  repeat' (with_reducible first | assumption | apply State.rolePut_keeps)

theorem State.scbFlag_keeps {s : State} {r : SolvRec} {x2 : Nat} {v : Bool} (h : s.Keeps p b) : (State.scbFlag s r x2 v).Keeps p b := by
  unfold State.scbFlag
  repeat' (with_reducible first | assumption | apply State.rolePut4_keeps)

theorem State.solvDone_keeps {s : State} {r : SolvRec} {opcode : Nat} (h : s.Keeps p b) : (State.solvDone s r opcode).Keeps p b := by
  unfold State.solvDone
  repeat' (with_reducible first
    | assumption | apply State.bump_keeps | apply State.closeFeeds_keeps | apply keeps_foldl | apply keeps_ite
    | apply keeps_ite_fst | apply keeps_ite_snd | apply keeps_ite_mid
    | (apply keeps_mk; first  | assumption | apply State.bump_keeps | apply State.closeFeeds_keeps | apply keeps_ite | (split <;> first | done | (rename_i heq; obtain ⟨rfl, rfl⟩ := pair_eq heq) | (rename_i heq; obtain ⟨rfl, rfl, rfl⟩ := triple_eq heq) | skip))
    | dsimp only | intro _ _ _
    | (split <;> first | done | (rename_i heq; obtain ⟨rfl, rfl⟩ := pair_eq heq) | (rename_i heq; obtain ⟨rfl, rfl, rfl⟩ := triple_eq heq) | skip))

theorem execResid_goes {id : Fin 16} {s : State} (h : s.Keeps p b) : GoesKeeping p b (execResid id s) := by
  unfold execResid
  repeat' (with_reducible first
    | assumption | apply State.noteCommand_keeps | apply State.rolePut_keeps | apply State.scbFlag_keeps
    | apply State.solvDone_keeps | apply goes_next | split | dsimp only | intro _ _ _ | apply keeps_foldl)

theorem State.setRun_keeps {s : State} {x : FactorRun} (h : s.Keeps p b) : (State.setRun s x).Keeps p b := by
  unfold State.setRun
  repeat' (with_reducible first | assumption | apply keeps_ite | split | (apply keeps_mk; first  | assumption))

theorem State.factorStart_keeps {s : State} {v : Solver} (h : s.Keeps p b) : (State.factorStart s v).Keeps p b := by
  unfold State.factorStart
  repeat' (with_reducible first
    | assumption | apply State.noteCommand_keeps | apply State.rolePut_keeps | apply State.wr_keeps | apply State.setRun_keeps
    | split | dsimp only | intro _ _ _ | apply keeps_foldl)

theorem State.updateWalnut_keeps {s : State} {v : Solver} {n : Supernode} {m : SMap Nat} (h : s.Keeps p b) :
    (((State.updateWalnut s v n m)).2).Keeps p b := by
  unfold State.updateWalnut
  repeat' (with_reducible first
    | assumption | apply State.walnutEvent_keeps | apply State.bump_keeps | apply State.setTile_keeps
    | apply State.bump64_keeps | apply State.rolePut_keeps | split | dsimp only | intro _ _ _ | apply keeps_foldl)

theorem execFactor_goes {id : Fin 16} {s : State} (h : s.Keeps p b) : GoesKeeping p b (execFactor id s) := by
  unfold execFactor
  repeat' (with_reducible first
    | assumption | apply State.scbFlag_keeps | apply State.solvDone_keeps | apply State.warmReject_keeps
    | apply State.factorStart_keeps | apply goes_next | split | dsimp only | intro _ _ _ | apply keeps_foldl)

theorem State.factorEnd_keeps {s : State} {v : Solver} {run : FactorRun} (h : s.Keeps p b) : (State.factorEnd s v run).Keeps p b := by
  unfold State.factorEnd
  repeat' (with_reducible first
    | assumption | apply State.rolePut_keeps | apply State.bump_keeps | apply State.rolePut4_keeps | apply State.raise_keeps
    | apply State.solvDone_keeps | apply keeps_foldl | apply keeps_ite | apply keeps_ite_fst | apply keeps_ite_snd
    | apply keeps_ite_mid
    | (apply keeps_mk; first  | assumption | apply State.rolePut_keeps | apply State.bump_keeps | apply State.rolePut4_keeps | apply State.raise_keeps | apply State.solvDone_keeps | apply keeps_ite | (split <;> first | done | (rename_i heq; obtain ⟨rfl, rfl⟩ := pair_eq heq) | (rename_i heq; obtain ⟨rfl, rfl, rfl⟩ := triple_eq heq) | skip))
    | dsimp only | intro _ _ _
    | (split <;> first | done | (rename_i heq; obtain ⟨rfl, rfl⟩ := pair_eq heq) | (rename_i heq; obtain ⟨rfl, rfl, rfl⟩ := triple_eq heq) | skip))

theorem State.taskDone_keeps {s : State} {v : Solver} {run : FactorRun} {i : Nat} {e : Nat} (h : s.Keeps p b) :
    (State.taskDone s v run i e).Keeps p b := by
  unfold State.taskDone
  repeat' (with_reducible first
    | assumption | apply State.bumpFree_keeps | apply State.bump_keeps | apply State.setRun_keeps
    | apply State.factorEnd_keeps | apply keeps_ite | split)

theorem execUpdate_goes {e : Fin 4} {s : State} (h : s.Keeps p b) : GoesKeeping p b (execUpdate e s) := by
  unfold execUpdate
  repeat' (with_reducible first | assumption | apply State.updateWalnut_keeps | apply State.taskDone_keeps | apply goes_next | apply keeps_ite | split)

theorem State.solveInto_keeps {s : State} {v : Solver} {src : Nat} {write : State → Nat → Nat → State} (h : s.Keeps p b)
    (hw : ∀ (u : State) (i x : Nat), u.Keeps p b → (write u i x).Keeps p b) : (State.solveInto s v src write).Keeps p b :=
  keeps_foldl h fun t _ ht => keeps_foldl ht fun u _ hu => hw u _ _ hu

theorem State.scbInit_keeps {s : State} {v : Solver} (h : s.Keeps p b) : (State.scbInit s v).Keeps p b := by
  unfold State.scbInit
  repeat' (with_reducible first | assumption | apply State.rolePut_keeps | split | dsimp only | intro _ _ _ | apply keeps_foldl)

theorem State.writePanels_keeps {s : State} {r : SolvRec} {n : Supernode} {m : SMap Nat} (h : s.Keeps p b) :
    (State.writePanels s r n m).Keeps p b := by
  unfold State.writePanels
  repeat' (with_reducible first | assumption | apply State.rolePut_keeps | split | dsimp only | intro _ _ _ | apply keeps_foldl)

theorem execPanel_goes {e : Fin 4} {s : State} (h : s.Keeps p b) : GoesKeeping p b (execPanel e s) := by
  unfold execPanel
  repeat' (with_reducible first
    | assumption | apply State.writePanels_keeps | apply State.bump_keeps | apply State.taskDone_keeps | apply goes_next
    | apply keeps_ite | split)

theorem execSolve_goes {id : Fin 16} {s : State} (h : s.Keeps p b) : GoesKeeping p b (execSolve id s) := by
  unfold execSolve
  repeat' (with_reducible first
    | assumption | apply State.scbFlag_keeps | apply State.rolePut4_keeps | apply State.rolePut_keeps
    | apply State.noteCommand_keeps | apply State.warmReject_keeps | apply State.solveInto_keeps | apply State.solvDone_keeps
    | apply goes_next | split | dsimp only | intro _ _ _ | apply keeps_foldl)

theorem execExtadd_goes {e : Fin 4} {s : State} (h : s.Keeps p b) : GoesKeeping p b (execExtadd e s) := by
  unfold execExtadd
  repeat' (with_reducible first | assumption | apply State.taskDone_keeps | apply goes_next | apply keeps_ite | split)

theorem execCorr_goes {id : Fin 16} {s : State} (h : s.Keeps p b) : GoesKeeping p b (execCorr id s) := by
  unfold execCorr
  repeat' (with_reducible first
    | assumption | apply State.rolePut_keeps | apply State.solvDone_keeps | apply State.bump_keeps
    | apply State.noteCommand_keeps | apply State.solveInto_keeps | apply State.rolePut4_keeps | apply goes_next | split
    | dsimp only | intro _ _ _ | apply keeps_foldl)

end Sys2Proof.Machine
end

