-- ==== Sys2Proof/Laws/KeepJob.lean ====
section
/-!
SUPPORT. One lemma for each operation of checkpoints, power, ageing, calibration, links, resets and the scheduler: it keeps the queue of
waiting commands and the canonical form of local memory, and each command answers a next state.
-/

namespace Sys2Proof.Machine

variable {p : List Instr} {b : Bool}

theorem State.heartbeat_keeps {s : State} (h : s.Keeps p b) : (State.heartbeat s).Keeps p b := by
  unfold State.heartbeat
  repeat' (with_reducible first | assumption | apply keeps_ite | split | (apply keeps_mk; first  | assumption))

theorem State.clearRegs_keeps {s : State} {ty : Nat} {offs : List Nat} (h : s.Keeps p b) : (State.clearRegs s ty offs).Keeps p b := by
  unfold State.clearRegs
  repeat' (with_reducible first | assumption | apply keeps_ite | split | (apply keeps_mk; first  | assumption))

theorem State.setLlmDie_keeps {s : State} {k : Nat} {mode : Nat} (h : s.Keeps p b) : (State.setLlmDie s k mode).Keeps p b := by
  unfold State.setLlmDie
  repeat' (with_reducible first
    | assumption | apply State.zeroRange_keeps | apply State.setFlag_keeps | apply State.wr_keeps | split | dsimp only
    | intro _ _ _ | apply keeps_foldl)

theorem State.dropLlmDie_keeps {s : State} {k : Nat} (h : s.Keeps p b) : (State.dropLlmDie s k).Keeps p b := by
  unfold State.dropLlmDie
  repeat' (with_reducible first
    | assumption | apply State.setFlag_keeps | apply State.setLlmDie_keeps | apply keeps_ite | split
    | (apply keeps_mk; first  | assumption | apply State.setFlag_keeps | apply State.setLlmDie_keeps))

theorem State.dropLlmModes_keeps {s : State} (h : s.Keeps p b) : (State.dropLlmModes s).Keeps p b := by
  unfold State.dropLlmModes
  repeat' (with_reducible first
    | assumption | apply State.setFlag_keeps | apply State.dropLlmDie_keeps | apply keeps_foldl | apply keeps_ite
    | apply keeps_ite_fst | apply keeps_ite_snd | apply keeps_ite_mid
    | (apply keeps_mk; first  | assumption | apply State.setFlag_keeps | apply State.dropLlmDie_keeps | apply keeps_ite | (split <;> first | done | (rename_i heq; obtain ⟨rfl, rfl⟩ := pair_eq heq) | (rename_i heq; obtain ⟨rfl, rfl, rfl⟩ := triple_eq heq) | skip))
    | dsimp only | intro _ _ _
    | (split <;> first | done | (rename_i heq; obtain ⟨rfl, rfl⟩ := pair_eq heq) | (rename_i heq; obtain ⟨rfl, rfl, rfl⟩ := triple_eq heq) | skip))

theorem State.refuseHeld_keeps {s : State} (h : s.Keeps p b) : (State.refuseHeld s).Keeps p b := by
  unfold State.refuseHeld
  repeat' (with_reducible first
    | assumption | apply State.answer_keeps | apply keeps_foldl | apply keeps_ite | apply keeps_ite_fst | apply keeps_ite_snd
    | apply keeps_ite_mid
    | (apply keeps_mk; first  | assumption | apply State.answer_keeps | apply keeps_ite | (split <;> first | done | (rename_i heq; obtain ⟨rfl, rfl⟩ := pair_eq heq) | (rename_i heq; obtain ⟨rfl, rfl, rfl⟩ := triple_eq heq) | skip))
    | dsimp only | intro _ _ _
    | (split <;> first | done | (rename_i heq; obtain ⟨rfl, rfl⟩ := pair_eq heq) | (rename_i heq; obtain ⟨rfl, rfl, rfl⟩ := triple_eq heq) | skip))

theorem State.unload_keeps {s : State} {abort : Bool} (h : s.Keeps p b) : (State.unload s abort).Keeps p b := by
  unfold State.unload
  repeat' (with_reducible first
    | assumption | apply State.abandonJob_keeps | apply State.clearRegs_keeps | apply State.dropLlmModes_keeps
    | apply State.oregClearAll_keeps | apply State.setFlag_keeps | apply State.setFld_keeps
    | apply State.readoutAtBoundary_keeps | apply State.syncGrants_keeps | apply State.refuseHeld_keeps | apply keeps_ite
    | split
    | (apply keeps_mk; first  | assumption | apply State.abandonJob_keeps | apply State.clearRegs_keeps | apply State.dropLlmModes_keeps | apply State.oregClearAll_keeps | apply State.setFlag_keeps | apply State.setFld_keeps | apply State.readoutAtBoundary_keeps | apply State.syncGrants_keeps | apply State.refuseHeld_keeps))

theorem State.endNormal_keeps {s : State} (h : s.Keeps p b) : (State.endNormal s).Keeps p b := by
  unfold State.endNormal
  repeat' (with_reducible first | assumption | apply State.setJobState_keeps | apply State.unload_keeps | apply State.postEvent_keeps)

theorem State.enterHold_keeps {s : State} {reason : Nat} (h : s.Keeps p b) : (State.enterHold s reason).Keeps p b := by
  unfold State.enterHold
  repeat' (with_reducible first
    | assumption | apply State.fwLog_keeps | apply State.postEvent_keeps | apply State.setFld_keeps
    | apply State.setJobState_keeps | apply keeps_ite | split
    | (apply keeps_mk; first  | assumption | apply State.fwLog_keeps | apply State.postEvent_keeps | apply State.setFld_keeps | apply State.setJobState_keeps))

theorem State.finAtOnce_keeps {s : State} (h : s.Keeps p b) : (State.finAtOnce s).Keeps p b := by
  unfold State.finAtOnce
  repeat' (with_reducible first | assumption | apply State.endNormal_keeps | apply State.enterHold_keeps | apply keeps_ite | split)

theorem State.clearHold_keeps {s : State} (h : s.Keeps p b) : (State.clearHold s).Keeps p b := by
  unfold State.clearHold
  repeat' (with_reducible first
    | assumption | apply State.wr_keeps | apply keeps_ite | split
    | (apply keeps_mk; first  | assumption | apply State.wr_keeps))

theorem State.endStreams_keeps {s : State} {g : Segment} (h : s.Keeps p b) : (State.endStreams s g).Keeps p b := by
  unfold State.endStreams
  repeat' (with_reducible first
    | assumption | apply State.setTile_keeps | apply State.setVec_keeps | apply State.setAsm_keeps | apply State.setFld_keeps
    | apply State.setThread_keeps | apply keeps_foldl | apply keeps_ite | apply keeps_ite_fst | apply keeps_ite_snd
    | apply keeps_ite_mid
    | (apply keeps_mk; first  | assumption | apply State.setTile_keeps | apply State.setVec_keeps | apply State.setAsm_keeps | apply State.setFld_keeps | apply State.setThread_keeps | apply keeps_ite | (split <;> first | done | (rename_i heq; obtain ⟨rfl, rfl⟩ := pair_eq heq) | (rename_i heq; obtain ⟨rfl, rfl, rfl⟩ := triple_eq heq) | skip))
    | dsimp only | intro _ _ _
    | (split <;> first | done | (rename_i heq; obtain ⟨rfl, rfl⟩ := pair_eq heq) | (rename_i heq; obtain ⟨rfl, rfl, rfl⟩ := triple_eq heq) | skip))

theorem State.syncPhase_keeps {s : State} (h : s.Keeps p b) : (State.syncPhase s).Keeps p b := by
  unfold State.syncPhase
  repeat' (with_reducible first
    | assumption | apply State.syncGrants_keeps | apply keeps_ite | split
    | (apply keeps_mk; first  | assumption | apply State.syncGrants_keeps))

theorem State.dispatch_keeps {s : State} (h : s.Keeps p b) : (State.dispatch s).Keeps p b := by
  unfold State.dispatch
  repeat' (with_reducible first
    | assumption | apply State.enterHold_keeps | apply State.raise_keeps | apply State.clearRegs_keeps | apply State.wr_keeps
    | apply State.setFlag_keeps | apply State.setJobState_keeps | apply State.syncPhase_keeps | apply State.fwLog_keeps
    | apply keeps_foldl | apply keeps_ite | apply keeps_ite_fst | apply keeps_ite_snd | apply keeps_ite_mid
    | (apply keeps_mk; first  | assumption | apply State.enterHold_keeps | apply State.raise_keeps | apply State.clearRegs_keeps | apply State.wr_keeps | apply State.setFlag_keeps | apply State.setJobState_keeps | apply State.syncPhase_keeps | apply State.fwLog_keeps | apply keeps_ite | (split <;> first | done | (rename_i heq; obtain ⟨rfl, rfl⟩ := pair_eq heq) | (rename_i heq; obtain ⟨rfl, rfl, rfl⟩ := triple_eq heq) | skip))
    | dsimp only | intro _ _ _
    | (split <;> first | done | (rename_i heq; obtain ⟨rfl, rfl⟩ := pair_eq heq) | (rename_i heq; obtain ⟨rfl, rfl, rfl⟩ := triple_eq heq) | skip))

theorem State.resume_keeps {s : State} (h : s.Keeps p b) : (State.resume s).Keeps p b := by
  unfold State.resume
  repeat' (with_reducible first
    | assumption | apply State.setFlag_keeps | apply State.dispatch_keeps | apply State.postEvent_keeps | apply keeps_ite
    | split)

theorem State.hifDone_keeps {s : State} {seq : Nat} {err : Nat} (h : s.Keeps p b) : (State.hifDone s seq err).Keeps p b := by
  unfold State.hifDone
  repeat' (with_reducible first | assumption | apply State.report_keeps | apply State.setInt_keeps | apply State.setFlag_keeps | apply State.wr_keeps)

theorem State.setLlmModes_keeps {s : State} {fs : List Field} (h : s.Keeps p b) : (State.setLlmModes s fs).Keeps p b := by
  unfold State.setLlmModes
  repeat' (with_reducible first
    | assumption | apply State.dropLlmDie_keeps | apply State.setFlag_keeps | apply State.setLlmDie_keeps | split | dsimp only
    | intro _ _ _ | apply keeps_foldl)

theorem State.clearFirst_keeps {s : State} {ty : Nat} {codes : List Nat} {ctr : (State → Nat → Bool)} (h : s.Keeps p b) :
    (State.clearFirst s ty codes ctr).Keeps p b := by
  unfold State.clearFirst
  repeat' (with_reducible first | assumption | apply State.setHdr_keeps | split | dsimp only | intro _ _ _ | apply keeps_foldl)

theorem State.startStreams_keeps {s : State} {i : Nat} {g : Segment} (h : s.Keeps p b) : (State.startStreams s i g).Keeps p b := by
  unfold State.startStreams
  repeat' (with_reducible first
    | assumption | apply State.setTile_keeps | apply State.wr_keeps | apply State.setVec_keeps | apply State.setAsm_keeps
    | apply State.setFld_keeps | apply State.startThread_keeps | apply keeps_foldl | apply keeps_ite | apply keeps_ite_fst
    | apply keeps_ite_snd | apply keeps_ite_mid
    | (apply keeps_mk; first  | assumption | apply State.setTile_keeps | apply State.wr_keeps | apply State.setVec_keeps | apply State.setAsm_keeps | apply State.setFld_keeps | apply State.startThread_keeps | apply keeps_ite | (split <;> first | done | (rename_i heq; obtain ⟨rfl, rfl⟩ := pair_eq heq) | (rename_i heq; obtain ⟨rfl, rfl, rfl⟩ := triple_eq heq) | skip))
    | dsimp only | intro _ _ _
    | (split <;> first | done | (rename_i heq; obtain ⟨rfl, rfl⟩ := pair_eq heq) | (rename_i heq; obtain ⟨rfl, rfl, rfl⟩ := triple_eq heq) | skip))

theorem State.llmPend_keeps {s : State} {fs : List Field} (h : s.Keeps p b) : (State.llmPend s fs).Keeps p b := by
  unfold State.llmPend
  repeat' (with_reducible first | assumption | apply State.setFlag_keeps | split | dsimp only | intro _ _ _ | apply keeps_foldl)

theorem State.endJob_keeps {s : State} {reason : Nat} {err : Nat} (h : s.Keeps p b) : (State.endJob s reason err).Keeps p b := by
  unfold State.endJob
  repeat' (with_reducible first
    | assumption | apply State.postEvent_keeps | apply State.setJobState_keeps | apply State.unload_keeps | apply keeps_ite
    | split
    | (apply keeps_mk; first  | assumption | apply State.postEvent_keeps | apply State.setJobState_keeps | apply State.unload_keeps))

theorem State.afterCkpt_keeps {s : State} (h : s.Keeps p b) : (State.afterCkpt s).Keeps p b := by
  unfold State.afterCkpt
  repeat' (with_reducible first
    | assumption | apply State.endNormal_keeps | apply State.enterHold_keeps | apply State.dispatch_keeps | apply keeps_ite
    | split)

theorem State.ckptBegin_keeps {s : State} {after : CkptAfter} {d : CkptDest} (h : s.Keeps p b) : (State.ckptBegin s after d).Keeps p b := by
  unfold State.ckptBegin
  repeat' (with_reducible first
    | assumption | apply State.setJobState_keeps | apply State.setFld_keeps | apply State.wr_keeps | apply State.useHbm_keeps
    | apply keeps_ite | split
    | (apply keeps_mk; first  | assumption | apply State.setJobState_keeps | apply State.setFld_keeps | apply State.wr_keeps | apply State.useHbm_keeps))

theorem State.seal_keeps {s : State} {d : CkptDest} {step : Nat} {x3 : ObjHead} {text : List Byte} (h : s.Keeps p b) :
    (((State.seal s d step x3 text)).2).Keeps p b := by
  unfold State.seal
  repeat' (with_reducible first | assumption | apply State.freeBytes_keeps)

theorem State.dropPuts_keeps {s : State} (h : s.Keeps p b) : (State.dropPuts s).Keeps p b := by
  unfold State.dropPuts
  repeat' (with_reducible first | assumption | apply keeps_ite | split | (apply keeps_mk; first  | assumption))

theorem State.propose_keeps {s : State} {d : CkptDest} {step : Nat} (h : s.Keeps p b) : (State.propose s d step).Keeps p b := by
  unfold State.propose
  repeat' (with_reducible first | assumption | apply State.amoLocal_keeps | apply State.issue_keeps | split | dsimp only | intro _ _ _ | apply keeps_foldl)

theorem State.mkObj_keeps {s : State} {d : CkptDest} {step : Nat} {id : Nat} {x4 : ObjHead} {text : List Byte} (h : s.Keeps p b) :
    (((State.mkObj s d step id x4 text)).2).Keeps p b := by
  unfold State.mkObj
  repeat' (with_reducible first | assumption | apply State.seal_keeps)

theorem State.ckptOver_keeps {s : State} {after : CkptAfter} (h : s.Keeps p b) : (State.ckptOver s after).Keeps p b := by
  unfold State.ckptOver
  repeat' (with_reducible first
    | assumption | apply State.setFld_keeps | apply State.dropHbm_keeps | apply State.afterCkpt_keeps
    | apply State.finAtOnce_keeps | apply State.resume_keeps | apply keeps_ite | split
    | (apply keeps_mk; first  | assumption | apply State.setFld_keeps | apply State.dropHbm_keeps | apply State.afterCkpt_keeps | apply State.finAtOnce_keeps | apply State.resume_keeps))

theorem State.ckptDone_keeps {s : State} {step : Nat} {err : Nat} (h : s.Keeps p b) : (State.ckptDone s step err).Keeps p b := by
  unfold State.ckptDone
  repeat' (with_reducible first | assumption | apply State.fwLog_keeps | apply State.postEvent_keeps)

theorem State.ckptSettle_keeps {s : State} (h : s.Keeps p b) : (State.ckptSettle s).Keeps p b := by
  unfold State.ckptSettle
  repeat' (with_reducible first
    | assumption | apply State.ckptOver_keeps | apply State.ckptDone_keeps | apply State.setFld_keeps | apply State.bump_keeps
    | apply keeps_ite | split)

theorem State.putPieces_keeps {s : State} {x1 : Nat} (h : s.Keeps p b) : (State.putPieces s x1).Keeps p b := by
  induction x1 generalizing s with
  | zero => exact h
  | succ n ih =>
  unfold State.putPieces
  try dsimp only
  repeat' (with_reducible first
    | assumption | apply ih | apply State.bump64_keeps | apply State.issue_keeps | apply keeps_foldl | apply keeps_foldl_fst | apply keeps_foldl_snd | apply keeps_ite | apply goes_ite | apply keeps_ite_fst | apply keeps_ite_snd | apply keeps_ite_mid | apply goes_next
    | (apply keeps_mk; first | assumption | apply ih | apply State.bump64_keeps | apply State.issue_keeps | apply keeps_foldl | apply keeps_foldl_fst | apply keeps_foldl_snd | apply keeps_ite | apply goes_ite | apply keeps_ite_fst | apply keeps_ite_snd | apply keeps_ite_mid | (split <;> first | done | (rename_i heq; obtain ⟨rfl, rfl⟩ := pair_eq heq) | (rename_i heq; obtain ⟨rfl, rfl, rfl⟩ := triple_eq heq) | skip))
    | intro _ _ _ | dsimp only |  (split <;> first | done | (rename_i heq; obtain ⟨rfl, rfl⟩ := pair_eq heq) | (rename_i heq; obtain ⟨rfl, rfl, rfl⟩ := triple_eq heq) | skip))

theorem State.setRunCkpt_keeps {s : State} {r : CkptRun} (h : s.Keeps p b) : (State.setRunCkpt s r).Keeps p b := by
  unfold State.setRunCkpt
  repeat' (with_reducible first | assumption | apply keeps_ite | split | (apply keeps_mk; first  | assumption))

theorem execCkptManifestPut_goes {s : State} (h : s.Keeps p b) : GoesKeeping p b (execCkptManifestPut s) := by
  unfold execCkptManifestPut
  repeat' (with_reducible first
    | assumption | apply State.fetch_keeps | apply State.mkObj_keeps | apply State.ckptSettle_keeps
    | apply State.putPieces_keeps | apply State.setRunCkpt_keeps | apply State.setFld_keeps | apply goes_next
    | apply keeps_ite | split)

theorem State.shards_keeps {s : State} {d : CkptDest} {j : Job} (h : s.Keeps p b) : (((State.shards s d j)).2).Keeps p b := by
  unfold State.shards
  try dsimp only
  repeat' (with_reducible first
    | assumption | apply State.fetch_keeps | apply keeps_foldl | apply keeps_foldl_fst | apply keeps_foldl_snd | apply keeps_ite | apply goes_ite | apply keeps_ite_fst | apply keeps_ite_snd | apply keeps_ite_mid | apply goes_next
    | (apply keeps_mk; first | assumption | apply State.fetch_keeps | apply keeps_foldl | apply keeps_foldl_fst | apply keeps_foldl_snd | apply keeps_ite | apply goes_ite | apply keeps_ite_fst | apply keeps_ite_snd | apply keeps_ite_mid | (split <;> first | done | (rename_i heq; obtain ⟨rfl, rfl⟩ := pair_eq heq) | (rename_i heq; obtain ⟨rfl, rfl, rfl⟩ := triple_eq heq) | skip))
    | intro _ _ _ | intro _ _ | dsimp only | (split <;> first | done | (rename_i heq; obtain ⟨rfl, rfl⟩ := pair_eq heq) | (rename_i heq; obtain ⟨rfl, rfl, rfl⟩ := triple_eq heq) | skip))

theorem execCkptCommit_goes {s : State} (h : s.Keeps p b) : GoesKeeping p b (execCkptCommit s) := by
  unfold execCkptCommit
  repeat' (with_reducible first
    | assumption | apply State.ckptOver_keeps | apply State.ckptDone_keeps | apply State.wr_keeps | apply goes_next
    | apply keeps_ite | split)

theorem execCkptTimeout_goes {s : State} (h : s.Keeps p b) : GoesKeeping p b (execCkptTimeout s) := by
  unfold execCkptTimeout
  repeat' (with_reducible first
    | assumption | apply State.raise_keeps | apply State.setFld_keeps | apply State.bump_keeps | apply State.ckptOver_keeps
    | apply State.ckptDone_keeps | apply goes_next | apply keeps_ite | split
    | (apply keeps_mk; first  | assumption | apply State.raise_keeps | apply State.setFld_keeps | apply State.bump_keeps | apply State.ckptOver_keeps | apply State.ckptDone_keeps))

theorem State.ckptIndex_keeps {s : State} (h : s.Keeps p b) : (State.ckptIndex s).Keeps p b := by
  unfold State.ckptIndex
  repeat' (with_reducible first
    | assumption | apply State.mkObj_keeps | apply State.ckptSettle_keeps | apply State.putPieces_keeps
    | apply State.setRunCkpt_keeps | apply keeps_ite | split)

theorem State.ckptTrigger_keeps {s : State} (h : s.Keeps p b) : (State.ckptTrigger s).Keeps p b := by
  unfold State.ckptTrigger
  repeat' (with_reducible first | assumption | apply State.propose_keeps | apply keeps_ite | split)

theorem State.noteTarget_keeps {s : State} (h : s.Keeps p b) : (State.noteTarget s).Keeps p b := by
  unfold State.noteTarget
  cases s.dest with
  | none => exact h
  | some d => exact State.noteRange_keeps h

theorem State.ckptFail_keeps {s : State} {code : Nat} (h : s.Keeps p b) : (State.ckptFail s code).Keeps p b := by
  unfold State.ckptFail
  repeat' (with_reducible first
    | assumption | apply State.ckptSettle_keeps | apply State.setRunCkpt_keeps | apply State.dropPuts_keeps | apply keeps_ite
    | split)

theorem State.ckptObjects_keeps {s : State} {d : CkptDest} {step : Nat} {hs : List (ObjHead × List Byte)} (h : s.Keeps p b) :
    (((State.ckptObjects s d step hs)).2).Keeps p b := by
  unfold State.ckptObjects
  try dsimp only
  repeat' (with_reducible first
    | assumption | apply State.mkObj_keeps | apply keeps_foldl | apply keeps_foldl_fst | apply keeps_foldl_snd | apply keeps_ite | apply goes_ite | apply keeps_ite_fst | apply keeps_ite_snd | apply keeps_ite_mid | apply goes_next
    | (apply keeps_mk; first | assumption | apply State.mkObj_keeps | apply keeps_foldl | apply keeps_foldl_fst | apply keeps_foldl_snd | apply keeps_ite | apply goes_ite | apply keeps_ite_fst | apply keeps_ite_snd | apply keeps_ite_mid | (split <;> first | done | (rename_i heq; obtain ⟨rfl, rfl⟩ := pair_eq heq) | (rename_i heq; obtain ⟨rfl, rfl, rfl⟩ := triple_eq heq) | skip))
    | intro _ _ _ | intro _ _ | dsimp only | (split <;> first | done | (rename_i heq; obtain ⟨rfl, rfl⟩ := pair_eq heq) | (rename_i heq; obtain ⟨rfl, rfl, rfl⟩ := triple_eq heq) | skip))

theorem State.startCkpt_keeps {s : State} {after : CkptAfter} (h : s.Keeps p b) : (State.startCkpt s after).Keeps p b := by
  unfold State.startCkpt
  repeat' (with_reducible first
    | assumption | apply State.ckptBegin_keeps | apply State.ckptFail_keeps | apply State.setRunCkpt_keeps
    | apply State.shards_keeps | apply State.ckptObjects_keeps | apply State.ckptSettle_keeps | apply State.putPieces_keeps
    | apply State.ckptOver_keeps | split | dsimp only | intro _ _ _ | apply keeps_foldl)

theorem State.ckptAtBoundary_keeps {s0 : State} (h : s0.Keeps p b) : (State.ckptAtBoundary s0).Keeps p b := by
  unfold State.ckptAtBoundary
  repeat' (with_reducible first
    | assumption | apply State.noteTarget_keeps | apply State.startCkpt_keeps | apply State.propose_keeps
    | apply State.afterCkpt_keeps | split | dsimp only | intro _ _ _ | apply keeps_foldl)

theorem State.ckptAck_keeps {s : State} {id : Nat} {piece : Nat} (h : s.Keeps p b) : (State.ckptAck s id piece).Keeps p b := by
  unfold State.ckptAck
  repeat' (with_reducible first
    | assumption | apply State.ckptIndex_keeps | apply State.ckptSettle_keeps | apply State.putPieces_keeps
    | apply State.setRunCkpt_keeps | apply keeps_ite | split)

theorem State.ckptWatch_keeps {s : State} (h : s.Keeps p b) : (State.ckptWatch s).Keeps p b := by
  unfold State.ckptWatch
  repeat' (with_reducible first | assumption | apply State.ckptOver_keeps | apply State.setFlag_keeps | apply keeps_ite | split)

theorem execCkptShardsDurable_goes {s : State} (h : s.Keeps p b) : GoesKeeping p b (execCkptShardsDurable s) := by
  unfold execCkptShardsDurable
  repeat' (with_reducible first
    | assumption | apply State.ckptDone_keeps | apply State.store_keeps | apply State.setRunCkpt_keeps
    | apply State.setFld_keeps | apply State.ckptWatch_keeps | apply State.issue_keeps | apply State.ckptOver_keeps
    | apply goes_next | split | dsimp only | intro _ _ _ | apply keeps_foldl)

theorem State.schAdvisory_keeps {s : State} (h : s.Keeps p b) : (State.schAdvisory s).Keeps p b := by
  unfold State.schAdvisory
  repeat' (with_reducible first
    | assumption | apply State.ckptTrigger_keeps | apply State.postEvent_keeps | apply keeps_ite | split
    | (apply keeps_mk; first  | assumption | apply State.ckptTrigger_keeps | apply State.postEvent_keeps))

theorem State.advise_keeps {s : State} {fwp : Nat} {ty : Nat} {inst : Nat} {unit : Nat} {rate : Nat} (h : s.Keeps p b) :
    (State.advise s fwp ty inst unit rate).Keeps p b := by
  unfold State.advise
  repeat' (with_reducible first | assumption | apply State.schAdvisory_keeps | apply State.fwLog_keeps | apply State.setInt_keeps)

theorem State.noteSensors_keeps {s : State} (h : s.Keeps p b) : (State.noteSensors s).Keeps p b := by
  unfold State.noteSensors
  repeat' (with_reducible first | assumption | apply keeps_ite | split | (apply keeps_mk; first  | assumption))

theorem State.setRailMv_keeps {s : State} {r : Nat} {mv : Nat} (h : s.Keeps p b) : (State.setRailMv s r mv).Keeps p b := by
  unfold State.setRailMv
  repeat' (with_reducible first | assumption | apply State.wr_keeps)

theorem State.killDomains_keeps {s : State} {ds : List Nat} (h : s.Keeps p b) : (State.killDomains s ds).Keeps p b := by
  unfold State.killDomains
  repeat' (with_reducible first
    | assumption | apply State.syncClk_keeps | apply keeps_ite | split
    | (apply keeps_mk; first  | assumption | apply State.syncClk_keeps))

theorem execRailFault_goes {rail : Fin 14} {s : State} (h : s.Keeps p b) : GoesKeeping p b (execRailFault rail s) := by
  unfold execRailFault
  repeat' (with_reducible first
    | assumption | apply State.killDomains_keeps | apply State.setFlag_keeps | apply State.noteSensors_keeps
    | apply State.endJob_keeps | apply State.raise_keeps | apply goes_next | apply keeps_ite | split
    | (apply keeps_mk; first  | assumption | apply State.killDomains_keeps | apply State.setFlag_keeps | apply State.noteSensors_keeps | apply State.endJob_keeps | apply State.raise_keeps))

theorem State.setLevel_keeps {s : State} {die : Nat} {l : Nat} (h : s.Keeps p b) : (State.setLevel s die l).Keeps p b := by
  unfold State.setLevel
  repeat' (with_reducible first | assumption | apply State.fwLog_keeps | apply State.setFld_keeps | apply keeps_ite | split)

theorem State.loopDie_keeps {s : State} {watts : Nat} {die : Nat} (h : s.Keeps p b) : (State.loopDie s watts die).Keeps p b := by
  unfold State.loopDie
  repeat' (with_reducible first
    | assumption | apply State.setLevel_keeps | apply keeps_ite | split
    | (apply keeps_mk; first  | assumption | apply State.setLevel_keeps))

theorem State.clampDie_keeps {s : State} {die : Nat} (h : s.Keeps p b) : (State.clampDie s die).Keeps p b := by
  unfold State.clampDie
  repeat' (with_reducible first
    | assumption | apply State.setLevel_keeps | apply keeps_ite | split
    | (apply keeps_mk; first  | assumption | apply State.setLevel_keeps))

theorem execCurrentClamp_goes {rail : Fin 14} {s : State} (h : s.Keeps p b) : GoesKeeping p b (execCurrentClamp rail s) := by
  unfold execCurrentClamp
  repeat' (with_reducible first
    | assumption | apply State.clampDie_keeps | apply State.bump_keeps | apply State.setFlag_keeps | apply State.raise_keeps
    | apply State.noteSensors_keeps | apply keeps_foldl | apply keeps_ite | apply keeps_ite_fst | apply keeps_ite_snd
    | apply keeps_ite_mid | apply goes_next | apply goes_ite
    | (apply keeps_mk; first  | assumption | apply State.clampDie_keeps | apply State.bump_keeps | apply State.setFlag_keeps | apply State.raise_keeps | apply State.noteSensors_keeps | apply keeps_ite | (split <;> first | done | (rename_i heq; obtain ⟨rfl, rfl⟩ := pair_eq heq) | (rename_i heq; obtain ⟨rfl, rfl, rfl⟩ := triple_eq heq) | skip))
    | dsimp only | intro _ _ _
    | (split <;> first | done | (rename_i heq; obtain ⟨rfl, rfl⟩ := pair_eq heq) | (rename_i heq; obtain ⟨rfl, rfl, rfl⟩ := triple_eq heq) | skip))

theorem execQuantum_goes {rises : List Int} {s : State} (h : s.Keeps p b) : GoesKeeping p b (execQuantum rises s) := by
  unfold execQuantum
  repeat' (with_reducible first | assumption | apply State.quantum_keeps | apply goes_next)

theorem State.moveRail_keeps {s : State} {x : Nat × Nat × Nat} (h : s.Keeps p b) : (State.moveRail s x).Keeps p b := by
  unfold State.moveRail
  repeat' (with_reducible first | assumption | apply State.emit_keeps | apply State.setRailMv_keeps | apply keeps_ite | split)

theorem State.rollWindow_keeps {s : State} (h : s.Keeps p b) : (State.rollWindow s).Keeps p b := by
  unfold State.rollWindow
  repeat' (with_reducible first | assumption | apply keeps_ite | split | (apply keeps_mk; first  | assumption))

theorem State.pwrLoop_keeps {s : State} {mv : List Nat} {da : List Nat} {mw : List Nat} (h : s.Keeps p b) :
    (State.pwrLoop s mv da mw).Keeps p b := by
  unfold State.pwrLoop
  repeat' (with_reducible first
    | assumption | apply State.wr_keeps | apply State.loopDie_keeps | apply State.setLevel_keeps | apply State.setFlag_keeps
    | apply State.moveRail_keeps | apply State.rollWindow_keeps | apply keeps_foldl | apply keeps_ite | apply keeps_ite_fst
    | apply keeps_ite_snd | apply keeps_ite_mid
    | (apply keeps_mk; first  | assumption | apply State.wr_keeps | apply State.loopDie_keeps | apply State.setLevel_keeps | apply State.setFlag_keeps | apply State.moveRail_keeps | apply State.rollWindow_keeps | apply keeps_ite | (split <;> first | done | (rename_i heq; obtain ⟨rfl, rfl⟩ := pair_eq heq) | (rename_i heq; obtain ⟨rfl, rfl, rfl⟩ := triple_eq heq) | skip))
    | dsimp only | intro _ _ _
    | (split <;> first | done | (rename_i heq; obtain ⟨rfl, rfl⟩ := pair_eq heq) | (rename_i heq; obtain ⟨rfl, rfl, rfl⟩ := triple_eq heq) | skip))

theorem execPwrLoop_goes {mv : List (BitVec 16)} {da : List (BitVec 16)} {mw : List (BitVec 32)} {s : State} (h : s.Keeps p b) :
    GoesKeeping p b (execPwrLoop mv da mw s) := by
  unfold execPwrLoop
  repeat' (with_reducible first | assumption | apply State.noteSensors_keeps | apply State.pwrLoop_keeps | apply goes_next | apply keeps_ite | split)

theorem State.closeGates_keeps {s : State} (h : s.Keeps p b) : (State.closeGates s).Keeps p b := by
  unfold State.closeGates
  repeat' (with_reducible first | assumption | apply keeps_ite | split | (apply keeps_mk; first  | assumption))

theorem State.thermTrip_keeps {s : State} {sensor : Nat} (h : s.Keeps p b) : (State.thermTrip s sensor).Keeps p b := by
  unfold State.thermTrip
  repeat' (with_reducible first
    | assumption | apply State.closeGates_keeps | apply State.wr_keeps | apply State.driveLoadstep_keeps
    | apply State.killDomains_keeps | apply keeps_ite | split
    | (apply keeps_mk; first  | assumption | apply State.closeGates_keeps | apply State.wr_keeps | apply State.driveLoadstep_keeps | apply State.killDomains_keeps))

theorem execClampLevelRestore_goes {s : State} (h : s.Keeps p b) : GoesKeeping p b (execClampLevelRestore s) := by
  unfold execClampLevelRestore
  repeat' (with_reducible first
    | assumption | apply State.setLevel_keeps | apply keeps_foldl | apply keeps_ite | apply keeps_ite_fst
    | apply keeps_ite_snd | apply keeps_ite_mid | apply goes_next | apply goes_ite
    | (apply keeps_mk; first  | assumption | apply State.setLevel_keeps | apply keeps_ite | (split <;> first | done | (rename_i heq; obtain ⟨rfl, rfl⟩ := pair_eq heq) | (rename_i heq; obtain ⟨rfl, rfl, rfl⟩ := triple_eq heq) | skip))
    | dsimp only | intro _ _ _
    | (split <;> first | done | (rename_i heq; obtain ⟨rfl, rfl⟩ := pair_eq heq) | (rename_i heq; obtain ⟨rfl, rfl, rfl⟩ := triple_eq heq) | skip))

theorem execThermalClampRelease_goes {die : Fin 6} {s : State} (h : s.Keeps p b) : GoesKeeping p b (execThermalClampRelease die s) := by
  unfold execThermalClampRelease
  repeat' (with_reducible first
    | assumption | apply State.noteSensors_keeps | apply State.setFlag_keeps | apply goes_next | apply keeps_ite | split
    | (apply keeps_mk; first  | assumption | apply State.noteSensors_keeps | apply State.setFlag_keeps))

theorem State.syncThm_keeps {s : State} (h : s.Keeps p b) : (State.syncThm s).Keeps p b := by
  unfold State.syncThm
  repeat' (with_reducible first | assumption | apply State.setFld_keeps | apply State.wr_keeps)

theorem State.sample_keeps {s : State} {k : Nat} {t : Int} (h : s.Keeps p b) : (State.sample s k t).Keeps p b := by
  unfold State.sample
  repeat' (with_reducible first
    | assumption | apply State.syncThm_keeps | apply State.wr_keeps | apply State.rollWindow_keeps
    | apply State.clampDie_keeps | apply State.raise_keeps | apply State.bump_keeps | apply State.setFlag_keeps
    | apply State.thermTrip_keeps | apply keeps_ite | split
    | (apply keeps_mk; first  | assumption | apply State.syncThm_keeps | apply State.wr_keeps | apply State.rollWindow_keeps | apply State.clampDie_keeps | apply State.raise_keeps | apply State.bump_keeps | apply State.setFlag_keeps | apply State.thermTrip_keeps))

theorem execSensorSample_goes {sensor : Fin 64} {t : BitVec 16} {s : State} (h : s.Keeps p b) :
    GoesKeeping p b (execSensorSample sensor t s) := by
  unfold execSensorSample
  repeat' (with_reducible first | assumption | apply State.noteSensors_keeps | apply State.sample_keeps | apply goes_next | apply keeps_ite | split)

theorem execCurrentClampRelease_goes {rail : Fin 14} {s : State} (h : s.Keeps p b) : GoesKeeping p b (execCurrentClampRelease rail s) := by
  unfold execCurrentClampRelease
  repeat' (with_reducible first | assumption | apply State.noteSensors_keeps | apply State.setFlag_keeps | apply goes_next)

theorem State.flashProgram_keeps {s : State} {x1 : Nat} {x2 : List Byte} (h : s.Keeps p b) : (State.flashProgram s x1 x2).Keeps p b := by
  induction x2 generalizing s x1 with
  | nil => exact h
  | cons y ys ih =>
  unfold State.flashProgram
  try dsimp only
  repeat' (with_reducible first
    | assumption | apply ih | apply keeps_foldl | apply keeps_foldl_fst | apply keeps_foldl_snd | apply keeps_ite | apply goes_ite | apply keeps_ite_fst | apply keeps_ite_snd | apply keeps_ite_mid | apply goes_next
    | (apply keeps_mk; first | assumption | apply ih | apply keeps_foldl | apply keeps_foldl_fst | apply keeps_foldl_snd | apply keeps_ite | apply goes_ite | apply keeps_ite_fst | apply keeps_ite_snd | apply keeps_ite_mid | (split <;> first | done | (rename_i heq; obtain ⟨rfl, rfl⟩ := pair_eq heq) | (rename_i heq; obtain ⟨rfl, rfl, rfl⟩ := triple_eq heq) | skip))
    | intro _ _ _ | dsimp only |  (split <;> first | done | (rename_i heq; obtain ⟨rfl, rfl⟩ := pair_eq heq) | (rename_i heq; obtain ⟨rfl, rfl, rfl⟩ := triple_eq heq) | skip))

theorem State.freezeLog_keeps {s : State} (h : s.Keeps p b) : (State.freezeLog s).Keeps p b := by
  unfold State.freezeLog
  repeat' (with_reducible first | assumption | apply State.setFlag_keeps | split | dsimp only | intro _ _ _ | apply keeps_foldl)

theorem State.flashErase_keeps {s : State} {a : Nat} (h : s.Keeps p b) : (State.flashErase s a).Keeps p b := by
  unfold State.flashErase
  repeat' (with_reducible first | assumption | apply keeps_ite | split | (apply keeps_mk; first  | assumption))

theorem State.agePut_keeps {s : State} {r : AgeRec} (h : s.Keeps p b) : (State.agePut s r).Keeps p b := by
  unfold State.agePut
  repeat' (with_reducible first
    | assumption | apply State.flashProgram_keeps | apply State.flashErase_keeps | apply keeps_ite | split
    | (apply keeps_mk; first  | assumption | apply State.flashProgram_keeps | apply State.flashErase_keeps))

theorem State.ageFail_keeps {s : State} {kind : Nat} (h : s.Keeps p b) : (State.ageFail s kind).Keeps p b := by
  unfold State.ageFail
  repeat' (with_reducible first | assumption | apply State.raise_keeps | apply State.freezeLog_keeps)

theorem State.ageTry_keeps {s : State} {r : AgeRec} (h : s.Keeps p b) : (State.ageTry s r).Keeps p b := by
  unfold State.ageTry
  repeat' (with_reducible first | assumption | apply State.free_keeps | apply State.agePut_keeps | apply State.ageFail_keeps | apply keeps_ite | split)

theorem State.ageWrite_keeps {s : State} {r0 : AgeRec} {sure : Bool} (h : s.Keeps p b) : (State.ageWrite s r0 sure).Keeps p b := by
  unfold State.ageWrite
  repeat' (with_reducible first
    | assumption | apply State.agePut_keeps | apply State.ageTry_keeps | apply keeps_ite | split
    | (apply keeps_mk; first  | assumption | apply State.agePut_keeps | apply State.ageTry_keeps))

theorem State.ageSample_keeps {s : State} {i : Nat} {delay : Nat} {margin : Int} (h : s.Keeps p b) :
    (State.ageSample s i delay margin).Keeps p b := by
  unfold State.ageSample
  repeat' (with_reducible first
    | assumption | apply State.setFlag_keeps | apply State.bump_keeps | apply State.wr_keeps | apply State.setFld_keeps
    | apply State.ageWrite_keeps | apply keeps_ite | split
    | (apply keeps_mk; first  | assumption | apply State.setFlag_keeps | apply State.bump_keeps | apply State.wr_keeps | apply State.setFld_keeps | apply State.ageWrite_keeps))

theorem execAgeSample_goes {ms : List (BitVec 16 × BitVec 16)} {s : State} (h : s.Keeps p b) : GoesKeeping p b (execAgeSample ms s) := by
  unfold execAgeSample
  repeat' (with_reducible first | assumption | apply State.ageSample_keeps | apply goes_next | split | dsimp only | intro _ _ _ | apply keeps_foldl)

theorem State.showGb_keeps {s : State} (h : s.Keeps p b) : (State.showGb s).Keeps p b := by
  unfold State.showGb
  repeat' (with_reducible first | assumption | apply State.wr_keeps | split | dsimp only | intro _ _ _ | apply keeps_foldl)

theorem State.ageRailEval_keeps {s : State} {x : Nat × Int} (h : s.Keeps p b) : (State.ageRailEval s x).Keeps p b := by
  unfold State.ageRailEval
  repeat' (with_reducible first
    | assumption | apply State.advise_keeps | apply State.raise_keeps | apply State.showGb_keeps | apply State.ageWrite_keeps
    | apply State.fwLog_keeps | apply keeps_ite | split
    | (apply keeps_mk; first  | assumption | apply State.advise_keeps | apply State.raise_keeps | apply State.showGb_keeps | apply State.ageWrite_keeps | apply State.fwLog_keeps))

theorem execAgeEval_goes {hbm : List (BitVec 16 × List Byte)} {links : List (BitVec 16 × List Byte)} {flashOk : Bool} {s : State} (h : s.Keeps p b) :
    GoesKeeping p b (execAgeEval hbm links flashOk s) := by
  unfold execAgeEval
  try dsimp only
  repeat' (with_reducible first
    | assumption | apply State.ageRailEval_keeps | apply State.ageWrite_keeps | apply State.ageFail_keeps | apply keeps_foldl | apply keeps_foldl_fst | apply keeps_foldl_snd | apply keeps_ite | apply goes_ite | apply keeps_ite_fst | apply keeps_ite_snd | apply keeps_ite_mid | apply goes_next
    | (apply keeps_mk; first | assumption | apply State.ageRailEval_keeps | apply State.ageWrite_keeps | apply State.ageFail_keeps | apply keeps_foldl | apply keeps_foldl_fst | apply keeps_foldl_snd | apply keeps_ite | apply goes_ite | apply keeps_ite_fst | apply keeps_ite_snd | apply keeps_ite_mid | (split <;> first | done | (rename_i heq; obtain ⟨rfl, rfl⟩ := pair_eq heq) | (rename_i heq; obtain ⟨rfl, rfl, rfl⟩ := triple_eq heq) | skip))
    | intro _ _ _ | intro _ _ | dsimp only | (split <;> first | done | (rename_i heq; obtain ⟨rfl, rfl⟩ := pair_eq heq) | (rename_i heq; obtain ⟨rfl, rfl, rfl⟩ := triple_eq heq) | skip))

theorem State.ageFlush_keeps {s : State} (h : s.Keeps p b) : (State.ageFlush s).Keeps p b := by
  unfold State.ageFlush
  repeat' (with_reducible first
    | assumption | apply State.ageTry_keeps | apply keeps_foldl | apply keeps_ite | apply keeps_ite_fst | apply keeps_ite_snd
    | apply keeps_ite_mid
    | (apply keeps_mk; first  | assumption | apply State.ageTry_keeps | apply keeps_ite | (split <;> first | done | (rename_i heq; obtain ⟨rfl, rfl⟩ := pair_eq heq) | (rename_i heq; obtain ⟨rfl, rfl, rfl⟩ := triple_eq heq) | skip))
    | dsimp only | intro _ _ _
    | (split <;> first | done | (rename_i heq; obtain ⟨rfl, rfl⟩ := pair_eq heq) | (rename_i heq; obtain ⟨rfl, rfl, rfl⟩ := triple_eq heq) | skip))

theorem State.putChan_keeps {s : State} {ch : Nat} {c : Chan} (h : s.Keeps p b) : (State.putChan s ch c).Keeps p b := by
  unfold State.putChan
  repeat' (with_reducible first | assumption | apply keeps_ite | split | (apply keeps_mk; first  | assumption))

theorem State.callRetrain_keeps {s : State} {ch : Nat} (h : s.Keeps p b) : (State.callRetrain s ch).Keeps p b := by
  unfold State.callRetrain
  repeat' (with_reducible first | assumption | apply State.putChan_keeps)

theorem State.unpin_keeps {s : State} {ch : Nat} (h : s.Keeps p b) : (State.unpin s ch).Keeps p b := by
  unfold State.unpin
  repeat' (with_reducible first | assumption | apply keeps_ite | split | (apply keeps_mk; first  | assumption))

theorem State.setChan_keeps {s : State} {ch : Nat} {st : Nat} {phase : Nat} (h : s.Keeps p b) :
    (State.setChan s ch st phase).Keeps p b := by
  unfold State.setChan
  repeat' (with_reducible first | assumption | apply State.setFld_keeps)

theorem execRetrainStart_goes {ch : Fin 512} {dirty : BitVec 20} {s : State} (h : s.Keeps p b) :
    GoesKeeping p b (execRetrainStart ch dirty s) := by
  unfold execRetrainStart
  repeat' (with_reducible first
    | assumption | apply State.callRetrain_keeps | apply State.free_keeps | apply State.putChan_keeps
    | apply State.useHbm_keeps | apply State.wr_keeps | apply State.setFld_keeps | apply State.setChan_keeps
    | apply keeps_foldl | apply keeps_ite | apply keeps_ite_fst | apply keeps_ite_snd | apply keeps_ite_mid | apply goes_next
    | apply goes_ite
    | (apply keeps_mk; first  | assumption | apply State.callRetrain_keeps | apply State.free_keeps | apply State.putChan_keeps | apply State.useHbm_keeps | apply State.wr_keeps | apply State.setFld_keeps | apply State.setChan_keeps | apply keeps_ite | (split <;> first | done | (rename_i heq; obtain ⟨rfl, rfl⟩ := pair_eq heq) | (rename_i heq; obtain ⟨rfl, rfl, rfl⟩ := triple_eq heq) | skip))
    | dsimp only | intro _ _ _
    | (split <;> first | done | (rename_i heq; obtain ⟨rfl, rfl⟩ := pair_eq heq) | (rename_i heq; obtain ⟨rfl, rfl, rfl⟩ := triple_eq heq) | skip))

theorem State.startScan_keeps {s : State} {ty : Nat} {unit : Nat} (h : s.Keeps p b) : (((State.startScan s ty unit)).1).Keeps p b := by
  unfold State.startScan
  repeat' (with_reducible first
    | assumption | apply State.useHbm_keeps | apply keeps_ite
    | (apply keeps_mk; first  | assumption | apply State.useHbm_keeps | split) | split | dsimp only | intro _ _ _ | intro _ _)

theorem State.startEvac_keeps {s : State} {die : Nat} (h : s.Keeps p b) : (State.startEvac s die).Keeps p b := by
  unfold State.startEvac
  repeat' (with_reducible first
    | assumption | apply State.useHbm_keeps | apply State.wr_keeps | apply State.setChan_keeps | apply State.putChan_keeps
    | apply keeps_ite | split)

theorem State.chanRecord_keeps {s : State} {ch : Nat} {action : Nat} (h : s.Keeps p b) : (State.chanRecord s ch action).Keeps p b := by
  unfold State.chanRecord
  repeat' (with_reducible first | assumption | apply State.ageWrite_keeps | apply State.putChan_keeps | apply keeps_ite | split)

theorem State.llmSettle_keeps {s : State} {die : Nat} (h : s.Keeps p b) : (State.llmSettle s die).Keeps p b := by
  unfold State.llmSettle
  repeat' (with_reducible first | assumption | apply State.dropLlmDie_keeps | apply keeps_ite | split)

theorem State.fence_keeps {s : State} {ch : Nat} (h : s.Keeps p b) : (State.fence s ch).Keeps p b := by
  unfold State.fence
  repeat' (with_reducible first
    | assumption | apply State.unpin_keeps | apply State.wr_keeps | apply State.setChan_keeps | apply State.putChan_keeps
    | apply State.fwLog_keeps | apply State.raise_keeps | apply State.chanRecord_keeps | apply State.llmSettle_keeps
    | apply State.dropHbm_keeps | apply State.endJob_keeps | apply State.report_keeps)

theorem State.failing_keeps {s : State} {ch : Nat} (h : s.Keeps p b) : (State.failing s ch).Keeps p b := by
  unfold State.failing
  repeat' (with_reducible first | assumption | apply State.startEvac_keeps | apply State.putChan_keeps | apply State.fence_keeps | apply keeps_ite | split)

theorem State.judgeUe_keeps {s : State} {ch : Nat} (h : s.Keeps p b) : (State.judgeUe s ch).Keeps p b := by
  unfold State.judgeUe
  repeat' (with_reducible first | assumption | apply State.failing_keeps | apply keeps_ite | split)

theorem State.evalRate_keeps {s : State} {ch : Nat} (h : s.Keeps p b) : (State.evalRate s ch).Keeps p b := by
  unfold State.evalRate
  repeat' (with_reducible first
    | assumption | apply State.putChan_keeps | apply State.wr_keeps | apply State.advise_keeps | apply State.failing_keeps
    | apply keeps_ite | split)

theorem State.scramble_keeps {s : State} {ch : Nat} (h : s.Keeps p b) : (State.scramble s ch).Keeps p b := by
  unfold State.scramble
  repeat' (with_reducible first
    | assumption | apply State.freeBytes_keeps | apply State.pokeRaw_keeps | split | dsimp only | intro _ _ _
    | apply keeps_foldl)

theorem State.poisonLine_keeps {s : State} {a : Nat} (h : s.Keeps p b) : (State.poisonLine s a).Keeps p b := by
  unfold State.poisonLine
  repeat' (with_reducible first
    | assumption | apply State.bump_keeps | apply State.fwLog_keeps | apply State.putChan_keeps | apply State.raise_keeps
    | apply keeps_ite | split
    | (apply keeps_mk; first  | assumption | apply State.bump_keeps | apply State.fwLog_keeps | apply State.putChan_keeps | apply State.raise_keeps))

theorem State.between_keeps {s : State} {v : Nat} {w : Nat} (h : s.Keeps p b) : (State.between s v w).Keeps p b := by
  unfold State.between
  repeat' (with_reducible first
    | assumption | apply State.bump_keeps | apply State.judgeUe_keeps | apply State.poisonLine_keeps
    | apply State.noteLine_keeps | apply State.wr_keeps | apply keeps_ite | split)

theorem State.idle_keeps {s : State} (h : s.Keeps p b) : (State.idle s).Keeps p b := by
  unfold State.idle
  repeat' (with_reducible first | assumption | apply State.between_keeps | apply State.free_keeps | apply keeps_ite | split)

theorem execScrubAccess_goes {a : BitVec 40} {found : Ecc} {s : State} (h : s.Keeps p b) : GoesKeeping p b (execScrubAccess a found s) := by
  unfold execScrubAccess
  repeat' (with_reducible first
    | assumption | apply State.wr_keeps | apply State.bump_keeps | apply State.judgeUe_keeps | apply State.poisonLine_keeps
    | apply goes_next | split | dsimp only | intro _ _ _ | apply keeps_foldl)

theorem State.noteLatency_keeps {s : State} {ch : Nat} {ns : Nat} (h : s.Keeps p b) : (State.noteLatency s ch ns).Keeps p b := by
  unfold State.noteLatency
  repeat' (with_reducible first | assumption | apply State.wr_keeps)

theorem execRetrainTrainDone_goes {ch : Fin 512} {res : Trained} {waited : BitVec 16} {s : State} (h : s.Keeps p b) :
    GoesKeeping p b (execRetrainTrainDone ch res waited s) := by
  unfold execRetrainTrainDone
  repeat' (with_reducible first
    | assumption | apply State.noteLatency_keeps | apply State.setFld_keeps | apply State.setChan_keeps
    | apply State.raise_keeps | apply State.putChan_keeps | apply State.startEvac_keeps | apply State.fence_keeps
    | apply goes_next | split | dsimp only | intro _ _ _ | apply keeps_foldl)

theorem execRetrainDrainDone_goes {ch : Fin 512} {s : State} (h : s.Keeps p b) : GoesKeeping p b (execRetrainDrainDone ch s) := by
  unfold execRetrainDrainDone
  repeat' (with_reducible first | assumption | apply State.setChan_keeps | apply goes_next | apply keeps_ite | split)

theorem execSliceStart_goes {ch : Fin 512} {s : State} (h : s.Keeps p b) : GoesKeeping p b (execSliceStart ch s) := by
  unfold execSliceStart
  repeat' (with_reducible first
    | assumption | apply State.putChan_keeps | apply State.useHbm_keeps | apply State.setChan_keeps | apply goes_next
    | apply keeps_ite
    | (apply keeps_mk; first  | assumption | apply State.putChan_keeps | apply State.useHbm_keeps | apply State.setChan_keeps | split)
    | split | dsimp only | intro _ _ _ | intro _ _)

theorem State.judgeAborts_keeps {s : State} {ch : Nat} (h : s.Keeps p b) : (State.judgeAborts s ch).Keeps p b := by
  unfold State.judgeAborts
  repeat' (with_reducible first | assumption | apply State.failing_keeps | apply keeps_ite | split)

theorem execSliceEnd_goes {ch : Fin 512} {drift : BitVec 8} {waited : BitVec 16} {s : State} (h : s.Keeps p b) :
    GoesKeeping p b (execSliceEnd ch drift waited s) := by
  unfold execSliceEnd
  repeat' (with_reducible first
    | assumption | apply State.noteLatency_keeps | apply State.setFld_keeps | apply State.bump_keeps
    | apply State.setChan_keeps | apply State.dropHbm_keeps | apply State.fwLog_keeps | apply State.putChan_keeps
    | apply State.callRetrain_keeps | apply State.startEvac_keeps | apply goes_next | split | dsimp only | intro _ _ _
    | apply keeps_foldl)

theorem State.retrainOver_keeps {s : State} {ch : Nat} (h : s.Keeps p b) : (State.retrainOver s ch).Keeps p b := by
  unfold State.retrainOver
  repeat' (with_reducible first
    | assumption | apply State.setFld_keeps | apply State.bump_keeps | apply State.wr_keeps | apply State.setChan_keeps
    | apply State.unpin_keeps | apply State.putChan_keeps | apply State.dropHbm_keeps | apply State.fwLog_keeps
    | apply State.startEvac_keeps | apply State.llmSettle_keeps | apply State.judgeAborts_keeps)

theorem execRetrainReplayDone_goes {ch : Fin 512} {s : State} (h : s.Keeps p b) : GoesKeeping p b (execRetrainReplayDone ch s) := by
  unfold execRetrainReplayDone
  repeat' (with_reducible first | assumption | apply State.retrainOver_keeps | apply goes_next | apply keeps_ite | split)

theorem execCeRateEval_goes {s : State} (h : s.Keeps p b) : GoesKeeping p b (execCeRateEval s) := by
  unfold execCeRateEval
  repeat' (with_reducible first
    | assumption | apply State.evalRate_keeps | apply keeps_foldl | apply keeps_ite | apply keeps_ite_fst
    | apply keeps_ite_snd | apply keeps_ite_mid | apply goes_next | apply goes_ite
    | (apply keeps_mk; first  | assumption | apply State.evalRate_keeps | apply keeps_ite | (split <;> first | done | (rename_i heq; obtain ⟨rfl, rfl⟩ := pair_eq heq) | (rename_i heq; obtain ⟨rfl, rfl, rfl⟩ := triple_eq heq) | skip))
    | dsimp only | intro _ _ _
    | (split <;> first | done | (rename_i heq; obtain ⟨rfl, rfl⟩ := pair_eq heq) | (rename_i heq; obtain ⟨rfl, rfl, rfl⟩ := triple_eq heq) | skip))

theorem execMarginScanDone_goes {link : Bool} {unit : Fin 512} {width : BitVec 16} {height : BitVec 16} {s : State} (h : s.Keeps p b) :
    GoesKeeping p b (execMarginScanDone link unit width height s) := by
  unfold execMarginScanDone
  repeat' (with_reducible first
    | assumption | apply State.putChan_keeps | apply State.scramble_keeps | apply State.dropHbm_keeps | apply goes_next
    | apply keeps_ite | split
    | (apply keeps_mk; first  | assumption | apply State.putChan_keeps | apply State.scramble_keeps | apply State.dropHbm_keeps))

theorem execEvacuationDone_goes {ch : Fin 512} {s : State} (h : s.Keeps p b) : GoesKeeping p b (execEvacuationDone ch s) := by
  unfold execEvacuationDone
  repeat' (with_reducible first
    | assumption | apply State.putChan_keeps | apply State.wr_keeps | apply State.setChan_keeps | apply State.setFld_keeps
    | apply State.fwLog_keeps | apply State.raise_keeps | apply State.dropHbm_keeps | apply State.chanRecord_keeps
    | apply State.advise_keeps | apply State.fence_keeps | apply State.startEvac_keeps | apply goes_next | split | dsimp only
    | intro _ _ _ | apply keeps_foldl)

theorem State.setGate_keeps {s : State} {x1 : Nat} (h : s.Keeps p b) : (State.setGate s x1).Keeps p b := by
  unfold State.setGate
  repeat' (with_reducible first | assumption | apply keeps_ite | split | (apply keeps_mk; first  | assumption))

theorem State.noteUp_keeps {s : State} {member : Nat} {port : Nat} {up : Bool} (h : s.Keeps p b) :
    (State.noteUp s member port up).Keeps p b := by
  unfold State.noteUp
  repeat' (with_reducible first | assumption | apply State.wr_keeps)

theorem State.enterPort_keeps {s : State} {x1 : Nat} {st : Nat} {cause : Nat} (h : s.Keeps p b) :
    (State.enterPort s x1 st cause).Keeps p b := by
  unfold State.enterPort
  repeat' (with_reducible first
    | assumption | apply State.setGate_keeps | apply State.setFld_keeps | apply State.onPort_keeps | apply State.bump_keeps
    | apply State.emit_keeps | apply State.noteUp_keeps | apply State.fwLog_keeps | apply State.report_keeps
    | apply State.syncGrants_keeps | apply keeps_ite | split)

theorem State.startExchange_keeps {s : State} {x1 : Nat} (h : s.Keeps p b) : (State.startExchange s x1).Keeps p b := by
  unfold State.startExchange
  repeat' (with_reducible first | assumption | apply State.freeBytes_keeps | apply State.emit_keeps | apply State.onPort_keeps)

theorem execIdentityRecord_goes {x0 : Fin 48} {r : IdentRec} {s : State} (h : s.Keeps p b) :
    GoesKeeping p b (execIdentityRecord x0 r s) := by
  unfold execIdentityRecord
  repeat' (with_reducible first
    | assumption | apply State.onPort_keeps | apply State.wr_keeps | apply State.raise_keeps | apply State.enterPort_keeps
    | apply State.emit_keeps | apply State.startExchange_keeps | apply goes_next | split | dsimp only | intro _ _ _
    | apply keeps_foldl)

theorem State.lightPort_keeps {s : State} {x1 : Nat} (h : s.Keeps p b) : (State.lightPort s x1).Keeps p b := by
  unfold State.lightPort
  repeat' (with_reducible first | assumption | apply State.enterPort_keeps | apply keeps_ite | split)

theorem State.setLaser_keeps {s : State} {m : Nat} {x2 : Nat} {v : Bool} (h : s.Keeps p b) : (State.setLaser s m x2 v).Keeps p b := by
  unfold State.setLaser
  repeat' (with_reducible first | assumption | apply State.setFlag_keeps)

theorem State.enableLaser_keeps {s : State} {m : Nat} (h : s.Keeps p b) : (State.enableLaser s m).Keeps p b := by
  unfold State.enableLaser
  repeat' (with_reducible first
    | assumption | apply State.lightPort_keeps | apply State.setLaser_keeps | split | dsimp only | intro _ _ _
    | apply keeps_foldl)

theorem State.bringUpPorts_keeps {s : State} (h : s.Keeps p b) : (State.bringUpPorts s).Keeps p b := by
  unfold State.bringUpPorts
  repeat' (with_reducible first
    | assumption | apply State.setHdr_keeps | apply State.enableLaser_keeps | split | dsimp only | intro _ _ _
    | apply keeps_foldl)

theorem execLaneLock_goes {x0 : Fin 48} {s : State} (h : s.Keeps p b) : GoesKeeping p b (execLaneLock x0 s) := by
  unfold execLaneLock
  repeat' (with_reducible first | assumption | apply State.enterPort_keeps | apply State.setFld_keeps | apply goes_next | apply keeps_ite | split)

theorem State.rekeyPorts_keeps {s : State} (h : s.Keeps p b) : (State.rekeyPorts s).Keeps p b := by
  unfold State.rekeyPorts
  repeat' (with_reducible first | assumption | apply State.startExchange_keeps | split | dsimp only | intro _ _ _ | apply keeps_foldl)

theorem State.laserDown_keeps {s : State} {m : Nat} (h : s.Keeps p b) : (State.laserDown s m).Keeps p b := by
  unfold State.laserDown
  repeat' (with_reducible first
    | assumption | apply State.enterPort_keeps | apply State.setLaser_keeps | split | dsimp only | intro _ _ _
    | apply keeps_foldl)

theorem execLaserRemove_goes {m : Fin 4} {s : State} (h : s.Keeps p b) : GoesKeeping p b (execLaserRemove m s) := by
  unfold execLaserRemove
  repeat' (with_reducible first
    | assumption | apply State.setLaser_keeps | apply State.laserDown_keeps | apply goes_next | apply keeps_ite | split
    | (apply keeps_mk; first  | assumption | apply State.setLaser_keeps | apply State.laserDown_keeps))

theorem State.lightBoot_keeps {s : State} (h : s.Keeps p b) : (State.lightBoot s).Keeps p b := by
  unfold State.lightBoot
  repeat' (with_reducible first | assumption | apply State.setLaser_keeps | apply State.enterPort_keeps | apply keeps_ite | split)

theorem execLinkStateRecord_goes {member : Fin 32} {port : Fin 48} {up : Bool} {s : State} (h : s.Keeps p b) :
    GoesKeeping p b (execLinkStateRecord member port up s) := by
  unfold execLinkStateRecord
  repeat' (with_reducible first | assumption | apply State.noteUp_keeps | apply goes_next | apply keeps_ite | split)

theorem execPortStateTimeout_goes {x0 : Fin 48} {s : State} (h : s.Keeps p b) : GoesKeeping p b (execPortStateTimeout x0 s) := by
  unfold execPortStateTimeout
  repeat' (with_reducible first
    | assumption | apply State.enterPort_keeps | apply goes_next | apply keeps_ite
    | (apply keeps_mk; first  | assumption | apply State.enterPort_keeps | split) | split | dsimp only | intro _ _ _
    | intro _ _)

theorem State.portRetry_keeps {s : State} {x1 : Nat} (h : s.Keeps p b) : (State.portRetry s x1).Keeps p b := by
  unfold State.portRetry
  repeat' (with_reducible first | assumption | apply State.enterPort_keeps | apply keeps_ite | split)

theorem execFportRetry_goes {x0 : Fin 48} {s : State} (h : s.Keeps p b) : GoesKeeping p b (execFportRetry x0 s) := by
  unfold execFportRetry
  repeat' (with_reducible first | assumption | apply State.portRetry_keeps | apply goes_next | apply keeps_ite | split)

theorem execRetuneEnd_goes {x0 : Fin 48} {ok : Bool} {s : State} (h : s.Keeps p b) : GoesKeeping p b (execRetuneEnd x0 ok s) := by
  unfold execRetuneEnd
  repeat' (with_reducible first
    | assumption | apply State.portGo_keeps | apply State.enterPort_keeps | apply goes_next | apply keeps_ite | split
    | (apply keeps_mk; first  | assumption | apply State.portGo_keeps | apply State.enterPort_keeps))

theorem execFecRateEval_goes {x0 : Fin 48} {s : State} (h : s.Keeps p b) : GoesKeeping p b (execFecRateEval x0 s) := by
  unfold execFecRateEval
  repeat' (with_reducible first
    | assumption | apply State.onPort_keeps | apply State.wr_keeps | apply State.fwLog_keeps | apply State.bump_keeps
    | apply State.sendFrame_keeps | apply State.enterPort_keeps | apply goes_next | split | dsimp only | intro _ _ _
    | apply keeps_foldl)

theorem execLightReady_goes {x0 : Fin 48} {s : State} (h : s.Keeps p b) : GoesKeeping p b (execLightReady x0 s) := by
  unfold execLightReady
  repeat' (with_reducible first | assumption | apply State.enterPort_keeps | apply State.setLaser_keeps | apply goes_next | apply keeps_ite | split)

theorem State.fabClockLost_keeps {s : State} (h : s.Keeps p b) : (State.fabClockLost s).Keeps p b := by
  unfold State.fabClockLost
  repeat' (with_reducible first | assumption | apply State.enterPort_keeps | split | dsimp only | intro _ _ _ | apply keeps_foldl)

theorem execAdaptEnable_goes {s : State} (h : s.Keeps p b) : GoesKeeping p b (execAdaptEnable s) := by
  unfold execAdaptEnable
  repeat' (with_reducible first
    | assumption | apply State.setFlag_keeps | apply goes_next | apply keeps_ite
    | (apply keeps_mk; first  | assumption | apply State.setFlag_keeps | split) | split | dsimp only | intro _ _ _ | intro _ _)

theorem execRxPowerDetect_goes {x0 : Fin 48} {power : List (BitVec 16)} {s : State} (h : s.Keeps p b) :
    GoesKeeping p b (execRxPowerDetect x0 power s) := by
  unfold execRxPowerDetect
  repeat' (with_reducible first
    | assumption | apply State.wr_keeps | apply State.enterPort_keeps | apply goes_next | split | dsimp only | intro _ _ _
    | apply keeps_foldl)

theorem execKeyExchange_goes {x0 : Fin 48} {m : KeyMsg} {s : State} (h : s.Keeps p b) : GoesKeeping p b (execKeyExchange x0 m s) := by
  unfold execKeyExchange
  repeat' (with_reducible first
    | assumption | apply State.freeBytes_keeps | apply State.raise_keeps | apply State.enterPort_keeps
    | apply State.onPort_keeps | apply State.emit_keeps | apply State.setFlag_keeps | apply keeps_foldl | apply keeps_ite
    | apply keeps_ite_fst | apply keeps_ite_snd | apply keeps_ite_mid | apply goes_next | apply goes_ite
    | (apply keeps_mk; first  | assumption | apply State.freeBytes_keeps | apply State.raise_keeps | apply State.enterPort_keeps | apply State.onPort_keeps | apply State.emit_keeps | apply State.setFlag_keeps | apply keeps_ite | (split <;> first | done | (rename_i heq; obtain ⟨rfl, rfl⟩ := pair_eq heq) | (rename_i heq; obtain ⟨rfl, rfl, rfl⟩ := triple_eq heq) | skip))
    | dsimp only | intro _ _ _
    | (split <;> first | done | (rename_i heq; obtain ⟨rfl, rfl⟩ := pair_eq heq) | (rename_i heq; obtain ⟨rfl, rfl, rfl⟩ := triple_eq heq) | skip))

theorem execLossOfLight_goes {x0 : Fin 48} {s : State} (h : s.Keeps p b) : GoesKeeping p b (execLossOfLight x0 s) := by
  unfold execLossOfLight
  repeat' (with_reducible first
    | assumption | apply State.onPort_keeps | apply State.enterPort_keeps | apply goes_next | split | dsimp only | intro _ _ _
    | apply keeps_foldl)

theorem execCodewordLock_goes {x0 : Fin 48} {s : State} (h : s.Keeps p b) : GoesKeeping p b (execCodewordLock x0 s) := by
  unfold execCodewordLock
  repeat' (with_reducible first | assumption | apply State.emit_keeps | apply State.enterPort_keeps | apply goes_next | apply keeps_ite | split)

theorem State.laserBack_keeps {s : State} {m : Nat} (h : s.Keeps p b) : (State.laserBack s m).Keeps p b := by
  unfold State.laserBack
  repeat' (with_reducible first
    | assumption | apply State.enableLaser_keeps | apply State.enterPort_keeps | split | dsimp only | intro _ _ _
    | apply keeps_foldl)

theorem execLaserFault_goes {m : Fin 4} {s : State} (h : s.Keeps p b) : GoesKeeping p b (execLaserFault m s) := by
  unfold execLaserFault
  repeat' (with_reducible first | assumption | apply State.report_keeps | apply State.setLaser_keeps | apply State.laserDown_keeps | apply goes_next)

theorem State.fillExits_keeps {s : State} (h : s.Keeps p b) : (State.fillExits s).Keeps p b := by
  unfold State.fillExits
  repeat' (with_reducible first | assumption | apply keeps_ite | split | (apply keeps_mk; first  | assumption))

theorem execLaserInsert_goes {m : Fin 4} {valid : Bool} {s : State} (h : s.Keeps p b) : GoesKeeping p b (execLaserInsert m valid s) := by
  unfold execLaserInsert
  repeat' (with_reducible first
    | assumption | apply State.setLaser_keeps | apply State.laserBack_keeps | apply State.lightBoot_keeps | apply goes_next
    | apply keeps_ite | split
    | (apply keeps_mk; first  | assumption | apply State.setLaser_keeps | apply State.laserBack_keeps | apply State.lightBoot_keeps))

theorem execBootPortRelease_goes {s : State} (h : s.Keeps p b) : GoesKeeping p b (execBootPortRelease s) := by
  unfold execBootPortRelease
  repeat' (with_reducible first
    | assumption | apply State.enterPort_keeps | apply goes_next | apply keeps_ite | split
    | (apply keeps_mk; first  | assumption | apply State.enterPort_keeps))

theorem State.startUp_keeps {s : State} (h : s.Keeps p b) : (State.startUp s).Keeps p b := by
  unfold State.startUp
  try dsimp only
  repeat' (with_reducible first
    | assumption | apply State.setFlag_keeps | apply State.setFld_keeps | apply State.wr_keeps | apply State.setLaser_keeps | apply keeps_foldl | apply keeps_foldl_fst | apply keeps_foldl_snd | apply keeps_ite | apply goes_ite | apply keeps_ite_fst | apply keeps_ite_snd | apply keeps_ite_mid | apply goes_next
    | (apply keeps_mk; first | assumption | apply State.setFlag_keeps | apply State.setFld_keeps | apply State.wr_keeps | apply State.setLaser_keeps | apply keeps_foldl | apply keeps_foldl_fst | apply keeps_foldl_snd | apply keeps_ite | apply goes_ite | apply keeps_ite_fst | apply keeps_ite_snd | apply keeps_ite_mid | (split <;> first | done | (rename_i heq; obtain ⟨rfl, rfl⟩ := pair_eq heq) | (rename_i heq; obtain ⟨rfl, rfl, rfl⟩ := triple_eq heq) | skip))
    | intro _ _ _ | intro _ _ | dsimp only | (split <;> first | done | (rename_i heq; obtain ⟨rfl, rfl⟩ := pair_eq heq) | (rename_i heq; obtain ⟨rfl, rfl, rfl⟩ := triple_eq heq) | skip))

theorem execResetRelease_goes {strap : Bool} {refs : Bool} {s : State} (h : s.Keeps p b) :
    GoesKeeping p b (execResetRelease strap refs s) := by
  unfold execResetRelease
  repeat' (with_reducible first
    | assumption | apply State.wr_keeps | apply State.setFlag_keeps | apply State.startUp_keeps | apply goes_next
    | apply keeps_ite
    | (apply keeps_mk; first  | assumption | apply State.wr_keeps | apply State.setFlag_keeps | apply State.startUp_keeps | split)
    | split | dsimp only | intro _ _ _ | intro _ _)

theorem State.dieReset_keeps {s : State} {k : ResetKind} (h : s.Keeps p b) : (State.dieReset s k).Keeps p b := by
  unfold State.dieReset
  dsimp only
  refine keeps_ite (State.wrAll_keeps ?_) ?_ <;>
    (refine ⟨h.1, fun hb => ?_⟩
     show Memory.wf (if k.keepsHbm then s.mem.filter _ else [])
     split
     · exact SMap.wf_filter _ (h.2 hb)
     · exact rfl)

theorem State.heldDown_keeps {s : State} (h : s.Keeps p b) : (State.heldDown s).Keeps p b := by
  unfold State.heldDown
  repeat' (with_reducible first
    | assumption | apply State.dieReset_keeps | apply keeps_ite | split
    | (apply keeps_mk; first  | assumption | apply State.dieReset_keeps))

theorem execRefclkLoss_goes {r : RefClk} {s : State} (h : s.Keeps p b) : GoesKeeping p b (execRefclkLoss r s) := by
  unfold execRefclkLoss
  repeat' (with_reducible first
    | assumption | apply State.setFlag_keeps | apply State.heldDown_keeps | apply State.fabClockLost_keeps
    | apply State.wr_keeps | apply goes_next | apply keeps_ite | split
    | (apply keeps_mk; first  | assumption | apply State.setFlag_keeps | apply State.heldDown_keeps | apply State.fabClockLost_keeps | apply State.wr_keeps))

theorem State.setCause_keeps {s : State} {cause : Nat} {tripped : Bool} (h : s.Keeps p b) : (State.setCause s cause tripped).Keeps p b := by
  unfold State.setCause
  repeat' (with_reducible first | assumption | apply State.wr_keeps)

theorem execWarmReset_goes {s : State} (h : s.Keeps p b) : GoesKeeping p b (execWarmReset s) := by
  unfold execWarmReset
  repeat' (with_reducible first
    | assumption | apply State.setCause_keeps | apply State.dieReset_keeps | apply goes_next | apply keeps_ite | split
    | (apply keeps_mk; first  | assumption | apply State.setCause_keeps | apply State.dieReset_keeps))

theorem State.refuseLoad_keeps {s : State} {code : Nat} {info0 : Nat} (h : s.Keeps p b) : (State.refuseLoad s code info0).Keeps p b := by
  unfold State.refuseLoad
  repeat' (with_reducible first
    | assumption | apply State.raise_keeps | apply State.setFld_keeps | apply State.dropHbm_keeps | apply State.setInt_keeps
    | apply keeps_ite | split
    | (apply keeps_mk; first  | assumption | apply State.raise_keeps | apply State.setFld_keeps | apply State.dropHbm_keeps | apply State.setInt_keeps))

theorem State.releaseTrip_keeps {s : State} (h : s.Keeps p b) : (State.releaseTrip s).Keeps p b := by
  unfold State.releaseTrip
  repeat' (with_reducible first | assumption | apply keeps_ite | split | (apply keeps_mk; first  | assumption))

theorem execRefclkFabReturn_goes {s : State} (h : s.Keeps p b) : GoesKeeping p b (execRefclkFabReturn s) := by
  unfold execRefclkFabReturn
  repeat' (with_reducible first
    | assumption | apply State.setFlag_keeps | apply State.setGate_keeps | apply keeps_foldl | apply keeps_ite
    | apply keeps_ite_fst | apply keeps_ite_snd | apply keeps_ite_mid | apply goes_next | apply goes_ite
    | (apply keeps_mk; first  | assumption | apply State.setFlag_keeps | apply State.setGate_keeps | apply keeps_ite | (split <;> first | done | (rename_i heq; obtain ⟨rfl, rfl⟩ := pair_eq heq) | (rename_i heq; obtain ⟨rfl, rfl, rfl⟩ := triple_eq heq) | skip))
    | dsimp only | intro _ _ _
    | (split <;> first | done | (rename_i heq; obtain ⟨rfl, rfl⟩ := pair_eq heq) | (rename_i heq; obtain ⟨rfl, rfl, rfl⟩ := triple_eq heq) | skip))

theorem execRefclkPcieReturn_goes {s : State} (h : s.Keeps p b) : GoesKeeping p b (execRefclkPcieReturn s) := by
  unfold execRefclkPcieReturn
  repeat' (with_reducible first | assumption | apply State.setFlag_keeps | apply goes_next)

theorem execPerstNRise_goes {s : State} (h : s.Keeps p b) : GoesKeeping p b (execPerstNRise s) := by
  unfold execPerstNRise
  repeat' (with_reducible first | assumption | apply goes_next | apply keeps_ite | split | (apply keeps_mk; first  | assumption))

theorem execAonReset_goes {s : State} (h : s.Keeps p b) : GoesKeeping p b (execAonReset s) := by
  unfold execAonReset
  repeat' (with_reducible first
    | assumption | apply State.dieReset_keeps | apply goes_next | apply keeps_ite | split
    | (apply keeps_mk; first  | assumption | apply State.dieReset_keeps))

theorem execPcieLinkUp_goes {flit : Bool} {x16 : Bool} {rate : BitVec 3} {s : State} (h : s.Keeps p b) :
    GoesKeeping p b (execPcieLinkUp flit x16 rate s) := by
  unfold execPcieLinkUp
  repeat' (with_reducible first | assumption | apply State.wr_keeps | apply goes_next | apply keeps_ite | split)

theorem execPowerOnReset_goes {s : State} (h : s.Keeps p b) : GoesKeeping p b (execPowerOnReset s) := by
  unfold execPowerOnReset
  repeat' (with_reducible first
    | assumption | apply State.setCause_keeps | apply State.dieReset_keeps | apply State.releaseTrip_keeps | apply goes_next
    | apply keeps_ite | split
    | (apply keeps_mk; first  | assumption | apply State.setCause_keeps | apply State.dieReset_keeps | apply State.releaseTrip_keeps))

theorem execHostBridgeReset_goes {s : State} (h : s.Keeps p b) : GoesKeeping p b (execHostBridgeReset s) := by
  unfold execHostBridgeReset
  repeat' (with_reducible first
    | assumption | apply State.wr_keeps | apply State.refuseLoad_keeps | apply goes_next | apply keeps_ite
    | (apply keeps_mk; first  | assumption | apply State.wr_keeps | apply State.refuseLoad_keeps | split) | split | dsimp only
    | intro _ _ _ | intro _ _)

theorem State.failLoad_keeps {s : State} (h : s.Keeps p b) : (State.failLoad s).Keeps p b := by
  unfold State.failLoad
  repeat' (with_reducible first
    | assumption | apply State.dropHbm_keeps | apply State.setJobState_keeps | apply State.setFlag_keeps | apply keeps_ite
    | split
    | (apply keeps_mk; first  | assumption | apply State.dropHbm_keeps | apply State.setJobState_keeps | apply State.setFlag_keeps))

theorem State.placeSolver_keeps {s : State} {restored : Bool} {v : Solver} (h : s.Keeps p b) :
    (State.placeSolver s restored v).Keeps p b := by
  unfold State.placeSolver
  repeat' (with_reducible first
    | assumption | apply State.putWords_keeps | apply State.rolePut4_keeps | apply State.rolePut_keeps
    | apply State.scbInit_keeps | apply keeps_ite | split)

theorem State.install_keeps {s : State} {j : Job} {step : Nat} (h : s.Keeps p b) : (State.install s j step).Keeps p b := by
  unfold State.install
  repeat' (with_reducible first
    | assumption | apply State.wr_keeps | apply keeps_ite | split
    | (apply keeps_mk; first  | assumption | apply State.wr_keeps))

theorem State.clearJob_keeps {s : State} (h : s.Keeps p b) : (State.clearJob s).Keeps p b := by
  unfold State.clearJob
  repeat' (with_reducible first
    | assumption | apply State.clearFirst_keeps | apply State.clearRegs_keeps | apply State.clearPower_keeps
    | apply State.oregClearAll_keeps | apply State.resetJobStreams_keeps | apply State.setFlag_keeps | apply keeps_foldl
    | apply keeps_ite | apply keeps_ite_fst | apply keeps_ite_snd | apply keeps_ite_mid
    | (apply keeps_mk; first  | assumption | apply State.clearFirst_keeps | apply State.clearRegs_keeps | apply State.clearPower_keeps | apply State.oregClearAll_keeps | apply State.resetJobStreams_keeps | apply State.setFlag_keeps | apply keeps_ite | (split <;> first | done | (rename_i heq; obtain ⟨rfl, rfl⟩ := pair_eq heq) | (rename_i heq; obtain ⟨rfl, rfl, rfl⟩ := triple_eq heq) | skip))
    | dsimp only | intro _ _ _
    | (split <;> first | done | (rename_i heq; obtain ⟨rfl, rfl⟩ := pair_eq heq) | (rename_i heq; obtain ⟨rfl, rfl, rfl⟩ := triple_eq heq) | skip))

theorem State.clearSeeds_keeps {s : State} (h : s.Keeps p b) : (State.clearSeeds s).Keeps p b := by
  unfold State.clearSeeds
  repeat' (with_reducible first | assumption | apply State.wr_keeps | apply State.clearRegs_keeps)

theorem State.beginLoad_keeps {s : State} (h : s.Keeps p b) : (State.beginLoad s).Keeps p b := by
  unfold State.beginLoad
  repeat' (with_reducible first
    | assumption | apply State.clearHold_keeps | apply State.setJobState_keeps | apply State.heartbeat_keeps | apply keeps_ite
    | split
    | (apply keeps_mk; first  | assumption | apply State.clearHold_keeps | apply State.setJobState_keeps | apply State.heartbeat_keeps))

theorem State.setRestore_keeps {s : State} {r : Restore} (h : s.Keeps p b) : (State.setRestore s r).Keeps p b := by
  unfold State.setRestore
  repeat' (with_reducible first | assumption | apply keeps_ite | split | (apply keeps_mk; first  | assumption))

theorem State.loadFields_keeps {s : State} {r : Restore} {fs : List Field} {shards : List (ObjName × List Byte)} (h : s.Keeps p b) :
    (State.loadFields s r fs shards).Keeps p b := by
  unfold State.loadFields
  repeat' (with_reducible first | assumption | apply State.store_keeps | split | dsimp only | intro _ _ _ | apply keeps_foldl)

theorem State.restoreImage_keeps {s : State} {r : Restore} {shards : List (ObjName × List Byte)} (h : s.Keeps p b) :
    (((State.restoreImage s r shards)).2.2).Keeps p b := by
  unfold State.restoreImage
  repeat' (with_reducible first | assumption | apply State.noteRange_keeps | apply State.free_keeps | apply keeps_ite | split)

theorem State.restoreFail_keeps {s : State} {code : Nat} {info0 : Nat} {info1 : Nat} (h : s.Keeps p b) :
    (State.restoreFail s code info0 info1).Keeps p b := by
  unfold State.restoreFail
  repeat' (with_reducible first
    | assumption | apply State.raise_keeps | apply State.setFld_keeps | apply State.failLoad_keeps
    | apply State.postEvent_keeps)

theorem State.restoreFields_keeps {s : State} {r : Restore} {img : List Byte} {base : Nat} {shards : List (ObjName × List Byte)} (h : s.Keeps p b) :
    (State.restoreFields s r img base shards).Keeps p b := by
  unfold State.restoreFields
  repeat' (with_reducible first
    | assumption | apply State.setLlmModes_keeps | apply State.clearSeeds_keeps | apply State.loadFields_keeps
    | apply State.store_keeps | apply keeps_ite | split)

theorem State.loadState_keeps {s : State} {t : List Byte} (h : s.Keeps p b) : (State.loadState s t).Keeps p b := by
  unfold State.loadState
  repeat' (with_reducible first | assumption | apply State.wr_keeps | apply State.setFlag_keeps | split | dsimp only | intro _ _ _ | apply keeps_foldl)

theorem State.restoreJob_keeps {s : State} {j : Job} {man : List Byte} {regs : List Byte} (h : s.Keeps p b) :
    (State.restoreJob s j man regs).Keeps p b := by
  unfold State.restoreJob
  repeat' (with_reducible first
    | assumption | apply State.loadState_keeps | apply State.install_keeps | apply State.setFlag_keeps
    | apply State.syncGrants_keeps | apply State.dropHbm_keeps | apply keeps_ite | split
    | (apply keeps_mk; first  | assumption | apply State.loadState_keeps | apply State.install_keeps | apply State.setFlag_keeps | apply State.syncGrants_keeps | apply State.dropHbm_keeps))

theorem State.acceptRestore_keeps {s : State} {r : Restore} {step : Nat} {man : List Byte} {shards : List (ObjName × List Byte)} (h : s.Keeps p b) :
    (State.acceptRestore s r step man shards).Keeps p b := by
  unfold State.acceptRestore
  have h1 : (s.restoreImage r shards).2.2.Keeps p b := State.restoreImage_keeps h
  generalize s.restoreImage r shards = x at h1 ⊢
  obtain ⟨img, base, u⟩ := x
  dsimp only at h1 ⊢
  split
  · exact State.restoreFail_keeps h1
  · split
    · exact h
    · split
      · exact State.restoreFail_keeps h1
      · split
        · exact State.restoreFail_keeps h1
        · exact State.restoreJob_keeps (State.restoreFields_keeps h1)

theorem State.objGet_keeps {s : State} {gw : Nat} {head : List Byte} {off : Nat} (h : s.Keeps p b) :
    (State.objGet s gw head off).Keeps p b := by
  unfold State.objGet
  repeat' (with_reducible first
    | assumption | apply State.setRestore_keeps | apply State.issue_keeps | split | dsimp only | intro _ _ _
    | apply keeps_foldl)

theorem State.restoreNext_keeps {s : State} (h : s.Keeps p b) : (State.restoreNext s).Keeps p b := by
  unfold State.restoreNext
  repeat' (with_reducible first | assumption | apply State.objGet_keeps | apply State.setRestore_keeps | apply keeps_ite | split)

theorem State.restoreList_keeps {s : State} {r : Restore} (h : s.Keeps p b) : (State.restoreList s r).Keeps p b := by
  unfold State.restoreList
  repeat' (with_reducible first | assumption | apply State.objGet_keeps | apply State.setRestore_keeps)

theorem State.nextCandidate_keeps {s : State} {r : Restore} (h : s.Keeps p b) : (State.nextCandidate s r).Keeps p b := by
  unfold State.nextCandidate
  repeat' (with_reducible first
    | assumption | apply State.restoreNext_keeps | apply State.setRestore_keeps | apply State.restoreList_keeps
    | apply keeps_ite | split)

theorem State.loadRefuse_keeps {s : State} {e : LoadErr} (h : s.Keeps p b) : (((State.loadRefuse s e)).1).Keeps p b := by
  unfold State.loadRefuse
  repeat' (with_reducible first | assumption | apply State.failLoad_keeps | apply State.raise_keeps)

theorem State.startRestore_keeps {s0 : State} {a : Nat} (h : s0.Keeps p b) : (((State.startRestore s0 a)).1).Keeps p b := by
  unfold State.startRestore
  repeat' (with_reducible first
    | assumption | apply State.noteOk_keeps | apply State.loadRefuse_keeps | apply State.setFlag_keeps
    | apply State.useHbm_keeps | apply State.clearJob_keeps | apply State.restoreList_keeps | apply State.nextCandidate_keeps
    | split | dsimp only | intro _ _ _ | apply keeps_foldl)

theorem State.restoreData_keeps {s : State} {off : Nat} {data : List Byte} (h : s.Keeps p b) :
    (State.restoreData s off data).Keeps p b := by
  unfold State.restoreData
  repeat' (with_reducible first
    | assumption | apply State.nextCandidate_keeps | apply State.restoreNext_keeps | apply State.setRestore_keeps
    | apply keeps_ite | split)

theorem execRestoreReadDone_goes {s : State} (h : s.Keeps p b) : GoesKeeping p b (execRestoreReadDone s) := by
  unfold execRestoreReadDone
  repeat' (with_reducible first
    | assumption | apply State.restoreFail_keeps | apply State.acceptRestore_keeps | apply State.nextCandidate_keeps
    | apply goes_next | apply keeps_ite | split)

theorem State.restoreError_keeps {s : State} {code : Nat} (h : s.Keeps p b) : (State.restoreError s code).Keeps p b := by
  unfold State.restoreError
  repeat' (with_reducible first | assumption | apply State.restoreNext_keeps | apply State.setRestore_keeps | apply keeps_ite | split)

theorem State.jobLoad_keeps {s : State} {seq : Nat} {args : List Nat} (h : s.Keeps p b) : (State.jobLoad s seq args).Keeps p b := by
  unfold State.jobLoad
  repeat' (with_reducible first
    | assumption | apply State.beginLoad_keeps | apply State.noteOk_keeps | apply State.hifDone_keeps
    | apply State.loadRefuse_keeps | apply State.syncGrants_keeps | apply State.llmPend_keeps | apply State.install_keeps
    | apply State.setFld_keeps | apply State.clearSeeds_keeps | apply State.clearJob_keeps | split | dsimp only | intro _ _ _
    | apply keeps_foldl)

theorem State.runLoad_keeps {s : State} {c : HifCmd} (h : s.Keeps p b) : (State.runLoad s c).Keeps p b := by
  unfold State.runLoad
  repeat' (with_reducible first
    | assumption | apply State.jobLoad_keeps | apply State.startRestore_keeps | apply State.beginLoad_keeps
    | apply State.hifDone_keeps | apply keeps_ite | split)

theorem State.takeLoad_keeps {s : State} {c : HifCmd} (h : s.Keeps p b) : (State.takeLoad s c).Keeps p b := by
  unfold State.takeLoad
  repeat' (with_reducible first
    | assumption | apply State.hifDone_keeps | apply State.refuse_keeps | apply State.runLoad_keeps | apply keeps_ite | split
    | (apply keeps_mk; first  | assumption | apply State.hifDone_keeps | apply State.refuse_keeps | apply State.runLoad_keeps))

theorem State.runCmd_keeps {s : State} {seq : Nat} {n : Option Nat} (h : s.Keeps p b) : (State.runCmd s seq n).Keeps p b := by
  unfold State.runCmd
  repeat' (with_reducible first
    | assumption | apply State.clearHold_keeps | apply State.wr_keeps | apply State.hifDone_keeps
    | apply State.setRunCkpt_keeps | apply State.resume_keeps | apply keeps_ite
    | (apply keeps_mk; first  | assumption | apply State.clearHold_keeps | apply State.wr_keeps | apply State.hifDone_keeps | apply State.setRunCkpt_keeps | apply State.resume_keeps | split)
    | split | dsimp only | intro _ _ _ | intro _ _)

theorem State.sendTarget_keeps {s : State} {t : Nat} (h : s.Keeps p b) : (State.sendTarget s t).Keeps p b := by
  unfold State.sendTarget
  repeat' (with_reducible first | assumption | apply State.issueMcast_keeps | split | dsimp only | intro _ _ _ | apply keeps_foldl)

theorem State.atOnce_keeps {s : State} (h : s.Keeps p b) : (State.atOnce s).Keeps p b := by
  unfold State.atOnce
  repeat' (with_reducible first
    | assumption | apply State.setRunCkpt_keeps | apply State.startCkpt_keeps | apply State.finAtOnce_keeps | apply keeps_ite
    | split)

theorem State.applyTarget_keeps {s : State} (h : s.Keeps p b) : (State.applyTarget s).Keeps p b := by
  unfold State.applyTarget
  repeat' (with_reducible first
    | assumption | apply State.wr_keeps | apply State.sendTarget_keeps | apply State.atOnce_keeps | apply State.resume_keeps
    | apply State.setJobState_keeps | apply keeps_ite | split
    | (apply keeps_mk; first  | assumption | apply State.wr_keeps | apply State.sendTarget_keeps | apply State.atOnce_keeps | apply State.resume_keeps | apply State.setJobState_keeps))

theorem State.startHold_keeps {s : State} {cause : Option Nat} (h : s.Keeps p b) : (State.startHold s cause).Keeps p b := by
  unfold State.startHold
  repeat' (with_reducible first
    | assumption | apply State.applyTarget_keeps | apply keeps_ite | split
    | (apply keeps_mk; first  | assumption | apply State.applyTarget_keeps))

theorem State.endCmd_keeps {s : State} {seq : Nat} {a : Nat} (h : s.Keeps p b) : (State.endCmd s seq a).Keeps p b := by
  unfold State.endCmd
  repeat' (with_reducible first
    | assumption | apply State.hifDone_keeps | apply State.startHold_keeps | apply keeps_ite | split
    | (apply keeps_mk; first  | assumption | apply State.hifDone_keeps | apply State.startHold_keeps))

theorem State.ckptCmd_keeps {s0 : State} {seq : Nat} {a : Nat} (h : s0.Keeps p b) : (State.ckptCmd s0 seq a).Keeps p b := by
  unfold State.ckptCmd
  repeat' (with_reducible first
    | assumption | apply State.noteOk_keeps | apply State.hifDone_keeps | apply State.ckptTrigger_keeps | apply State.wr_keeps
    | apply State.startCkpt_keeps | apply keeps_ite | split)

theorem State.armCmd_keeps {s : State} {seq : Nat} {a : Nat} {arm : Nat} (h : s.Keeps p b) : (State.armCmd s seq a arm).Keeps p b := by
  unfold State.armCmd
  repeat' (with_reducible first
    | assumption | apply State.hifDone_keeps | apply State.setFlag_keeps | apply State.noteOk_keeps | apply State.wr_keeps
    | apply keeps_ite | split)

theorem State.abortCmd_keeps {s : State} (h : s.Keeps p b) : (State.abortCmd s).Keeps p b := by
  unfold State.abortCmd
  repeat' (with_reducible first
    | assumption | apply State.setJobState_keeps | apply State.unload_keeps | apply keeps_ite | split
    | (apply keeps_mk; first  | assumption | apply State.setJobState_keeps | apply State.unload_keeps))

theorem State.hifRun_keeps {s : State} {c : HifCmd} (h : s.Keeps p b) : (State.hifRun s c).Keeps p b := by
  unfold State.hifRun
  repeat' (with_reducible first
    | assumption | apply State.hifDone_keeps | apply State.refuse_keeps | apply State.takeLoad_keeps
    | apply State.runCmd_keeps | apply State.startHold_keeps | apply State.endCmd_keeps | apply State.ckptCmd_keeps
    | apply State.armCmd_keeps | apply State.wr_keeps | apply State.setFlag_keeps | apply State.heartbeat_keeps
    | apply State.abortCmd_keeps | apply keeps_ite | split)

theorem State.hifTake_keeps {s : State} (h : s.Keeps p b) : (State.hifTake s).Keeps p b := by
  unfold State.hifTake
  repeat' (with_reducible first
    | assumption | apply State.hifRun_keeps | apply State.setFlag_keeps | apply keeps_ite | split
    | (apply keeps_mk; first  | assumption | apply State.hifRun_keeps | apply State.setFlag_keeps))

theorem State.hifWrite_keeps {s : State} {v : Nat} (h : s.Keeps p b) : (State.hifWrite s v).Keeps p b := by
  unfold State.hifWrite
  repeat' (with_reducible first
    | assumption | apply State.setFld_keeps | apply State.setFlag_keeps | apply State.wr_keeps | apply State.hifTake_keeps
    | apply keeps_ite | split
    | (apply keeps_mk; first  | assumption | apply State.setFld_keeps | apply State.setFlag_keeps | apply State.wr_keeps | apply State.hifTake_keeps))

theorem State.hifCommand_keeps {s : State} {op : Nat} {seq : BitVec 16} {args : List (Nat × Word)} (h : s.Keeps p b) :
    (State.hifCommand s op seq args).Keeps p b := by
  unfold State.hifCommand
  repeat' (with_reducible first | assumption | apply State.hifWrite_keeps | apply State.wr_keeps | split | dsimp only | intro _ _ _ | apply keeps_foldl)

theorem execJobLoad_goes {seq : BitVec 16} {addr : Word} {len : Word} {sess : Word} {step : Word} {s : State} (h : s.Keeps p b) :
    GoesKeeping p b (execJobLoad seq addr len sess step s) := by
  unfold execJobLoad
  repeat' (with_reducible first | assumption | apply State.hifCommand_keeps | apply goes_next)

theorem execRestore_goes {seq : BitVec 16} {record : Word} {s : State} (h : s.Keeps p b) : GoesKeeping p b (execRestore seq record s) := by
  unfold execRestore
  repeat' (with_reducible first | assumption | apply State.hifCommand_keeps | apply goes_next)

theorem execQuietEnd_goes {s : State} (h : s.Keeps p b) : GoesKeeping p b (execQuietEnd s) := by
  unfold execQuietEnd
  repeat' (with_reducible first
    | assumption | apply State.runLoad_keeps | apply State.hifDone_keeps | apply goes_next | apply keeps_ite
    | (apply keeps_mk; first  | assumption | apply State.runLoad_keeps | apply State.hifDone_keeps | split) | split
    | dsimp only | intro _ _ _ | intro _ _)

theorem execRun_goes {seq : BitVec 16} {s : State} (h : s.Keeps p b) : GoesKeeping p b (execRun seq s) := by
  unfold execRun
  repeat' (with_reducible first | assumption | apply State.hifCommand_keeps | apply goes_next)

theorem State.boundary_keeps {s : State} (h : s.Keeps p b) : (State.boundary s).Keeps p b := by
  unfold State.boundary
  repeat' (with_reducible first
    | assumption | apply State.postEvent_keeps | apply State.setFlag_keeps | apply State.wr_keeps
    | apply State.ckptAtBoundary_keeps | apply keeps_ite | split
    | (apply keeps_mk; first  | assumption | apply State.postEvent_keeps | apply State.setFlag_keeps | apply State.wr_keeps | apply State.ckptAtBoundary_keeps))

theorem State.hostBeat_keeps {s : State} (h : s.Keeps p b) : (State.hostBeat s).Keeps p b := by
  unfold State.hostBeat
  repeat' (with_reducible first | assumption | apply State.heartbeat_keeps | apply keeps_ite | split)

theorem execSchHb_goes {s : State} (h : s.Keeps p b) : GoesKeeping p b (execSchHb s) := by
  unfold execSchHb
  repeat' (with_reducible first | assumption | apply State.hostBeat_keeps | apply goes_next)

theorem State.holdAtWrite_keeps {s : State} {node : Option Nat} {v : Nat} (h : s.Keeps p b) :
    (((State.holdAtWrite s node v)).1).Keeps p b := by
  unfold State.holdAtWrite
  repeat' (with_reducible first | assumption | apply State.refuse_keeps | apply State.startHold_keeps | apply State.wr_keeps | apply keeps_ite | split)

theorem execSchHoldAt_goes {node : Option (BitVec 14)} {v : Word} {s : State} (h : s.Keeps p b) :
    GoesKeeping p b (execSchHoldAt node v s) := by
  unfold execSchHoldAt
  repeat' (with_reducible first | assumption | apply State.holdAtWrite_keeps | apply goes_next | apply keeps_ite | split)

theorem execSchEvtPop_goes {s : State} (h : s.Keeps p b) : GoesKeeping p b (execSchEvtPop s) := by
  unfold execSchEvtPop
  repeat' (with_reducible first | assumption | apply State.setEvents_keeps | apply goes_next | apply keeps_ite | split)

theorem execHold_goes {seq : BitVec 16} {s : State} (h : s.Keeps p b) : GoesKeeping p b (execHold seq s) := by
  unfold execHold
  repeat' (with_reducible first | assumption | apply State.hifCommand_keeps | apply goes_next)

theorem State.lapse_keeps {s : State} (h : s.Keeps p b) : (State.lapse s).Keeps p b := by
  unfold State.lapse
  repeat' (with_reducible first
    | assumption | apply State.postEvent_keeps | apply State.setFlag_keeps | apply State.ckptTrigger_keeps
    | apply State.startHold_keeps | apply keeps_ite | split
    | (apply keeps_mk; first  | assumption | apply State.postEvent_keeps | apply State.setFlag_keeps | apply State.ckptTrigger_keeps | apply State.startHold_keeps))

theorem execSegmentDone_goes {seg : Fin 256} {s : State} (h : s.Keeps p b) : GoesKeeping p b (execSegmentDone seg s) := by
  unfold execSegmentDone
  repeat' (with_reducible first
    | assumption | apply State.endStreams_keeps | apply State.syncPhase_keeps | apply State.fwLog_keeps | apply State.wr_keeps
    | apply State.boundary_keeps | apply State.readoutAtBoundary_keeps | apply State.stepEnd_keeps | apply goes_next
    | apply keeps_ite
    | (apply keeps_mk; first  | assumption | apply State.endStreams_keeps | apply State.syncPhase_keeps | apply State.fwLog_keeps | apply State.wr_keeps | apply State.boundary_keeps | apply State.readoutAtBoundary_keeps | apply State.stepEnd_keeps | split)
    | split | dsimp only | intro _ _ _ | intro _ _)

theorem execCkpt_goes {seq : BitVec 16} {dest : Word} {s : State} (h : s.Keeps p b) : GoesKeeping p b (execCkpt seq dest s) := by
  unfold execCkpt
  repeat' (with_reducible first | assumption | apply State.hifCommand_keeps | apply goes_next)

theorem State.checkLapse_keeps {s : State} (h : s.Keeps p b) : (State.checkLapse s).Keeps p b := by
  unfold State.checkLapse
  repeat' (with_reducible first
    | assumption | apply State.lapse_keeps | apply keeps_ite
    | (apply keeps_mk; first  | assumption | apply State.lapse_keeps | split) | split | dsimp only | intro _ _ _ | intro _ _)

theorem execArmCkpt_goes {seq : BitVec 16} {dest : Word} {arm : Word} {s : State} (h : s.Keeps p b) :
    GoesKeeping p b (execArmCkpt seq dest arm s) := by
  unfold execArmCkpt
  repeat' (with_reducible first | assumption | apply State.hifCommand_keeps | apply goes_next)

theorem State.seedWrite_keeps {s : State} {w : Nat} {v : Nat} (h : s.Keeps p b) : (((State.seedWrite s w v)).1).Keeps p b := by
  unfold State.seedWrite
  repeat' (with_reducible first | assumption | apply State.setFlag_keeps | apply State.wr_keeps | apply State.refuse_keeps | apply keeps_ite | split)

theorem execSeedWrite_goes {seed : Fin 16} {word : Fin 2} {v : Word} {s : State} (h : s.Keeps p b) :
    GoesKeeping p b (execSeedWrite seed word v s) := by
  unfold execSeedWrite
  repeat' (with_reducible first | assumption | apply State.seedWrite_keeps | apply goes_next | apply keeps_ite | split)

theorem execAttach_goes {seq : BitVec 16} {driver : Word} {s : State} (h : s.Keeps p b) : GoesKeeping p b (execAttach seq driver s) := by
  unfold execAttach
  repeat' (with_reducible first | assumption | apply State.hifCommand_keeps | apply goes_next)

theorem execRunN_goes {seq : BitVec 16} {n : Word} {s : State} (h : s.Keeps p b) : GoesKeeping p b (execRunN seq n s) := by
  unfold execRunN
  repeat' (with_reducible first | assumption | apply State.hifCommand_keeps | apply goes_next)

theorem execSegmentStart_goes {seg : Fin 256} {s : State} (h : s.Keeps p b) : GoesKeeping p b (execSegmentStart seg s) := by
  unfold execSegmentStart
  repeat' (with_reducible first
    | assumption | apply State.syncPhase_keeps | apply State.startStreams_keeps | apply goes_next | apply keeps_ite | split
    | (apply keeps_mk; first  | assumption | apply State.syncPhase_keeps | apply State.startStreams_keeps))

theorem State.schBack_keeps {s : State} (h : s.Keeps p b) : (State.schBack s).Keeps p b := by
  unfold State.schBack
  repeat' (with_reducible first
    | assumption | apply State.endJob_keeps | apply State.schAdvisory_keeps | apply State.ckptWatch_keeps
    | apply State.ckptSettle_keeps | apply State.checkLapse_keeps | apply State.applyTarget_keeps | apply State.boundary_keeps
    | apply keeps_ite | split
    | (apply keeps_mk; first  | assumption | apply State.endJob_keeps | apply State.schAdvisory_keeps | apply State.ckptWatch_keeps | apply State.ckptSettle_keeps | apply State.checkLapse_keeps | apply State.applyTarget_keeps | apply State.boundary_keeps))

theorem execEndJob_goes {seq : BitVec 16} {ckpt : Word} {s : State} (h : s.Keeps p b) : GoesKeeping p b (execEndJob seq ckpt s) := by
  unfold execEndJob
  repeat' (with_reducible first | assumption | apply State.hifCommand_keeps | apply goes_next)

theorem execJobLoadComplete_goes {s : State} (h : s.Keeps p b) : GoesKeeping p b (execJobLoadComplete s) := by
  unfold execJobLoadComplete
  try dsimp only
  repeat' (with_reducible first
    | assumption | apply State.placeSolver_keeps | apply State.setLlmModes_keeps | apply State.syncGrants_keeps | apply State.setJobState_keeps | apply State.setFlag_keeps | apply State.postEvent_keeps | apply State.lapse_keeps | apply State.applyTarget_keeps | apply keeps_foldl | apply keeps_foldl_fst | apply keeps_foldl_snd | apply keeps_ite | apply goes_ite | apply keeps_ite_fst | apply keeps_ite_snd | apply keeps_ite_mid | apply goes_next
    | (apply keeps_mk; first | assumption | apply State.placeSolver_keeps | apply State.setLlmModes_keeps | apply State.syncGrants_keeps | apply State.setJobState_keeps | apply State.setFlag_keeps | apply State.postEvent_keeps | apply State.lapse_keeps | apply State.applyTarget_keeps | apply keeps_foldl | apply keeps_foldl_fst | apply keeps_foldl_snd | apply keeps_ite | apply goes_ite | apply keeps_ite_fst | apply keeps_ite_snd | apply keeps_ite_mid | (split <;> first | done | (rename_i heq; obtain ⟨rfl, rfl⟩ := pair_eq heq) | (rename_i heq; obtain ⟨rfl, rfl, rfl⟩ := triple_eq heq) | skip))
    | intro _ _ _ | intro _ _ | dsimp only | (split <;> first | done | (rename_i heq; obtain ⟨rfl, rfl⟩ := pair_eq heq) | (rename_i heq; obtain ⟨rfl, rfl, rfl⟩ := triple_eq heq) | skip))

theorem execAbort_goes {seq : BitVec 16} {s : State} (h : s.Keeps p b) : GoesKeeping p b (execAbort seq s) := by
  unfold execAbort
  repeat' (with_reducible first | assumption | apply State.hifCommand_keeps | apply goes_next)

theorem execHeartbeatLapse_goes {s : State} (h : s.Keeps p b) : GoesKeeping p b (execHeartbeatLapse s) := by
  unfold execHeartbeatLapse
  repeat' (with_reducible first
    | assumption | apply State.checkLapse_keeps | apply goes_next | apply keeps_ite | split
    | (apply keeps_mk; first  | assumption | apply State.checkLapse_keeps))

end Sys2Proof.Machine
end

