-- ==== Sys2Proof/Laws/KeepNode.lean ====
section
/-!
SUPPORT. One lemma for each operation of security, the host bridge and settings: it keeps the queue of
waiting commands and the canonical form of local memory, and each command answers a next state.
-/

namespace Sys2Proof.Machine

variable {p : List Instr} {b : Bool}

theorem State.overrun_keeps {s : State} (h : s.Keeps p b) : (State.overrun s).Keeps p b := by
  unfold State.overrun
  repeat' (with_reducible first | assumption | apply State.setFld_keeps)

theorem State.secRefuse_keeps {s : State} {code : Nat} (h : s.Keeps p b) : (State.secRefuse s code).Keeps p b := by
  unfold State.secRefuse
  repeat' (with_reducible first | assumption | apply State.secDone_keeps | apply State.refuse_keeps)

theorem State.runIdentity_keeps {s : State} (h : s.Keeps p b) : (State.runIdentity s).Keeps p b := by
  unfold State.runIdentity
  repeat' (with_reducible first
    | assumption | apply State.secDone_keeps | apply State.putMsg_keeps | apply State.secRefuse_keeps | apply keeps_ite
    | split)

theorem State.setSess_keeps {s : State} {st : Nat} (h : s.Keeps p b) : (State.setSess s st).Keeps p b := by
  unfold State.setSess
  repeat' (with_reducible first
    | assumption | apply State.noteSensors_keeps | apply State.syncGrants_keeps | apply State.fwLog_keeps
    | apply State.setFld_keeps)

theorem State.runOpen_keeps {s : State} (h : s.Keeps p b) : (State.runOpen s).Keeps p b := by
  unfold State.runOpen
  repeat' (with_reducible first
    | assumption | apply State.secRefuse_keeps | apply State.secDone_keeps | apply State.freeBytes_keeps
    | apply State.setSess_keeps | apply State.setFld_keeps | apply State.putMsg_keeps | apply keeps_ite | split
    | (apply keeps_mk; first  | assumption | apply State.secRefuse_keeps | apply State.secDone_keeps | apply State.freeBytes_keeps | apply State.setSess_keeps | apply State.setFld_keeps | apply State.putMsg_keeps))

theorem State.dropHalf_keeps {s : State} (h : s.Keeps p b) : (State.dropHalf s).Keeps p b := by
  unfold State.dropHalf
  repeat' (with_reducible first
    | assumption | apply State.setSess_keeps | apply State.setFld_keeps | apply keeps_ite | split
    | (apply keeps_mk; first  | assumption | apply State.setSess_keeps | apply State.setFld_keeps))

theorem State.openRegions_keeps {s : State} {ws : List (Nat × Nat)} (h : s.Keeps p b) : (State.openRegions s ws).Keeps p b := by
  unfold State.openRegions
  try dsimp only
  repeat' (with_reducible first
    | assumption | apply State.wr_keeps | apply keeps_foldl | apply keeps_foldl_fst | apply keeps_foldl_snd | apply keeps_ite | apply goes_ite | apply keeps_ite_fst | apply keeps_ite_snd | apply keeps_ite_mid | apply goes_next
    | (apply keeps_mk; first | assumption | apply State.wr_keeps | apply keeps_foldl | apply keeps_foldl_fst | apply keeps_foldl_snd | apply keeps_ite | apply goes_ite | apply keeps_ite_fst | apply keeps_ite_snd | apply keeps_ite_mid | (split <;> first | done | (rename_i heq; obtain ⟨rfl, rfl⟩ := pair_eq heq) | (rename_i heq; obtain ⟨rfl, rfl, rfl⟩ := triple_eq heq) | skip))
    | intro _ _ _ | intro _ _ | dsimp only | (split <;> first | done | (rename_i heq; obtain ⟨rfl, rfl⟩ := pair_eq heq) | (rename_i heq; obtain ⟨rfl, rfl, rfl⟩ := triple_eq heq) | skip))

theorem State.setNos_keeps {s : State} {n : Nat} (h : s.Keeps p b) : (State.setNos s n).Keeps p b := by
  unfold State.setNos
  repeat' (with_reducible first | assumption | apply State.wr_keeps)

theorem State.runFinish_keeps {s : State} (h : s.Keeps p b) : (State.runFinish s).Keeps p b := by
  unfold State.runFinish
  repeat' (with_reducible first
    | assumption | apply State.secDone_keeps | apply State.secRefuse_keeps | apply State.dropHalf_keeps
    | apply State.openRegions_keeps | apply State.setSess_keeps | apply State.setNos_keeps | apply State.setFlag_keeps
    | apply State.rekeyPorts_keeps | apply keeps_ite
    | (apply keeps_mk; first  | assumption | apply State.secDone_keeps | apply State.secRefuse_keeps | apply State.dropHalf_keeps | apply State.openRegions_keeps | apply State.setSess_keeps | apply State.setNos_keeps | apply State.setFlag_keeps | apply State.rekeyPorts_keeps | split)
    | split | dsimp only | intro _ _ _ | intro _ _)

theorem State.blowFuses_keeps {s : State} {target : Nat} (h : s.Keeps p b) : (State.blowFuses s target).Keeps p b := by
  unfold State.blowFuses
  repeat' (with_reducible first
    | assumption | apply State.freeBytes_keeps | apply State.flashErase_keeps | apply keeps_ite
    | (apply keeps_mk; first  | assumption | apply State.freeBytes_keeps | apply State.flashErase_keeps | split) | split
    | dsimp only | intro _ _ _ | intro _ _)

theorem State.doTransition_keeps {s : State} {target : Nat} (h : s.Keeps p b) : (State.doTransition s target).Keeps p b := by
  unfold State.doTransition
  repeat' (with_reducible first
    | assumption | apply State.fwLog_keeps | apply State.blowFuses_keeps | apply State.startUp_keeps
    | apply State.noteSensors_keeps | apply State.setCause_keeps | apply State.dieReset_keeps | apply keeps_ite | split
    | (apply keeps_mk; first  | assumption | apply State.fwLog_keeps | apply State.blowFuses_keeps | apply State.startUp_keeps | apply State.noteSensors_keeps | apply State.setCause_keeps | apply State.dieReset_keeps))

theorem State.lcyGo_keeps {s : State} (h : s.Keeps p b) : (State.lcyGo s).Keeps p b := by
  unfold State.lcyGo
  repeat' (with_reducible first | assumption | apply State.doTransition_keeps | apply keeps_ite | split)

theorem State.closeJob_keeps {s : State} (h : s.Keeps p b) : (State.closeJob s).Keeps p b := by
  unfold State.closeJob
  repeat' (with_reducible first
    | assumption | apply State.ckptFail_keeps | apply State.setRunCkpt_keeps | apply State.endJob_keeps | apply keeps_ite
    | split)

theorem State.scrubOnDie_keeps {s : State} (h : s.Keeps p b) : (State.scrubOnDie s).Keeps p b := by
  unfold State.scrubOnDie
  repeat' (with_reducible first
    | assumption | apply State.zeroRange_keeps | apply State.clearSeeds_keeps | apply State.wr_keeps | apply keeps_ite | split
    | (apply keeps_mk; first  | assumption | apply State.zeroRange_keeps | apply State.clearSeeds_keeps | apply State.wr_keeps))

theorem State.closeKeys_keeps {s : State} (h : s.Keeps p b) : (State.closeKeys s).Keeps p b := by
  unfold State.closeKeys
  repeat' (with_reducible first
    | assumption | apply State.secDone_keeps | apply State.scrubOnDie_keeps | apply State.setFlag_keeps
    | apply State.useHbm_keeps | apply keeps_ite | split
    | (apply keeps_mk; first  | assumption | apply State.secDone_keeps | apply State.scrubOnDie_keeps | apply State.setFlag_keeps | apply State.useHbm_keeps))

theorem State.closeLast_keeps {s : State} (h : s.Keeps p b) : (State.closeLast s).Keeps p b := by
  unfold State.closeLast
  repeat' (with_reducible first
    | assumption | apply State.clearRegs_keeps | apply State.setNos_keeps | apply State.setFld_keeps
    | apply State.setSess_keeps | apply State.rekeyPorts_keeps | apply State.lcyGo_keeps | apply State.secDone_keeps
    | apply keeps_ite | split
    | (apply keeps_mk; first  | assumption | apply State.clearRegs_keeps | apply State.setNos_keeps | apply State.setFld_keeps | apply State.setSess_keeps | apply State.rekeyPorts_keeps | apply State.lcyGo_keeps | apply State.secDone_keeps))

theorem State.advanceClose_keeps {s : State} (h : s.Keeps p b) : (State.advanceClose s).Keeps p b := by
  unfold State.advanceClose
  repeat' (with_reducible first
    | assumption | apply State.lcyGo_keeps | apply State.closeJob_keeps | apply State.closeKeys_keeps
    | apply State.closeLast_keeps | apply keeps_ite | split)

theorem State.startClose_keeps {s : State} (h : s.Keeps p b) : (State.startClose s).Keeps p b := by
  unfold State.startClose
  repeat' (with_reducible first
    | assumption | apply State.advanceClose_keeps | apply State.setSess_keeps | apply keeps_ite | split
    | (apply keeps_mk; first  | assumption | apply State.advanceClose_keeps | apply State.setSess_keeps))

theorem State.runClose_keeps {s : State} (h : s.Keeps p b) : (State.runClose s).Keeps p b := by
  unfold State.runClose
  repeat' (with_reducible first
    | assumption | apply State.secDone_keeps | apply State.dropHalf_keeps | apply State.startClose_keeps | apply keeps_ite
    | split
    | (apply keeps_mk; first  | assumption | apply State.secDone_keeps | apply State.dropHalf_keeps | apply State.startClose_keeps))

theorem State.runReadout_keeps {s : State} (h : s.Keeps p b) : (State.runReadout s).Keeps p b := by
  unfold State.runReadout
  repeat' (with_reducible first
    | assumption | apply State.secDone_keeps | apply State.readout_keeps | apply keeps_ite | split
    | (apply keeps_mk; first  | assumption | apply State.secDone_keeps | apply State.readout_keeps))

theorem State.secTake_keeps {s : State} (h : s.Keeps p b) : (State.secTake s).Keeps p b := by
  unfold State.secTake
  repeat' (with_reducible first
    | assumption | apply State.setFlag_keeps | apply State.runIdentity_keeps | apply State.runOpen_keeps
    | apply State.runFinish_keeps | apply State.runClose_keeps | apply State.runReadout_keeps | apply State.secRefuse_keeps
    | apply keeps_ite | split
    | (apply keeps_mk; first  | assumption | apply State.setFlag_keeps | apply State.runIdentity_keeps | apply State.runOpen_keeps | apply State.runFinish_keeps | apply State.runClose_keeps | apply State.runReadout_keeps | apply State.secRefuse_keeps))

theorem State.secWrite_keeps {s : State} {op : Nat} (h : s.Keeps p b) : (State.secWrite s op).Keeps p b := by
  unfold State.secWrite
  repeat' (with_reducible first
    | assumption | apply State.overrun_keeps | apply State.setFlag_keeps | apply State.setFld_keeps
    | apply State.secTake_keeps | apply keeps_ite | split
    | (apply keeps_mk; first  | assumption | apply State.overrun_keeps | apply State.setFlag_keeps | apply State.setFld_keeps | apply State.secTake_keeps))

theorem State.lcyDone_keeps {s : State} (h : s.Keeps p b) : (State.lcyDone s).Keeps p b := by
  unfold State.lcyDone
  repeat' (with_reducible first
    | assumption | apply State.setInt_keeps | apply State.setFlag_keeps | apply keeps_ite | split
    | (apply keeps_mk; first  | assumption | apply State.setInt_keeps | apply State.setFlag_keeps))

theorem State.lcyFail_keeps {s : State} {target : Nat} {code : Nat} (h : s.Keeps p b) : (State.lcyFail s target code).Keeps p b := by
  unfold State.lcyFail
  repeat' (with_reducible first | assumption | apply State.fwLog_keeps | apply State.lcyDone_keeps | apply State.refuse_keeps | apply keeps_ite | split)

theorem State.lcyTake_keeps {s : State} (h : s.Keeps p b) : (State.lcyTake s).Keeps p b := by
  unfold State.lcyTake
  repeat' (with_reducible first
    | assumption | apply State.lcyFail_keeps | apply State.startClose_keeps | apply State.lcyGo_keeps | apply keeps_ite
    | (apply keeps_mk; first  | assumption | apply State.lcyFail_keeps | apply State.startClose_keeps | apply State.lcyGo_keeps | split)
    | split | dsimp only | intro _ _ _ | intro _ _)

theorem State.lcyWrite_keeps {s : State} {target : Nat} (h : s.Keeps p b) : (State.lcyWrite s target).Keeps p b := by
  unfold State.lcyWrite
  repeat' (with_reducible first
    | assumption | apply State.overrun_keeps | apply State.lcyTake_keeps | apply State.setFlag_keeps | apply keeps_ite | split
    | (apply keeps_mk; first  | assumption | apply State.overrun_keeps | apply State.lcyTake_keeps | apply State.setFlag_keeps))

theorem State.presenceGone_keeps {s : State} (h : s.Keeps p b) : (State.presenceGone s).Keeps p b := by
  unfold State.presenceGone
  repeat' (with_reducible first
    | assumption | apply State.lcyFail_keeps | apply keeps_ite
    | (apply keeps_mk; first  | assumption | apply State.lcyFail_keeps | split) | split | dsimp only | intro _ _ _ | intro _ _)

theorem State.sealAct_keeps {s : State} (h : s.Keeps p b) : (State.sealAct s).Keeps p b := by
  unfold State.sealAct
  repeat' (with_reducible first
    | assumption | apply State.dropHalf_keeps | apply State.startClose_keeps | apply keeps_ite | split
    | (apply keeps_mk; first  | assumption | apply State.dropHalf_keeps | apply State.startClose_keeps))

theorem State.sealOpens_keeps {s : State} (h : s.Keeps p b) : (State.sealOpens s).Keeps p b := by
  unfold State.sealOpens
  repeat' (with_reducible first
    | assumption | apply State.bump_keeps | apply State.presenceGone_keeps | apply State.sealAct_keeps | apply keeps_ite
    | split
    | (apply keeps_mk; first  | assumption | apply State.bump_keeps | apply State.presenceGone_keeps | apply State.sealAct_keeps))

theorem State.setPresence_keeps {s : State} {x1 : Bool} (h : s.Keeps p b) : (State.setPresence s x1).Keeps p b := by
  unfold State.setPresence
  repeat' (with_reducible first
    | assumption | apply State.sealOpens_keeps | apply State.presenceGone_keeps | apply keeps_ite
    | (apply keeps_mk; first  | assumption | apply State.sealOpens_keeps | apply State.presenceGone_keeps | split) | split
    | dsimp only | intro _ _ _ | intro _ _)

theorem execLcyRetire_goes {present : Bool} {s : State} (h : s.Keeps p b) : GoesKeeping p b (execLcyRetire present s) := by
  unfold execLcyRetire
  repeat' (with_reducible first | assumption | apply State.lcyWrite_keeps | apply State.setPresence_keeps | apply goes_next)

theorem execSecClose_goes {s : State} (h : s.Keeps p b) : GoesKeeping p b (execSecClose s) := by
  unfold execSecClose
  repeat' (with_reducible first | assumption | apply State.secWrite_keeps | apply goes_next)

theorem execPresenceLapse_goes {s : State} (h : s.Keeps p b) : GoesKeeping p b (execPresenceLapse s) := by
  unfold execPresenceLapse
  repeat' (with_reducible first
    | assumption | apply State.presenceGone_keeps | apply goes_next | apply keeps_ite | split
    | (apply keeps_mk; first  | assumption | apply State.presenceGone_keeps))

theorem execLcyService_goes {present : Bool} {s : State} (h : s.Keeps p b) : GoesKeeping p b (execLcyService present s) := by
  unfold execLcyService
  repeat' (with_reducible first | assumption | apply State.lcyWrite_keeps | apply State.setPresence_keeps | apply goes_next)

theorem execHalfOpenTimeout_goes {s : State} (h : s.Keeps p b) : GoesKeeping p b (execHalfOpenTimeout s) := by
  unfold execHalfOpenTimeout
  repeat' (with_reducible first
    | assumption | apply State.dropHalf_keeps | apply goes_next | apply keeps_ite | split
    | (apply keeps_mk; first  | assumption | apply State.dropHalf_keeps))

theorem execLcyProvision_goes {present : Bool} {s : State} (h : s.Keeps p b) : GoesKeeping p b (execLcyProvision present s) := by
  unfold execLcyProvision
  repeat' (with_reducible first | assumption | apply State.lcyWrite_keeps | apply State.setPresence_keeps | apply goes_next)

theorem execSecReadout_goes {s : State} (h : s.Keeps p b) : GoesKeeping p b (execSecReadout s) := by
  unfold execSecReadout
  repeat' (with_reducible first | assumption | apply State.secWrite_keeps | apply goes_next)

theorem execSecIdentity_goes {s : State} (h : s.Keeps p b) : GoesKeeping p b (execSecIdentity s) := by
  unfold execSecIdentity
  repeat' (with_reducible first | assumption | apply State.secWrite_keeps | apply goes_next)

theorem execSecOpen_goes {s : State} (h : s.Keeps p b) : GoesKeeping p b (execSecOpen s) := by
  unfold execSecOpen
  repeat' (with_reducible first | assumption | apply State.secWrite_keeps | apply goes_next)

theorem execSealOpen_goes {s : State} (h : s.Keeps p b) : GoesKeeping p b (execSealOpen s) := by
  unfold execSealOpen
  repeat' (with_reducible first | assumption | apply State.sealOpens_keeps | apply goes_next)

theorem execSecFinish_goes {s : State} (h : s.Keeps p b) : GoesKeeping p b (execSecFinish s) := by
  unfold execSecFinish
  repeat' (with_reducible first | assumption | apply State.secWrite_keeps | apply goes_next)

theorem execAbortComplete_goes {s : State} (h : s.Keeps p b) : GoesKeeping p b (execAbortComplete s) := by
  unfold execAbortComplete
  repeat' (with_reducible first
    | assumption | apply State.postEvent_keeps | apply State.setJobState_keeps | apply State.advanceClose_keeps
    | apply State.hifDone_keeps | apply goes_next | apply keeps_ite | split
    | (apply keeps_mk; first  | assumption | apply State.postEvent_keeps | apply State.setJobState_keeps | apply State.advanceClose_keeps | apply State.hifDone_keeps))

theorem execLcyDeploy_goes {present : Bool} {s : State} (h : s.Keeps p b) : GoesKeeping p b (execLcyDeploy present s) := by
  unfold execLcyDeploy
  repeat' (with_reducible first | assumption | apply State.lcyWrite_keeps | apply State.setPresence_keeps | apply goes_next)

theorem State.showXfer_keeps {s : State} {busy : Bool} {err : Nat} {moved : Nat} (h : s.Keeps p b) :
    (State.showXfer s busy err moved).Keeps p b := by
  unfold State.showXfer
  repeat' (with_reducible first | assumption | apply State.wr_keeps)

theorem State.xferEnd_keeps {s : State} {x : Xfer} {err : Nat} (h : s.Keeps p b) : (State.xferEnd s x err).Keeps p b := by
  unfold State.xferEnd
  repeat' (with_reducible first
    | assumption | apply State.dropHbm_keeps | apply State.showXfer_keeps | apply State.wr_keeps | apply State.msix_keeps
    | apply keeps_ite | split
    | (apply keeps_mk; first  | assumption | apply State.dropHbm_keeps | apply State.showXfer_keeps | apply State.wr_keeps | apply State.msix_keeps))

theorem State.xferTake_keeps {s : State} (h : s.Keeps p b) : (State.xferTake s).Keeps p b := by
  unfold State.xferTake
  repeat' (with_reducible first
    | assumption | apply State.xferEnd_keeps | apply State.useHbm_keeps | apply keeps_ite | split
    | (apply keeps_mk; first  | assumption | apply State.xferEnd_keeps | apply State.useHbm_keeps))

theorem State.xferWrite_keeps {s : State} {form : Nat} {buffer : Bool} (h : s.Keeps p b) : (State.xferWrite s form buffer).Keeps p b := by
  unfold State.xferWrite
  repeat' (with_reducible first
    | assumption | apply State.xferTake_keeps | apply State.showXfer_keeps | apply keeps_ite | split
    | (apply keeps_mk; first  | assumption | apply State.xferTake_keeps | apply State.showXfer_keeps))

theorem State.hostXfer_keeps {s : State} {form : Nat} {host : Nat} {loc : Nat} {len : Nat} {buffer : Bool} (h : s.Keeps p b) :
    (State.hostXfer s form host loc len buffer).Keeps p b := by
  unfold State.hostXfer
  repeat' (with_reducible first | assumption | apply State.wr_keeps | apply State.refuse_keeps | apply State.xferWrite_keeps | apply keeps_ite | split)

theorem execSealedOut_goes {host : Word} {loc : Word} {len : Word} {buffer : Bool} {s : State} (h : s.Keeps p b) :
    GoesKeeping p b (execSealedOut host loc len buffer s) := by
  unfold execSealedOut
  repeat' (with_reducible first | assumption | apply State.hostXfer_keeps | apply goes_next)

theorem execSealedIn_goes {host : Word} {loc : Word} {len : Word} {buffer : Bool} {s : State} (h : s.Keeps p b) :
    GoesKeeping p b (execSealedIn host loc len buffer s) := by
  unfold execSealedIn
  repeat' (with_reducible first | assumption | apply State.hostXfer_keeps | apply goes_next)

theorem execClearIn_goes {host : Word} {loc : Word} {len : Word} {buffer : Bool} {s : State} (h : s.Keeps p b) :
    GoesKeeping p b (execClearIn host loc len buffer s) := by
  unfold execClearIn
  repeat' (with_reducible first | assumption | apply State.hostXfer_keeps | apply goes_next)

theorem State.xferPut_keeps {s : State} {x : Xfer} {bs : List Byte} (h : s.Keeps p b) : (State.xferPut s x bs).Keeps p b := by
  unfold State.xferPut
  repeat' (with_reducible first | assumption | apply State.putMsg_keeps | apply State.ckptWatch_keeps | apply State.store_keeps | apply keeps_ite | split)

theorem State.xferMoved_keeps {s : State} {x : Xfer} {n : Nat} (h : s.Keeps p b) : (State.xferMoved s x n).Keeps p b := by
  unfold State.xferMoved
  repeat' (with_reducible first
    | assumption | apply State.xferEnd_keeps | apply State.showXfer_keeps | apply keeps_ite | split
    | (apply keeps_mk; first  | assumption | apply State.xferEnd_keeps | apply State.showXfer_keeps))

theorem State.xferGet_keeps {s : State} {x : Xfer} {n : Nat} (h : s.Keeps p b) : (((State.xferGet s x n)).2).Keeps p b := by
  unfold State.xferGet
  repeat' (with_reducible first | assumption | apply State.fetch_keeps | apply keeps_ite | split)

theorem State.xferChunk_keeps {s : State} {x : Xfer} {data : List Byte} (h : s.Keeps p b) : (State.xferChunk s x data).Keeps p b := by
  unfold State.xferChunk
  repeat' (with_reducible first
    | assumption | apply State.xferEnd_keeps | apply State.emit_keeps | apply State.xferMoved_keeps
    | apply State.xferPut_keeps | apply State.xferGet_keeps | apply keeps_ite | split)

theorem execHostXferChunk_goes {data : List Byte} {s : State} (h : s.Keeps p b) : GoesKeeping p b (execHostXferChunk data s) := by
  unfold execHostXferChunk
  repeat' (with_reducible first | assumption | apply State.xferChunk_keeps | apply goes_next | apply keeps_ite | split)

theorem execClearOut_goes {host : Word} {loc : Word} {len : Word} {buffer : Bool} {s : State} (h : s.Keeps p b) :
    GoesKeeping p b (execClearOut host loc len buffer s) := by
  unfold execClearOut
  repeat' (with_reducible first | assumption | apply State.hostXfer_keeps | apply goes_next)

theorem execHbmTrainDone_goes {failed : List (Fin 512)} {ms : BitVec 16} {s : State} (h : s.Keeps p b) :
    GoesKeeping p b (execHbmTrainDone failed ms s) := by
  unfold execHbmTrainDone
  repeat' (with_reducible first
    | assumption | apply State.wr_keeps | apply State.setFlag_keeps | apply State.setFld_keeps | apply keeps_foldl
    | apply keeps_ite | apply keeps_ite_fst | apply keeps_ite_snd | apply keeps_ite_mid | apply goes_next | apply goes_ite
    | (apply keeps_mk; first  | assumption | apply State.wr_keeps | apply State.setFlag_keeps | apply State.setFld_keeps | apply keeps_ite | (split <;> first | done | (rename_i heq; obtain ⟨rfl, rfl⟩ := pair_eq heq) | (rename_i heq; obtain ⟨rfl, rfl, rfl⟩ := triple_eq heq) | skip))
    | dsimp only | intro _ _ _
    | (split <;> first | done | (rename_i heq; obtain ⟨rfl, rfl⟩ := pair_eq heq) | (rename_i heq; obtain ⟨rfl, rfl, rfl⟩ := triple_eq heq) | skip))

theorem execAgeLogReadDone_goes {s : State} (h : s.Keeps p b) : GoesKeeping p b (execAgeLogReadDone s) := by
  unfold execAgeLogReadDone
  repeat' (with_reducible first
    | assumption | apply State.setFld_keeps | apply goes_next | apply keeps_ite | split
    | (apply keeps_mk; first  | assumption | apply State.setFld_keeps))

theorem State.applyMemory_keeps {s : State} {x1 : List Byte} (h : s.Keeps p b) : (State.applyMemory s x1).Keeps p b := by
  unfold State.applyMemory
  repeat' (with_reducible first
    | assumption | apply State.wrAll_keeps | apply keeps_ite | split
    | (apply keeps_mk; first  | assumption | apply State.wrAll_keeps))

theorem State.applySecurity_keeps {s : State} {x1 : List Byte} (h : s.Keeps p b) : (State.applySecurity s x1).Keeps p b := by
  unfold State.applySecurity
  repeat' (with_reducible first | assumption | apply keeps_ite | split | (apply keeps_mk; first  | assumption))

theorem State.applyRails_keeps {s : State} {x1 : List Byte} (h : s.Keeps p b) : (State.applyRails s x1).Keeps p b := by
  unfold State.applyRails
  repeat' (with_reducible first | assumption | apply keeps_ite | split | (apply keeps_mk; first  | assumption))

theorem State.applyIdentity_keeps {s : State} {x1 : List Byte} (h : s.Keeps p b) : (State.applyIdentity s x1).Keeps p b := by
  unfold State.applyIdentity
  repeat' (with_reducible first | assumption | apply State.wr_keeps)

theorem State.applyBridge_keeps {s : State} {x1 : List Byte} (h : s.Keeps p b) : (State.applyBridge s x1).Keeps p b := by
  unfold State.applyBridge
  repeat' (with_reducible first
    | assumption | apply State.setFlag_keeps | apply keeps_ite | split
    | (apply keeps_mk; first  | assumption | apply State.setFlag_keeps))

theorem State.applyEnvelope_keeps {s : State} {x1 : List Byte} (h : s.Keeps p b) : (State.applyEnvelope s x1).Keeps p b := by
  unfold State.applyEnvelope
  repeat' (with_reducible first
    | assumption | apply State.wr_keeps | apply keeps_foldl | apply keeps_ite | apply keeps_ite_fst | apply keeps_ite_snd
    | apply keeps_ite_mid
    | (apply keeps_mk; first  | assumption | apply State.wr_keeps | apply keeps_ite | (split <;> first | done | (rename_i heq; obtain ⟨rfl, rfl⟩ := pair_eq heq) | (rename_i heq; obtain ⟨rfl, rfl, rfl⟩ := triple_eq heq) | skip))
    | dsimp only | intro _ _ _
    | (split <;> first | done | (rename_i heq; obtain ⟨rfl, rfl⟩ := pair_eq heq) | (rename_i heq; obtain ⟨rfl, rfl, rfl⟩ := triple_eq heq) | skip))

theorem State.applyGateways_keeps {s : State} {x1 : List Byte} (h : s.Keeps p b) : (State.applyGateways s x1).Keeps p b := by
  unfold State.applyGateways
  repeat' (with_reducible first
    | assumption | apply keeps_foldl | apply keeps_ite | apply keeps_ite_fst | apply keeps_ite_snd | apply keeps_ite_mid
    | (apply keeps_mk; first  | assumption | apply keeps_ite | (split <;> first | done | (rename_i heq; obtain ⟨rfl, rfl⟩ := pair_eq heq) | (rename_i heq; obtain ⟨rfl, rfl, rfl⟩ := triple_eq heq) | skip))
    | dsimp only | intro _ _ _
    | (split <;> first | done | (rename_i heq; obtain ⟨rfl, rfl⟩ := pair_eq heq) | (rename_i heq; obtain ⟨rfl, rfl, rfl⟩ := triple_eq heq) | skip))

theorem State.applyRecord_keeps {s : State} {rs : List SetRec} {t : Nat} (h : s.Keeps p b) : (State.applyRecord s rs t).Keeps p b := by
  unfold State.applyRecord
  repeat' (with_reducible first
    | assumption | apply State.applyIdentity_keeps | apply State.applyBridge_keeps | apply State.applyEnvelope_keeps
    | apply State.applyRails_keeps | apply State.wr_keeps | apply State.applyMemory_keeps | apply State.applySecurity_keeps
    | apply State.applyGateways_keeps | apply keeps_ite | split
    | (apply keeps_mk; first  | assumption | apply State.applyIdentity_keeps | apply State.applyBridge_keeps | apply State.applyEnvelope_keeps | apply State.applyRails_keeps | apply State.wr_keeps | apply State.applyMemory_keeps | apply State.applySecurity_keeps | apply State.applyGateways_keeps))

theorem execSettingsReadDone_goes {present : Bool} {s : State} (h : s.Keeps p b) : GoesKeeping p b (execSettingsReadDone present s) := by
  unfold execSettingsReadDone
  repeat' (with_reducible first
    | assumption | apply State.wr_keeps | apply State.applyRecord_keeps | apply State.setFld_keeps
    | apply State.freezeLog_keeps | apply State.syncGrants_keeps | apply State.lightBoot_keeps | apply keeps_foldl
    | apply keeps_ite | apply keeps_ite_fst | apply keeps_ite_snd | apply keeps_ite_mid | apply goes_next | apply goes_ite
    | (apply keeps_mk; first  | assumption | apply State.wr_keeps | apply State.applyRecord_keeps | apply State.setFld_keeps | apply State.freezeLog_keeps | apply State.syncGrants_keeps | apply State.lightBoot_keeps | apply keeps_ite | (split <;> first | done | (rename_i heq; obtain ⟨rfl, rfl⟩ := pair_eq heq) | (rename_i heq; obtain ⟨rfl, rfl, rfl⟩ := triple_eq heq) | skip))
    | dsimp only | intro _ _ _
    | (split <;> first | done | (rename_i heq; obtain ⟨rfl, rfl⟩ := pair_eq heq) | (rename_i heq; obtain ⟨rfl, rfl, rfl⟩ := triple_eq heq) | skip))

end Sys2Proof.Machine
end

