-- ==== Sys2Proof/Laws/KeepTraffic.lean ====
section
/-!
SUPPORT. One lemma for each operation of collectives, rings, responses, firmware, register accesses, arriving requests and frames, management and the test port: it keeps the queue of
waiting commands and the canonical form of local memory, and each command answers a next state.
-/

namespace Sys2Proof.Machine

variable {p : List Instr} {b : Bool}

theorem State.putColl_keeps {s : State} {c : Coll} (h : s.Keeps p b) : (State.putColl s c).Keeps p b := by
  unfold State.putColl
  repeat' (with_reducible first | assumption | apply keeps_ite | split | (apply keeps_mk; first  | assumption))

theorem State.slotFold_keeps {s : State} {c : Coll} {m : CollMsg} (h : s.Keeps p b) : (State.slotFold s c m).Keeps p b := by
  unfold State.slotFold
  repeat' (with_reducible first | assumption | apply State.bump64_keeps | apply State.putColl_keeps | apply keeps_ite | split)

theorem State.takeResult_keeps {s : State} {m : CollMsg} (h : s.Keeps p b) : (State.takeResult s m).Keeps p b := by
  unfold State.takeResult
  repeat' (with_reducible first
    | assumption | apply State.store_keeps | apply State.bump_keeps | apply keeps_ite | split
    | (apply keeps_mk; first  | assumption | apply State.store_keeps | apply State.bump_keeps))

theorem State.sendColl_keeps {s : State} {m : CollMsg} {members : List Nat} (h : s.Keeps p b) : (State.sendColl s m members).Keeps p b := by
  unfold State.sendColl
  repeat' (with_reducible first
    | assumption | apply State.issueMcast_keeps | apply State.bump_keeps | split | dsimp only | intro _ _ _
    | apply keeps_foldl)

theorem State.collRelease_keeps {s : State} {cn : Nat} (h : s.Keeps p b) : (State.collRelease s cn).Keeps p b := by
  unfold State.collRelease
  repeat' (with_reducible first
    | assumption | apply State.putColl_keeps | apply keeps_ite | split
    | (apply keeps_mk; first  | assumption | apply State.putColl_keeps))

theorem State.sendResult_keeps {s : State} {c : Coll} (h : s.Keeps p b) : (State.sendResult s c).Keeps p b := by
  unfold State.sendResult
  repeat' (with_reducible first
    | assumption | apply State.fetch_keeps | apply State.putColl_keeps | apply State.takeResult_keeps
    | apply State.sendColl_keeps | apply State.collRelease_keeps | split | dsimp only | intro _ _ _ | apply keeps_foldl)

theorem State.sendIfFolded_keeps {s : State} {cn : Nat} (h : s.Keeps p b) : (State.sendIfFolded s cn).Keeps p b := by
  unfold State.sendIfFolded
  repeat' (with_reducible first | assumption | apply State.sendResult_keeps | apply keeps_ite | split)

theorem State.takeFailed_keeps {s : State} {m : CollMsg} (h : s.Keeps p b) : (State.takeFailed s m).Keeps p b := by
  unfold State.takeFailed
  repeat' (with_reducible first
    | assumption | apply State.bump_keeps | apply keeps_ite | split
    | (apply keeps_mk; first  | assumption | apply State.bump_keeps))

theorem State.collFail_keeps {s : State} {c : Coll} {err : Nat} (h : s.Keeps p b) : (State.collFail s c err).Keeps p b := by
  unfold State.collFail
  repeat' (with_reducible first
    | assumption | apply State.putColl_keeps | apply State.collRelease_keeps | apply State.takeFailed_keeps
    | apply State.sendColl_keeps | apply State.bump_keeps | apply keeps_ite | split
    | (apply keeps_mk; first  | assumption | apply State.putColl_keeps | apply State.collRelease_keeps | apply State.takeFailed_keeps | apply State.sendColl_keeps | apply State.bump_keeps))

theorem State.checkParked_keeps {s : State} {cn : Nat} (h : s.Keeps p b) : (State.checkParked s cn).Keeps p b := by
  unfold State.checkParked
  repeat' (with_reducible first
    | assumption | apply State.putColl_keeps | apply State.collFail_keeps | split | dsimp only | intro _ _ _
    | apply keeps_foldl)

theorem State.slotDrain_keeps {s : State} {cn : Nat} {x2 : Nat} (h : s.Keeps p b) : (State.slotDrain s cn x2).Keeps p b := by
  induction x2 generalizing s with
  | zero => exact h
  | succ n ih =>
  unfold State.slotDrain
  try dsimp only
  repeat' (with_reducible first
    | assumption | apply ih | apply State.slotFold_keeps | apply State.collFail_keeps | apply keeps_foldl | apply keeps_foldl_fst | apply keeps_foldl_snd | apply keeps_ite | apply goes_ite | apply keeps_ite_fst | apply keeps_ite_snd | apply keeps_ite_mid | apply goes_next
    | (apply keeps_mk; first | assumption | apply ih | apply State.slotFold_keeps | apply State.collFail_keeps | apply keeps_foldl | apply keeps_foldl_fst | apply keeps_foldl_snd | apply keeps_ite | apply goes_ite | apply keeps_ite_fst | apply keeps_ite_snd | apply keeps_ite_mid | (split <;> first | done | (rename_i heq; obtain ⟨rfl, rfl⟩ := pair_eq heq) | (rename_i heq; obtain ⟨rfl, rfl, rfl⟩ := triple_eq heq) | skip))
    | intro _ _ _ | dsimp only |  (split <;> first | done | (rename_i heq; obtain ⟨rfl, rfl⟩ := pair_eq heq) | (rename_i heq; obtain ⟨rfl, rfl, rfl⟩ := triple_eq heq) | skip))

theorem State.noteFallback_keeps {s : State} {cn : Nat} {cause : Nat} (h : s.Keeps p b) : (State.noteFallback s cn cause).Keeps p b := by
  unfold State.noteFallback
  repeat' (with_reducible first
    | assumption | apply State.bump_keeps | apply State.raise_keeps | apply keeps_ite | split
    | (apply keeps_mk; first  | assumption | apply State.bump_keeps | apply State.raise_keeps))

theorem State.startBatch_keeps {s : State} {c : Coll} {res : Nat} {stg : Nat} (h : s.Keeps p b) :
    (State.startBatch s c res stg).Keeps p b := by
  unfold State.startBatch
  try dsimp only
  repeat' (with_reducible first
    | assumption | apply State.fetch_keeps | apply State.putColl_keeps | apply State.store_keeps | apply State.bump64_keeps | apply State.blockAdd_keeps | apply State.closeStart_keeps | apply keeps_foldl | apply keeps_foldl_fst | apply keeps_foldl_snd | apply keeps_ite | apply goes_ite | apply keeps_ite_fst | apply keeps_ite_snd | apply keeps_ite_mid | apply goes_next
    | (apply keeps_mk; first | assumption | apply State.fetch_keeps | apply State.putColl_keeps | apply State.store_keeps | apply State.bump64_keeps | apply State.blockAdd_keeps | apply State.closeStart_keeps | apply keeps_foldl | apply keeps_foldl_fst | apply keeps_foldl_snd | apply keeps_ite | apply goes_ite | apply keeps_ite_fst | apply keeps_ite_snd | apply keeps_ite_mid | (split <;> first | done | (rename_i heq; obtain ⟨rfl, rfl⟩ := pair_eq heq) | (rename_i heq; obtain ⟨rfl, rfl, rfl⟩ := triple_eq heq) | skip))
    | intro _ _ _ | intro _ _ | dsimp only | (split <;> first | done | (rename_i heq; obtain ⟨rfl, rfl⟩ := pair_eq heq) | (rename_i heq; obtain ⟨rfl, rfl, rfl⟩ := triple_eq heq) | skip))

theorem State.hredKick_keeps {s : State} {x1 : Nat} (h : s.Keeps p b) : (State.hredKick s x1).Keeps p b := by
  induction x1 generalizing s with
  | zero => exact h
  | succ n ih =>
  unfold State.hredKick
  try dsimp only
  repeat' (with_reducible first
    | assumption | apply ih | apply State.sendResult_keeps | apply State.putColl_keeps | apply State.startBatch_keeps | apply keeps_foldl | apply keeps_foldl_fst | apply keeps_foldl_snd | apply keeps_ite | apply goes_ite | apply keeps_ite_fst | apply keeps_ite_snd | apply keeps_ite_mid | apply goes_next
    | (apply keeps_mk; first | assumption | apply ih | apply State.sendResult_keeps | apply State.putColl_keeps | apply State.startBatch_keeps | apply keeps_foldl | apply keeps_foldl_fst | apply keeps_foldl_snd | apply keeps_ite | apply goes_ite | apply keeps_ite_fst | apply keeps_ite_snd | apply keeps_ite_mid | (split <;> first | done | (rename_i heq; obtain ⟨rfl, rfl⟩ := pair_eq heq) | (rename_i heq; obtain ⟨rfl, rfl, rfl⟩ := triple_eq heq) | skip))
    | intro _ _ _ | dsimp only |  (split <;> first | done | (rename_i heq; obtain ⟨rfl, rfl⟩ := pair_eq heq) | (rename_i heq; obtain ⟨rfl, rfl, rfl⟩ := triple_eq heq) | skip))

theorem State.stage_keeps {s : State} {c : Coll} {stg : Nat} {m : CollMsg} (h : s.Keeps p b) : (State.stage s c stg m).Keeps p b := by
  unfold State.stage
  repeat' (with_reducible first | assumption | apply State.store_keeps | apply State.putColl_keeps | apply keeps_ite | split)

theorem State.countWaits_keeps {s : State} (h : s.Keeps p b) : (State.countWaits s).Keeps p b := by
  unfold State.countWaits
  repeat' (with_reducible first | assumption | apply State.bump_keeps | apply State.putColl_keeps | split | dsimp only | intro _ _ _ | apply keeps_foldl)

theorem State.takeAreas_keeps {s : State} {x1 : Nat} (h : s.Keeps p b) : (State.takeAreas s x1).Keeps p b := by
  induction x1 generalizing s with
  | zero => exact State.countWaits_keeps h
  | succ n ih =>
  unfold State.takeAreas
  try dsimp only
  repeat' (with_reducible first
    | assumption | apply ih | apply State.countWaits_keeps | apply State.putColl_keeps | apply State.store_keeps | apply keeps_foldl | apply keeps_foldl_fst | apply keeps_foldl_snd | apply keeps_ite | apply goes_ite | apply keeps_ite_fst | apply keeps_ite_snd | apply keeps_ite_mid | apply goes_next
    | (apply keeps_mk; first | assumption | apply ih | apply State.countWaits_keeps | apply State.putColl_keeps | apply State.store_keeps | apply keeps_foldl | apply keeps_foldl_fst | apply keeps_foldl_snd | apply keeps_ite | apply goes_ite | apply keeps_ite_fst | apply keeps_ite_snd | apply keeps_ite_mid | (split <;> first | done | (rename_i heq; obtain ⟨rfl, rfl⟩ := pair_eq heq) | (rename_i heq; obtain ⟨rfl, rfl, rfl⟩ := triple_eq heq) | skip))
    | intro _ _ _ | dsimp only |  (split <;> first | done | (rename_i heq; obtain ⟨rfl, rfl⟩ := pair_eq heq) | (rename_i heq; obtain ⟨rfl, rfl, rfl⟩ := triple_eq heq) | skip))

theorem State.toHome_keeps {s : State} {c : Coll} (h : s.Keeps p b) : (State.toHome s c).Keeps p b := by
  unfold State.toHome
  repeat' (with_reducible first
    | assumption | apply State.collFail_keeps | apply State.takeAreas_keeps | apply State.putColl_keeps | apply keeps_ite
    | split)

theorem State.takeContrib_keeps {s : State} {m : CollMsg} (h : s.Keeps p b) : (((State.takeContrib s m)).1).Keeps p b := by
  unfold State.takeContrib
  repeat' (with_reducible first
    | assumption | apply State.noteFallback_keeps | apply State.collFail_keeps | apply State.hredKick_keeps
    | apply State.stage_keeps | apply State.sendIfFolded_keeps | apply State.slotDrain_keeps | apply State.slotFold_keeps
    | apply State.putColl_keeps | apply State.toHome_keeps | apply keeps_foldl | apply keeps_ite | apply keeps_ite_fst
    | apply keeps_ite_snd | apply keeps_ite_mid
    | (apply keeps_mk; first  | assumption | apply State.noteFallback_keeps | apply State.collFail_keeps | apply State.hredKick_keeps | apply State.stage_keeps | apply State.sendIfFolded_keeps | apply State.slotDrain_keeps | apply State.slotFold_keeps | apply State.putColl_keeps | apply State.toHome_keeps | apply keeps_ite | (split <;> first | done | (rename_i heq; obtain ⟨rfl, rfl⟩ := pair_eq heq) | (rename_i heq; obtain ⟨rfl, rfl, rfl⟩ := triple_eq heq) | skip))
    | dsimp only | intro _ _ _
    | (split <;> first | done | (rename_i heq; obtain ⟨rfl, rfl⟩ := pair_eq heq) | (rename_i heq; obtain ⟨rfl, rfl, rfl⟩ := triple_eq heq) | skip))

theorem State.takeParked_keeps {s : State} {cn : Nat} (h : s.Keeps p b) : (State.takeParked s cn).Keeps p b := by
  unfold State.takeParked
  repeat' (with_reducible first
    | assumption | apply State.sendIfFolded_keeps | apply State.checkParked_keeps | apply State.slotDrain_keeps
    | apply State.takeContrib_keeps | apply keeps_foldl | apply keeps_ite | apply keeps_ite_fst | apply keeps_ite_snd
    | apply keeps_ite_mid
    | (apply keeps_mk; first  | assumption | apply State.sendIfFolded_keeps | apply State.checkParked_keeps | apply State.slotDrain_keeps | apply State.takeContrib_keeps | apply keeps_ite | (split <;> first | done | (rename_i heq; obtain ⟨rfl, rfl⟩ := pair_eq heq) | (rename_i heq; obtain ⟨rfl, rfl, rfl⟩ := triple_eq heq) | skip))
    | dsimp only | intro _ _ _
    | (split <;> first | done | (rename_i heq; obtain ⟨rfl, rfl⟩ := pair_eq heq) | (rename_i heq; obtain ⟨rfl, rfl, rfl⟩ := triple_eq heq) | skip))

theorem State.takeHeld_keeps {s : State} (h : s.Keeps p b) : (State.takeHeld s).Keeps p b := by
  unfold State.takeHeld
  refine keeps_foldl (keeps_foldl h fun _ _ ht => State.takeParked_keeps ht) fun t x ht => ?_
  dsimp only
  split
  · split
    · next m _ =>
      have h1 : (t.takeContrib m).1.Keeps p b := State.takeContrib_keeps ht
      generalize t.takeContrib m = y at h1 ⊢
      obtain ⟨u, ok⟩ := y
      dsimp only at h1 ⊢
      split
      · exact keeps_ite h1 ht
      · split
        · next hs => exact keeps_mk (State.served_keeps ht hs)
        · exact keeps_ite (State.finish_keeps (State.bump64_keeps h1)) ht
    · exact ht
  · exact ht

theorem State.raiseStall_keeps {s : State} {cn : Nat} (h : s.Keeps p b) : (State.raiseStall s cn).Keeps p b := by
  unfold State.raiseStall
  repeat' (with_reducible first
    | assumption | apply State.bump_keeps | apply State.raise_keeps | apply State.wr_keeps | apply keeps_ite | split
    | (apply keeps_mk; first  | assumption | apply State.bump_keeps | apply State.raise_keeps | apply State.wr_keeps))

theorem State.takeNotice_keeps {s : State} {m : CollMsg} (h : s.Keeps p b) : (State.takeNotice s m).Keeps p b := by
  unfold State.takeNotice
  repeat' (with_reducible first | assumption | apply State.raiseStall_keeps | apply keeps_ite | split)

theorem execCollWatchdog_goes {cn : Word} {s : State} (h : s.Keeps p b) : GoesKeeping p b (execCollWatchdog cn s) := by
  unfold execCollWatchdog
  repeat' (with_reducible first
    | assumption | apply State.sendColl_keeps | apply State.putColl_keeps | apply State.takeNotice_keeps
    | apply State.raiseStall_keeps | apply goes_next | apply keeps_ite
    | (apply keeps_mk; first  | assumption | apply State.sendColl_keeps | apply State.putColl_keeps | apply State.takeNotice_keeps | apply State.raiseStall_keeps | split)
    | split | dsimp only | intro _ _ _ | intro _ _)

theorem State.hraApply_keeps {s : State} (h : s.Keeps p b) : (State.hraApply s).Keeps p b := by
  unfold State.hraApply
  repeat' (with_reducible first | assumption | apply State.oregClear_keeps | apply State.oregPut_keeps | apply keeps_ite | split)

theorem State.homeGo_keeps {s : State} (h : s.Keeps p b) : (State.homeGo s).Keeps p b := by
  unfold State.homeGo
  repeat' (with_reducible first | assumption | apply State.hredKick_keeps | apply State.takeHeld_keeps | apply State.takeAreas_keeps)

theorem execHredCloseReply_goes {s : State} (h : s.Keeps p b) : GoesKeeping p b (execHredCloseReply s) := by
  unfold execHredCloseReply
  repeat' (with_reducible first
    | assumption | apply State.putColl_keeps | apply State.collRelease_keeps | apply State.sendResult_keeps
    | apply State.homeGo_keeps | apply State.hredKick_keeps | apply goes_next | apply keeps_ite
    | (apply keeps_mk; first  | assumption | apply State.putColl_keeps | apply State.collRelease_keeps | apply State.sendResult_keeps | apply State.homeGo_keeps | apply State.hredKick_keeps | split)
    | split | dsimp only | intro _ _ _ | intro _ _)

theorem State.admitColl_keeps {s : State} {cn : Nat} {kind : Nat} {etype : Nat} {len : Nat} {result : Nat} {loc : Nat} {ncontrib : Nat} {members : List Nat} (h : s.Keeps p b) :
    (State.admitColl s cn kind etype len result loc ncontrib members).Keeps p b := by
  unfold State.admitColl
  repeat' (with_reducible first
    | assumption | apply State.toHome_keeps | apply State.noteFallback_keeps | apply keeps_ite | split
    | (apply keeps_mk; first  | assumption | apply State.toHome_keeps | apply State.noteFallback_keeps))

theorem State.failDesc_keeps {s : State} {ring : Nat} {index : Nat} {code : Nat} (h : s.Keeps p b) :
    (State.failDesc s ring index code).Keeps p b := by
  unfold State.failDesc
  repeat' (with_reducible first | assumption | apply keeps_ite | split | (apply keeps_mk; first  | assumption))

theorem State.getPiece_keeps {s : State} {r : Nat} {i : Nat} {node : Nat} {loc : Nat} {remote : Nat} {x6 : Nat × Nat} (h : s.Keeps p b) :
    (State.getPiece s r i node loc remote x6).Keeps p b := by
  unfold State.getPiece
  repeat' (with_reducible first
    | assumption | apply State.fetch_keeps | apply State.store_keeps | apply State.failDesc_keeps | apply State.issue_keeps
    | apply keeps_ite | split)

theorem State.putPiece_keeps {s : State} {r : Nat} {i : Nat} {node : Nat} {loc : Nat} {remote : Nat} {x6 : Nat × Nat} (h : s.Keeps p b) :
    (State.putPiece s r i node loc remote x6).Keeps p b := by
  unfold State.putPiece
  repeat' (with_reducible first
    | assumption | apply State.fetch_keeps | apply State.store_keeps | apply State.failDesc_keeps | apply State.issue_keeps
    | apply keeps_ite | split)

theorem State.mcastPiece_keeps {s : State} {r : Nat} {i : Nat} {ids : List Nat} {loc : Nat} {remote : Nat} {x6 : Nat × Nat} (h : s.Keeps p b) :
    (State.mcastPiece s r i ids loc remote x6).Keeps p b := by
  unfold State.mcastPiece
  repeat' (with_reducible first
    | assumption | apply State.fetch_keeps | apply State.bump64_keeps | apply State.store_keeps | apply State.failDesc_keeps
    | apply State.issueMcast_keeps | apply keeps_ite | split)

theorem State.reducePiece_keeps {s : State} {r : Nat} {i : Nat} {node : Nat} {et : Nat} {key : Option Nat} {loc : Nat} {remote : Nat} {x8 : Nat × Nat} (h : s.Keeps p b) :
    (State.reducePiece s r i node et key loc remote x8).Keeps p b := by
  unfold State.reducePiece
  repeat' (with_reducible first
    | assumption | apply State.fetch_keeps | apply State.blockAdd_keeps | apply State.failDesc_keeps | apply State.issue_keeps
    | apply keeps_ite
    | (apply keeps_mk; first  | assumption | apply State.fetch_keeps | apply State.blockAdd_keeps | apply State.failDesc_keeps | apply State.issue_keeps | split)
    | split | dsimp only | intro _ _ _ | intro _ _)

theorem contribData_keeps {s : State} {kind : Nat} {a : Nat} {n : Nat} (h : s.Keeps p b) : (((contribData s kind a n)).2).Keeps p b := by
  unfold contribData
  repeat' (with_reducible first | assumption | apply State.fetch_keeps | apply keeps_ite | split)

theorem State.contribute_keeps {s : State} {r : Nat} {i : Nat} {home : Nat} {m : CollMsg} (h : s.Keeps p b) :
    (State.contribute s r i home m).Keeps p b := by
  unfold State.contribute
  repeat' (with_reducible first
    | assumption | apply State.takeContrib_keeps | apply State.holdReq_keeps | apply State.failDesc_keeps
    | apply State.issue_keeps | apply keeps_ite | split)

theorem State.issueItem_keeps {s : State} {d : RingDesc} {x : RingItem} (h : s.Keeps p b) : (State.issueItem s d x).Keeps p b := by
  unfold State.issueItem
  repeat' (with_reducible first
    | assumption | apply State.putPiece_keeps | apply State.getPiece_keeps | apply State.mcastPiece_keeps
    | apply State.reducePiece_keeps | apply contribData_keeps | apply State.contribute_keeps | apply keeps_ite | split)

theorem State.onDesc_keeps {s : State} {r : Nat} {i : Nat} {f : RingDesc → RingDesc} (h : s.Keeps p b) :
    (State.onDesc s r i f).Keeps p b := by
  unfold State.onDesc
  repeat' (with_reducible first | assumption | apply keeps_ite | split | (apply keeps_mk; first  | assumption))

theorem State.ringSleep_keeps {s : State} {r : Nat} (h : s.Keeps p b) : (State.ringSleep s r).Keeps p b := by
  unfold State.ringSleep
  repeat' (with_reducible first | assumption | apply keeps_ite | split | (apply keeps_mk; first  | assumption))

theorem State.slotOver_keeps {s : State} {r : Nat} {i : Nat} (h : s.Keeps p b) : (State.slotOver s r i).Keeps p b := by
  unfold State.slotOver
  repeat' (with_reducible first | assumption | apply State.store_keeps)

theorem State.writeDone_keeps {s : State} {a : Nat} {v : Nat} (h : s.Keeps p b) : (State.writeDone s a v).Keeps p b := by
  unfold State.writeDone
  repeat' (with_reducible first | assumption | apply State.store_keeps | apply keeps_ite | split)

theorem State.ringRefuse_keeps {s : State} {r : Nat} {i : Nat} {x3 : List Byte} (h : s.Keeps p b) :
    (State.ringRefuse s r i x3).Keeps p b := by
  unfold State.ringRefuse
  repeat' (with_reducible first | assumption | apply State.slotOver_keeps | apply State.bump_keeps | apply State.writeDone_keeps)

theorem State.ringSettle_keeps {s : State} {r : Nat} {x2 : Nat} (h : s.Keeps p b) : (State.ringSettle s r x2).Keeps p b := by
  induction x2 generalizing s with
  | zero => exact h
  | succ n ih =>
  unfold State.ringSettle
  try dsimp only
  repeat' (with_reducible first
    | assumption | apply ih | apply State.ringSleep_keeps | apply State.ringRefuse_keeps | apply keeps_foldl | apply keeps_foldl_fst | apply keeps_foldl_snd | apply keeps_ite | apply goes_ite | apply keeps_ite_fst | apply keeps_ite_snd | apply keeps_ite_mid | apply goes_next
    | (apply keeps_mk; first | assumption | apply ih | apply State.ringSleep_keeps | apply State.ringRefuse_keeps | apply keeps_foldl | apply keeps_foldl_fst | apply keeps_foldl_snd | apply keeps_ite | apply goes_ite | apply keeps_ite_fst | apply keeps_ite_snd | apply keeps_ite_mid | (split <;> first | done | (rename_i heq; obtain ⟨rfl, rfl⟩ := pair_eq heq) | (rename_i heq; obtain ⟨rfl, rfl, rfl⟩ := triple_eq heq) | skip))
    | intro _ _ _ | dsimp only |  (split <;> first | done | (rename_i heq; obtain ⟨rfl, rfl⟩ := pair_eq heq) | (rename_i heq; obtain ⟨rfl, rfl, rfl⟩ := triple_eq heq) | skip))

theorem State.slotDone_keeps {s : State} {d : RingDesc} (h : s.Keeps p b) : (State.slotDone s d).Keeps p b := by
  unfold State.slotDone
  repeat' (with_reducible first
    | assumption | apply State.onDesc_keeps | apply State.homeGo_keeps | apply State.takeParked_keeps
    | apply State.ringSettle_keeps | apply State.slotOver_keeps | apply keeps_ite | split)

theorem State.ringStep_keeps {s t : State} {r : Nat} (h : s.Keeps p b) (ht : s.ringStep r = some t) : t.Keeps p b := by
  unfold State.ringStep at ht
  split at ht
  · exact nomatch ht
  · split at ht
    · split at ht
      · exact nomatch ht
      · cases ht
        split
        · exact State.slotDone_keeps (State.issueItem_keeps (State.onDesc_keeps h))
        · exact State.issueItem_keeps (State.onDesc_keeps h)
    · cases ht; exact State.slotDone_keeps h
    · cases ht; exact State.slotDone_keeps h

theorem State.ringTurn_keeps {s t : State} (h : s.Keeps p b) (ht : s.ringTurn = some t) : t.Keeps p b := by
  unfold State.ringTurn at ht
  split at ht
  · exact nomatch ht
  · obtain ⟨r, _, hr⟩ := List.exists_of_findSome?_eq_some ht
    obtain ⟨u, hu, rfl⟩ := Option.map_eq_some_iff.mp hr
    exact keeps_mk (State.ringStep_keeps h hu)

theorem State.ringServe_keeps {s : State} {x1 : Nat} (h : s.Keeps p b) : (State.ringServe s x1).Keeps p b := by
  induction x1 generalizing s with
  | zero => exact h
  | succ n ih =>
    unfold State.ringServe
    split
    · next heq => exact ih (State.ringTurn_keeps h heq)
    · exact h

theorem State.ringGo_keeps {s : State} (h : s.Keeps p b) : (State.ringGo s).Keeps p b := by
  unfold State.ringGo
  repeat' (with_reducible first | assumption | apply State.ringServe_keeps)

theorem execRingDescDone_goes {ring : Fin 16} {index : Nat} {s : State} (h : s.Keeps p b) :
    GoesKeeping p b (execRingDescDone ring index s) := by
  unfold execRingDescDone
  repeat' (with_reducible first
    | assumption | apply State.ringGo_keeps | apply State.bump_keeps | apply State.writeDone_keeps | apply goes_next
    | apply keeps_ite | split
    | (apply keeps_mk; first  | assumption | apply State.ringGo_keeps | apply State.bump_keeps | apply State.writeDone_keeps))

theorem State.openDesc_keeps {s : State} {d : RingDesc} (h : s.Keeps p b) : (State.openDesc s d).Keeps p b := by
  unfold State.openDesc
  repeat' (with_reducible first | assumption | apply keeps_ite | split | (apply keeps_mk; first  | assumption))

theorem State.startDesc_keeps {s : State} {d : RingDesc} {items : List RingItem} (h : s.Keeps p b) :
    (State.startDesc s d items).Keeps p b := by
  unfold State.startDesc
  repeat' (with_reducible first | assumption | apply State.ringGo_keeps | apply State.openDesc_keeps)

theorem execTailAtomic_goes {ring : Fin 16} {s : State} (h : s.Keeps p b) : GoesKeeping p b (execTailAtomic ring s) := by
  unfold execTailAtomic
  repeat' (with_reducible first
    | assumption | apply State.ringSettle_keeps | apply State.noteRange_keeps | apply goes_next | apply keeps_ite | split
    | (apply keeps_mk; first  | assumption | apply State.ringSettle_keeps | apply State.noteRange_keeps))

theorem State.runTransfer_keeps {s : State} {r : Nat} {kind : Nat} (h : s.Keeps p b) : (State.runTransfer s r kind).Keeps p b := by
  unfold State.runTransfer
  repeat' (with_reducible first
    | assumption | apply State.noteRange_keeps | apply State.ringSettle_keeps | apply State.ringRefuse_keeps
    | apply State.startDesc_keeps | split | dsimp only | intro _ _ _ | apply keeps_foldl)

theorem execRingPut_goes {ring : Fin 16} {s : State} (h : s.Keeps p b) : GoesKeeping p b (execRingPut ring s) := by
  unfold execRingPut
  repeat' (with_reducible first | assumption | apply State.runTransfer_keeps | apply goes_next)

theorem State.runColl_keeps {s : State} {r : Nat} {kind : Nat} (h : s.Keeps p b) : (State.runColl s r kind).Keeps p b := by
  unfold State.runColl
  repeat' (with_reducible first
    | assumption | apply State.noteRange_keeps | apply State.ringSettle_keeps | apply State.ringRefuse_keeps
    | apply State.openDesc_keeps | apply State.admitColl_keeps | apply State.ringGo_keeps | apply keeps_ite
    | (apply keeps_mk; first  | assumption | apply State.noteRange_keeps | apply State.ringSettle_keeps | apply State.ringRefuse_keeps | apply State.openDesc_keeps | apply State.admitColl_keeps | apply State.ringGo_keeps | split)
    | split | dsimp only | intro _ _ _ | intro _ _)

theorem execRingBcast_goes {ring : Fin 16} {s : State} (h : s.Keeps p b) : GoesKeeping p b (execRingBcast ring s) := by
  unfold execRingBcast
  repeat' (with_reducible first | assumption | apply State.runColl_keeps | apply goes_next)

theorem execRingAllreduce_goes {ring : Fin 16} {s : State} (h : s.Keeps p b) : GoesKeeping p b (execRingAllreduce ring s) := by
  unfold execRingAllreduce
  repeat' (with_reducible first | assumption | apply State.runColl_keeps | apply goes_next)

theorem execRingReduce_goes {ring : Fin 16} {s : State} (h : s.Keeps p b) : GoesKeeping p b (execRingReduce ring s) := by
  unfold execRingReduce
  repeat' (with_reducible first | assumption | apply State.runTransfer_keeps | apply goes_next)

theorem execRingMcast_goes {ring : Fin 16} {s : State} (h : s.Keeps p b) : GoesKeeping p b (execRingMcast ring s) := by
  unfold execRingMcast
  repeat' (with_reducible first | assumption | apply State.runTransfer_keeps | apply goes_next)

theorem execRingBarrier_goes {ring : Fin 16} {s : State} (h : s.Keeps p b) : GoesKeeping p b (execRingBarrier ring s) := by
  unfold execRingBarrier
  repeat' (with_reducible first | assumption | apply State.runColl_keeps | apply goes_next)

theorem execRingCollReduce_goes {ring : Fin 16} {s : State} (h : s.Keeps p b) : GoesKeeping p b (execRingCollReduce ring s) := by
  unfold execRingCollReduce
  repeat' (with_reducible first | assumption | apply State.runColl_keeps | apply goes_next)

theorem execRingGet_goes {ring : Fin 16} {s : State} (h : s.Keeps p b) : GoesKeeping p b (execRingGet ring s) := by
  unfold execRingGet
  repeat' (with_reducible first | assumption | apply State.runTransfer_keeps | apply goes_next)

theorem State.fenceFaults_keeps {s : State} {target : Nat} (h : s.Keeps p b) : (State.fenceFaults s target).Keeps p b := by
  unfold State.fenceFaults
  repeat' (with_reducible first
    | assumption | apply State.takeFault_keeps | apply State.onThread_keeps | split | dsimp only | intro _ _ _
    | apply keeps_foldl)

theorem State.amoRequest_keeps {s : State} {typ : ReqType} {q : Req} (h : s.Keeps p b) : (State.amoRequest s typ q).Keeps p b := by
  unfold State.amoRequest
  repeat' (with_reducible first
    | assumption | apply State.amoLocal_keeps | apply State.finish_keeps | apply State.bump64_keeps
    | apply State.wakeRing_keeps | apply keeps_ite | split)

theorem State.closeDone_keeps {s : State} {x1 : FoldBy} (h : s.Keeps p b) : (State.closeDone s x1).Keeps p b := by
  unfold State.closeDone
  split
  · split
    · exact State.complete_keeps (State.onThread_keeps (State.amoLocal_keeps h))
    · exact h
  · exact keeps_foldl (State.amoRequest_keeps h) fun t _ ht => keeps_getD (fun _ hu => State.served_keeps ht hu) ht
  · exact h

theorem execOrderedFoldDone_goes {s : State} (h : s.Keeps p b) : GoesKeeping p b (execOrderedFoldDone s) := by
  unfold execOrderedFoldDone
  repeat' (with_reducible first
    | assumption | apply State.closeDone_keeps | apply State.foldApply_keeps | apply State.closeStart_keeps | apply goes_next
    | apply keeps_ite
    | (apply keeps_mk; first  | assumption | apply State.closeDone_keeps | apply State.foldApply_keeps | apply State.closeStart_keeps | split)
    | split | dsimp only | intro _ _ _ | intro _ _)

theorem State.goOn_keeps {s : State} (h : s.Keeps p b) : (State.goOn s).Keeps p b := by
  unfold State.goOn
  repeat' (with_reducible first | assumption | apply State.ringGo_keeps | apply State.resumeAll_keeps | apply State.pump_keeps)

theorem State.homeDone_keeps {s : State} {cn : Nat} (h : s.Keeps p b) : (State.homeDone s cn).Keeps p b := by
  unfold State.homeDone
  repeat' (with_reducible first | assumption | apply State.homeGo_keeps | apply State.collRelease_keeps)

theorem State.failed_keeps {s : State} {r : OutReq} {target : Nat} {code : Nat} {dead : Bool} (h : s.Keeps p b) :
    (State.failed s r target code dead).Keeps p b := by
  unfold State.failed
  repeat' (with_reducible first
    | assumption | apply State.threadFail_keeps | apply State.threadPosted_keeps | apply State.failDesc_keeps
    | apply State.homeDone_keeps | apply State.bump_keeps | apply State.ckptFail_keeps | apply State.restoreError_keeps
    | apply State.systemFailed_keeps | apply keeps_ite | split)

theorem State.ended_keeps {s : State} {r : OutReq} {data : List Byte} (h : s.Keeps p b) : (State.ended s r data).Keeps p b := by
  unfold State.ended
  repeat' (with_reducible first
    | assumption | apply State.threadReply_keeps | apply State.store_keeps | apply State.homeDone_keeps
    | apply State.ckptAck_keeps | apply State.restoreData_keeps | apply State.relayValue_keeps | apply keeps_ite | split)

theorem State.response_keeps {s : State} {x1 : Rsp} {err : Bool} (h : s.Keeps p b) : (State.response s x1 err).Keeps p b := by
  unfold State.response
  repeat' (with_reducible first
    | assumption | apply State.bump_keeps | apply State.dropCopy_keeps | apply State.goOn_keeps | apply State.failed_keeps
    | apply State.ended_keeps | apply keeps_ite | split)

theorem execRspData_goes {x0 : Rsp} {s : State} (h : s.Keeps p b) : GoesKeeping p b (execRspData x0 s) := by
  unfold execRspData
  repeat' (with_reducible first | assumption | apply State.response_keeps | apply goes_next)

theorem execRequestResend_goes {tag : BitVec 13} {dst : BitVec 16} {s : State} (h : s.Keeps p b) :
    GoesKeeping p b (execRequestResend tag dst s) := by
  unfold execRequestResend
  repeat' (with_reducible first
    | assumption | apply State.goOn_keeps | apply State.targetLost_keeps | apply State.bump_keeps | apply State.sendCopy_keeps
    | apply goes_next | apply keeps_ite
    | (apply keeps_mk; first  | assumption | apply State.goOn_keeps | apply State.targetLost_keeps | apply State.bump_keeps | apply State.sendCopy_keeps | split)
    | split | dsimp only | intro _ _ _ | intro _ _)

theorem execFloorUpdSend_goes {dst : BitVec 14} {sys : Bool} {s : State} (h : s.Keeps p b) :
    GoesKeeping p b (execFloorUpdSend dst sys s) := by
  unfold execFloorUpdSend
  repeat' (with_reducible first
    | assumption | apply State.sendReq_keeps | apply goes_next | apply keeps_ite
    | (apply keeps_mk; first  | assumption | apply State.sendReq_keeps | split) | split | dsimp only | intro _ _ _ | intro _ _)

theorem execRspAck_goes {x0 : Rsp} {s : State} (h : s.Keeps p b) : GoesKeeping p b (execRspAck x0 s) := by
  unfold execRspAck
  repeat' (with_reducible first | assumption | apply State.response_keeps | apply goes_next)

theorem execDeadTarget_goes {tag : BitVec 13} {dst : BitVec 16} {s : State} (h : s.Keeps p b) :
    GoesKeeping p b (execDeadTarget tag dst s) := by
  unfold execDeadTarget
  repeat' (with_reducible first
    | assumption | apply State.goOn_keeps | apply State.targetLost_keeps | apply goes_next | apply keeps_ite | split
    | (apply keeps_mk; first  | assumption | apply State.goOn_keeps | apply State.targetLost_keeps))

theorem execDeadFallback_goes {target : BitVec 16} {s : State} (h : s.Keeps p b) : GoesKeeping p b (execDeadFallback target s) := by
  unfold execDeadFallback
  repeat' (with_reducible first
    | assumption | apply State.failed_keeps | apply State.goOn_keeps | apply State.fenceFaults_keeps | apply keeps_foldl
    | apply keeps_ite | apply keeps_ite_fst | apply keeps_ite_snd | apply keeps_ite_mid | apply goes_next | apply goes_ite
    | (apply keeps_mk; first  | assumption | apply State.failed_keeps | apply State.goOn_keeps | apply State.fenceFaults_keeps | apply keeps_ite | (split <;> first | done | (rename_i heq; obtain ⟨rfl, rfl⟩ := pair_eq heq) | (rename_i heq; obtain ⟨rfl, rfl, rfl⟩ := triple_eq heq) | skip))
    | dsimp only | intro _ _ _
    | (split <;> first | done | (rename_i heq; obtain ⟨rfl, rfl⟩ := pair_eq heq) | (rename_i heq; obtain ⟨rfl, rfl, rfl⟩ := triple_eq heq) | skip))

theorem execRspErr_goes {x0 : Rsp} {s : State} (h : s.Keeps p b) : GoesKeeping p b (execRspErr x0 s) := by
  unfold execRspErr
  repeat' (with_reducible first | assumption | apply State.response_keeps | apply goes_next)

theorem execLogRead_goes {n : Fin 4} {by_ : Requester} {s : State} (h : s.Keeps p b) : GoesKeeping p b (execLogRead n by_ s) := by
  unfold execLogRead
  repeat' (with_reducible first | assumption | apply State.readDone_keeps | apply State.emit_keeps | apply goes_next | apply keeps_ite | split)

theorem State.holdPages_keeps {s : State} {i : Nat} {held : Bool} {ms : Nat} (h : s.Keeps p b) :
    (State.holdPages s i held ms).Keeps p b := by
  unfold State.holdPages
  repeat' (with_reducible first | assumption | apply State.setHdr_keeps | apply State.setInt_keeps | split | dsimp only | intro _ _ _ | apply keeps_foldl)

theorem State.onFw_keeps {s : State} {i : Nat} {f : Fwp → Fwp} (h : s.Keeps p b) : (State.onFw s i f).Keeps p b := by
  unfold State.onFw
  repeat' (with_reducible first | assumption | apply keeps_ite | split | (apply keeps_mk; first  | assumption))

theorem State.haltFw_keeps {s : State} {i : Nat} {cause : Nat} {pc : Nat} (h : s.Keeps p b) : (State.haltFw s i cause pc).Keeps p b := by
  unfold State.haltFw
  repeat' (with_reducible first | assumption | apply State.holdPages_keeps | apply State.bump_keeps | apply State.onFw_keeps)

theorem State.kickFw_keeps {s : State} {i : Nat} (h : s.Keeps p b) : (State.kickFw s i).Keeps p b := by
  unfold State.kickFw
  repeat' (with_reducible first | assumption | apply State.onFw_keeps)

theorem State.setFwState_keeps {s : State} {i : Nat} {v : Nat} (h : s.Keeps p b) : (State.setFwState s i v).Keeps p b := by
  unfold State.setFwState
  repeat' (with_reducible first
    | assumption | apply State.setFld_keeps | apply keeps_ite | split
    | (apply keeps_mk; first  | assumption | apply State.setFld_keeps))

theorem State.runFw_keeps {s : State} {i : Nat} {img : List Byte} (h : s.Keeps p b) : (State.runFw s i img).Keeps p b := by
  unfold State.runFw
  repeat' (with_reducible first | assumption | apply State.kickFw_keeps | apply State.setFwState_keeps | apply State.onFw_keeps)

theorem State.startFw_keeps {s : State} {i : Nat} {img : List Byte} (h : s.Keeps p b) : (State.startFw s i img).Keeps p b := by
  unfold State.startFw
  repeat' (with_reducible first | assumption | apply State.wr_keeps | apply State.runFw_keeps | apply State.setFld_keeps | apply keeps_ite | split)

theorem State.installImage_keeps {s : State} {l : FwLoad} (h : s.Keeps p b) : (State.installImage s l).Keeps p b := by
  unfold State.installImage
  repeat' (with_reducible first
    | assumption | apply State.free_keeps | apply State.haltFw_keeps | apply State.store_keeps | apply State.wr_keeps
    | apply State.onFw_keeps | apply State.dropHbm_keeps | apply State.setInt_keeps | apply State.startFw_keeps
    | apply State.noteSensors_keeps | apply keeps_foldl | apply keeps_ite | apply keeps_ite_fst | apply keeps_ite_snd
    | apply keeps_ite_mid
    | (apply keeps_mk; first  | assumption | apply State.free_keeps | apply State.haltFw_keeps | apply State.store_keeps | apply State.wr_keeps | apply State.onFw_keeps | apply State.dropHbm_keeps | apply State.setInt_keeps | apply State.startFw_keeps | apply State.noteSensors_keeps | apply keeps_ite | (split <;> first | done | (rename_i heq; obtain ⟨rfl, rfl⟩ := pair_eq heq) | (rename_i heq; obtain ⟨rfl, rfl, rfl⟩ := triple_eq heq) | skip))
    | dsimp only | intro _ _ _
    | (split <;> first | done | (rename_i heq; obtain ⟨rfl, rfl⟩ := pair_eq heq) | (rename_i heq; obtain ⟨rfl, rfl, rfl⟩ := triple_eq heq) | skip))

theorem State.loadGo_keeps {s : State} (h : s.Keeps p b) : (State.loadGo s).Keeps p b := by
  unfold State.loadGo
  repeat' (with_reducible first | assumption | apply State.startClose_keeps | apply State.installImage_keeps | apply keeps_ite | split)

theorem execHbmScrubDone_goes {s : State} (h : s.Keeps p b) : GoesKeeping p b (execHbmScrubDone s) := by
  unfold execHbmScrubDone
  repeat' (with_reducible first
    | assumption | apply State.dropHbm_keeps | apply State.zeroRange_keeps | apply State.noteSensors_keeps
    | apply State.setFlag_keeps | apply State.loadGo_keeps | apply State.advanceClose_keeps | apply goes_next
    | apply keeps_ite | split
    | (apply keeps_mk; first  | assumption | apply State.dropHbm_keeps | apply State.zeroRange_keeps | apply State.noteSensors_keeps | apply State.setFlag_keeps | apply State.loadGo_keeps | apply State.advanceClose_keeps))

theorem State.restartFw_keeps {s : State} {i : Nat} {cause : Nat} {pc : Nat} (h : s.Keeps p b) :
    (State.restartFw s i cause pc).Keeps p b := by
  unfold State.restartFw
  repeat' (with_reducible first
    | assumption | apply State.raise_keeps | apply State.haltFw_keeps | apply State.onFw_keeps | apply State.logPost_keeps
    | apply State.dropHbm_keeps | apply State.setFwState_keeps | apply State.useHbm_keeps | apply State.noteSensors_keeps
    | apply keeps_ite | split)

theorem execFwpCrash_goes {i : Fin 6} {memory : Bool} {pc : BitVec 32} {s : State} (h : s.Keeps p b) :
    GoesKeeping p b (execFwpCrash i memory pc s) := by
  unfold execFwpCrash
  repeat' (with_reducible first | assumption | apply State.restartFw_keeps | apply goes_next)

theorem State.cfgfDone_keeps {s : State} {err : Nat} (h : s.Keeps p b) : (State.cfgfDone s err).Keeps p b := by
  unfold State.cfgfDone
  repeat' (with_reducible first | assumption | apply State.refuse_keeps | apply State.setInt_keeps | apply State.wr_keeps | apply keeps_ite | split)

theorem State.cfgfRun_keeps {s : State} {c : FlashCmd} (h : s.Keeps p b) : (State.cfgfRun s c).Keeps p b := by
  unfold State.cfgfRun
  repeat' (with_reducible first
    | assumption | apply State.cfgfDone_keeps | apply State.refuse_keeps | apply State.wr_keeps | apply State.flashErase_keeps
    | apply State.flashProgram_keeps | apply State.raise_keeps | apply State.setFlag_keeps | split | dsimp only | intro _ _ _
    | apply keeps_foldl)

theorem State.cfgfTake_keeps {s : State} (h : s.Keeps p b) : (State.cfgfTake s).Keeps p b := by
  unfold State.cfgfTake
  repeat' (with_reducible first
    | assumption | apply State.cfgfRun_keeps | apply keeps_ite | split
    | (apply keeps_mk; first  | assumption | apply State.cfgfRun_keeps))

theorem State.secBack_keeps {s : State} (h : s.Keeps p b) : (State.secBack s).Keeps p b := by
  unfold State.secBack
  repeat' (with_reducible first
    | assumption | apply State.setFlag_keeps | apply State.raise_keeps | apply State.startExchange_keeps
    | apply State.ageFlush_keeps | apply State.cfgfTake_keeps | apply State.xferTake_keeps | apply State.advanceClose_keeps
    | apply State.sealAct_keeps | apply keeps_foldl | apply keeps_ite | apply keeps_ite_fst | apply keeps_ite_snd
    | apply keeps_ite_mid
    | (apply keeps_mk; first  | assumption | apply State.setFlag_keeps | apply State.raise_keeps | apply State.startExchange_keeps | apply State.ageFlush_keeps | apply State.cfgfTake_keeps | apply State.xferTake_keeps | apply State.advanceClose_keeps | apply State.sealAct_keeps | apply keeps_ite | (split <;> first | done | (rename_i heq; obtain ⟨rfl, rfl⟩ := pair_eq heq) | (rename_i heq; obtain ⟨rfl, rfl, rfl⟩ := triple_eq heq) | skip))
    | dsimp only | intro _ _ _
    | (split <;> first | done | (rename_i heq; obtain ⟨rfl, rfl⟩ := pair_eq heq) | (rename_i heq; obtain ⟨rfl, rfl, rfl⟩ := triple_eq heq) | skip))

theorem State.putTable_keeps {s : State} {sel : Nat} {v : Word} (h : s.Keeps p b) : (State.putTable s sel v).Keeps p b := by
  unfold State.putTable
  repeat' (with_reducible first | assumption | apply keeps_ite | split | (apply keeps_mk; first  | assumption))

theorem State.logBack_keeps {s : State} (h : s.Keeps p b) : (State.logBack s).Keeps p b := by
  unfold State.logBack
  repeat' (with_reducible first | assumption | apply State.fwLog_keeps | apply keeps_ite | split)

theorem execLogDrain_goes {s : State} (h : s.Keeps p b) : GoesKeeping p b (execLogDrain s) := by
  unfold execLogDrain
  repeat' (with_reducible first
    | assumption | apply State.store_keeps | apply State.wr_keeps | apply State.bump_keeps | apply State.dropHbm_keeps
    | apply State.setHdr_keeps | apply goes_next | apply keeps_ite | split
    | (apply keeps_mk; first  | assumption | apply State.store_keeps | apply State.wr_keeps | apply State.bump_keeps | apply State.dropHbm_keeps | apply State.setHdr_keeps))

theorem State.startLoad_keeps {s : State} {i : Nat} (h : s.Keeps p b) : (State.startLoad s i).Keeps p b := by
  unfold State.startLoad
  repeat' (with_reducible first
    | assumption | apply State.setInt_keeps | apply State.refuse_keeps | apply State.useHbm_keeps | apply State.setFld_keeps
    | apply State.refuseLoad_keeps | apply keeps_ite | split
    | (apply keeps_mk; first  | assumption | apply State.setInt_keeps | apply State.refuse_keeps | apply State.useHbm_keeps | apply State.setFld_keeps | apply State.refuseLoad_keeps))

theorem execFwpImageStaged_goes {data : List Byte} {s : State} (h : s.Keeps p b) : GoesKeeping p b (execFwpImageStaged data s) := by
  unfold execFwpImageStaged
  repeat' (with_reducible first
    | assumption | apply State.emit_keeps | apply State.refuseLoad_keeps | apply State.store_keeps | apply State.setFld_keeps
    | apply goes_next | apply keeps_ite | split
    | (apply keeps_mk; first  | assumption | apply State.emit_keeps | apply State.refuseLoad_keeps | apply State.store_keeps | apply State.setFld_keeps))

theorem State.cfgfWrite_keeps {s : State} {op : Nat} (h : s.Keeps p b) : (State.cfgfWrite s op).Keeps p b := by
  unfold State.cfgfWrite
  repeat' (with_reducible first
    | assumption | apply State.cfgfTake_keeps | apply State.wr_keeps | apply keeps_ite | split
    | (apply keeps_mk; first  | assumption | apply State.cfgfTake_keeps | apply State.wr_keeps))

theorem State.cfgfArgs_keeps {s : State} {a : Nat} {n : Nat} (h : s.Keeps p b) : (State.cfgfArgs s a n).Keeps p b := by
  unfold State.cfgfArgs
  repeat' (with_reducible first | assumption | apply State.wr_keeps | apply State.refuse_keeps | apply keeps_ite | split)

theorem execFlashProgram_goes {a : BitVec 32} {n : BitVec 32} {data : List Byte} {present : Bool} {s : State} (h : s.Keeps p b) :
    GoesKeeping p b (execFlashProgram a n data present s) := by
  unfold execFlashProgram
  repeat' (with_reducible first
    | assumption | apply State.wr_keeps | apply State.setPresence_keeps | apply State.cfgfWrite_keeps
    | apply State.cfgfArgs_keeps | apply goes_next | split | dsimp only | intro _ _ _ | apply keeps_foldl)

theorem execFwpVerifyDone_goes {s : State} (h : s.Keeps p b) : GoesKeeping p b (execFwpVerifyDone s) := by
  unfold execFwpVerifyDone
  repeat' (with_reducible first
    | assumption | apply State.refuseLoad_keeps | apply State.loadGo_keeps | apply goes_next | apply keeps_ite
    | (apply keeps_mk; first  | assumption | apply State.refuseLoad_keeps | apply State.loadGo_keeps | split) | split
    | dsimp only | intro _ _ _ | intro _ _)

theorem execFwpRestartHashDone_goes {i : Fin 6} {s : State} (h : s.Keeps p b) : GoesKeeping p b (execFwpRestartHashDone i s) := by
  unfold execFwpRestartHashDone
  repeat' (with_reducible first
    | assumption | apply State.dropHbm_keeps | apply State.noteSensors_keeps | apply State.runFw_keeps
    | apply State.logPost_keeps | apply State.raise_keeps | apply State.setFwState_keeps | apply goes_next | split
    | dsimp only | intro _ _ _ | apply keeps_foldl)

theorem State.pwrBack_keeps {s : State} (h : s.Keeps p b) : (State.pwrBack s).Keeps p b := by
  unfold State.pwrBack
  try dsimp only
  repeat' (with_reducible first
    | assumption | apply State.wr_keeps | apply State.showGb_keeps | apply keeps_foldl | apply keeps_foldl_fst | apply keeps_foldl_snd | apply keeps_ite | apply goes_ite | apply keeps_ite_fst | apply keeps_ite_snd | apply keeps_ite_mid | apply goes_next
    | (apply keeps_mk; first | assumption | apply State.wr_keeps | apply State.showGb_keeps | apply keeps_foldl | apply keeps_foldl_fst | apply keeps_foldl_snd | apply keeps_ite | apply goes_ite | apply keeps_ite_fst | apply keeps_ite_snd | apply keeps_ite_mid | (split <;> first | done | (rename_i heq; obtain ⟨rfl, rfl⟩ := pair_eq heq) | (rename_i heq; obtain ⟨rfl, rfl, rfl⟩ := triple_eq heq) | skip))
    | intro _ _ _ | intro _ _ | dsimp only | (split <;> first | done | (rename_i heq; obtain ⟨rfl, rfl⟩ := pair_eq heq) | (rename_i heq; obtain ⟨rfl, rfl, rfl⟩ := triple_eq heq) | skip))

theorem State.memBack_keeps {s : State} (h : s.Keeps p b) : (State.memBack s).Keeps p b := by
  unfold State.memBack
  repeat' (with_reducible first
    | assumption | apply State.setFlag_keeps | apply State.chanRecord_keeps | apply State.putChan_keeps
    | apply State.judgeUe_keeps | apply State.judgeAborts_keeps | apply State.useHbm_keeps | apply State.homeGo_keeps
    | apply State.hraApply_keeps | apply State.startEvac_keeps | split | dsimp only | intro _ _ _ | apply keeps_foldl)

theorem State.fabBack_keeps {s : State} (h : s.Keeps p b) : (State.fabBack s).Keeps p b := by
  unfold State.fabBack
  try dsimp only
  repeat' (with_reducible first
    | assumption | apply State.fillExits_keeps | apply State.bringUpPorts_keeps | apply State.setFlag_keeps | apply State.wr_keeps | apply State.putTable_keeps | apply State.laserBack_keeps | apply State.sendReport_keeps | apply keeps_foldl | apply keeps_foldl_fst | apply keeps_foldl_snd | apply keeps_ite | apply goes_ite | apply keeps_ite_fst | apply keeps_ite_snd | apply keeps_ite_mid | apply goes_next
    | (apply keeps_mk; first | assumption | apply State.fillExits_keeps | apply State.bringUpPorts_keeps | apply State.setFlag_keeps | apply State.wr_keeps | apply State.putTable_keeps | apply State.laserBack_keeps | apply State.sendReport_keeps | apply keeps_foldl | apply keeps_foldl_fst | apply keeps_foldl_snd | apply keeps_ite | apply goes_ite | apply keeps_ite_fst | apply keeps_ite_snd | apply keeps_ite_mid | (split <;> first | done | (rename_i heq; obtain ⟨rfl, rfl⟩ := pair_eq heq) | (rename_i heq; obtain ⟨rfl, rfl, rfl⟩ := triple_eq heq) | skip))
    | intro _ _ _ | intro _ _ | dsimp only | (split <;> first | done | (rename_i heq; obtain ⟨rfl, rfl⟩ := pair_eq heq) | (rename_i heq; obtain ⟨rfl, rfl, rfl⟩ := triple_eq heq) | skip))

theorem execHeldClear_goes {i : Fin 6} {ms : BitVec 16} {s : State} (h : s.Keeps p b) : GoesKeeping p b (execHeldClear i ms s) := by
  unfold execHeldClear
  repeat' (with_reducible first
    | assumption | apply State.holdPages_keeps | apply State.wr_keeps | apply State.logPost_keeps | apply State.fwLog_keeps
    | apply State.pwrBack_keeps | apply State.memBack_keeps | apply State.fabBack_keeps | apply State.secBack_keeps
    | apply State.advanceClose_keeps | apply State.schBack_keeps | apply State.logBack_keeps | apply State.noteSensors_keeps
    | apply State.loadGo_keeps | apply State.onFw_keeps | apply goes_next | apply keeps_ite | split
    | (apply keeps_mk; first  | assumption | apply State.holdPages_keeps | apply State.wr_keeps | apply State.logPost_keeps | apply State.fwLog_keeps | apply State.pwrBack_keeps | apply State.memBack_keeps | apply State.fabBack_keeps | apply State.secBack_keeps | apply State.advanceClose_keeps | apply State.schBack_keeps | apply State.logBack_keeps | apply State.noteSensors_keeps | apply State.loadGo_keeps | apply State.onFw_keeps))

theorem execFwpLoad_goes {i : Fin 6} {host : Word} {len : BitVec 32} {s : State} (h : s.Keeps p b) :
    GoesKeeping p b (execFwpLoad i host len s) := by
  unfold execFwpLoad
  repeat' (with_reducible first | assumption | apply State.startLoad_keeps | apply State.wr_keeps | apply goes_next | apply keeps_ite | split)

theorem execCmdTakeUp_goes {which : Fin 3} {s : State} (h : s.Keeps p b) : GoesKeeping p b (execCmdTakeUp which s) := by
  unfold execCmdTakeUp
  repeat' (with_reducible first
    | assumption | apply State.hifTake_keeps | apply State.secTake_keeps | apply State.lcyTake_keeps | apply goes_next
    | apply keeps_ite | split)

theorem execFlashErase_goes {a : BitVec 32} {present : Bool} {s : State} (h : s.Keeps p b) :
    GoesKeeping p b (execFlashErase a present s) := by
  unfold execFlashErase
  repeat' (with_reducible first
    | assumption | apply State.cfgfWrite_keeps | apply State.wr_keeps | apply State.setPresence_keeps | apply goes_next
    | apply keeps_ite | split)

theorem execFlashRead_goes {a : BitVec 32} {n : BitVec 32} {s : State} (h : s.Keeps p b) : GoesKeeping p b (execFlashRead a n s) := by
  unfold execFlashRead
  repeat' (with_reducible first | assumption | apply State.cfgfWrite_keeps | apply State.cfgfArgs_keeps | apply goes_next | apply keeps_ite | split)

theorem execFwpWatchdog_goes {i : Fin 6} {pc : BitVec 32} {s : State} (h : s.Keeps p b) : GoesKeeping p b (execFwpWatchdog i pc s) := by
  unfold execFwpWatchdog
  repeat' (with_reducible first
    | assumption | apply State.restartFw_keeps | apply goes_next | apply keeps_ite | split
    | (apply keeps_mk; first  | assumption | apply State.restartFw_keeps))

theorem State.refused_keeps {s : State} {ty : Nat} {inst : Nat} {code : Nat} {off : Nat} {org : Nat} (h : s.Keeps p b) :
    (((State.refused s ty inst code off org)).1).Keeps p b := by
  unfold State.refused
  repeat' (with_reducible first | assumption | apply State.refuse_keeps)

theorem State.winRead_keeps {s : State} {a : Nat} {bytes : Nat} {org : Nat} (h : s.Keeps p b) :
    (((State.winRead s a bytes org)).2.1).Keeps p b := by
  unfold State.winRead
  repeat' (with_reducible first
    | assumption | apply State.refused_keeps | apply State.free_keeps | apply State.readDone_keeps | split | dsimp only
    | intro _ _ _ | apply keeps_foldl)

theorem State.readBy_keeps {s : State} {by_ : Requester} {a : Nat} {bytes : Nat} (h : s.Keeps p b) :
    (State.readBy s by_ a bytes).Keeps p b := by
  unfold State.readBy
  repeat' (with_reducible first
    | assumption | apply State.winRead_keeps | apply State.emit_keeps | apply keeps_ite
    | (apply keeps_mk; first  | assumption | apply State.winRead_keeps | apply State.emit_keeps | split) | split | dsimp only
    | intro _ _ _ | intro _ _)

theorem State.done_keeps {s : State} (h : s.Keeps p b) : (((State.done s)).1).Keeps p b := by
  unfold State.done
  repeat' (with_reducible first | assumption)

theorem State.portEnable_keeps {s : State} {x1 : Nat} {on : Bool} (h : s.Keeps p b) : (State.portEnable s x1 on).Keeps p b := by
  unfold State.portEnable
  repeat' (with_reducible first | assumption | apply State.lightPort_keeps | apply State.enterPort_keeps | apply keeps_ite | split)

theorem State.writeCtrl_keeps {s : State} {ty : Nat} {inst : Nat} {v : Nat} {org : Nat} (h : s.Keeps p b) :
    (((State.writeCtrl s ty inst v org)).1).Keeps p b := by
  unfold State.writeCtrl
  repeat' (with_reducible first
    | assumption | apply State.refused_keeps | apply State.setHdr_keeps | apply State.portEnable_keeps
    | apply State.done_keeps | apply State.syncGrants_keeps | apply keeps_ite | split)

theorem State.writeHeader_keeps {s : State} {ty : Nat} {inst : Nat} {off : Nat} {v : Nat} {org : Nat} (h : s.Keeps p b) :
    (((State.writeHeader s ty inst off v org)).1).Keeps p b := by
  unfold State.writeHeader
  repeat' (with_reducible first
    | assumption | apply State.writeCtrl_keeps | apply State.done_keeps | apply State.setHdr_keeps | apply State.intEdge_keeps
    | apply State.setInt_keeps | apply State.refused_keeps | apply keeps_ite | split)

theorem State.writeOreg_keeps {s : State} {e : Nat} {w : Nat} {v : Nat} (h : s.Keeps p b) : (((State.writeOreg s e w v)).2).Keeps p b := by
  unfold State.writeOreg
  repeat' (with_reducible first | assumption | apply State.oregPut_keeps | split | dsimp only | intro _ _ _ | apply keeps_foldl)

theorem State.writeRing_keeps {s : State} {r : Nat} {w : Nat} {v : Nat} (h : s.Keeps p b) : (((State.writeRing s r w v)).2).Keeps p b := by
  unfold State.writeRing
  repeat' (with_reducible first | assumption | apply State.wr_keeps | split | dsimp only | intro _ _ _ | apply keeps_foldl)

theorem State.writeHra_keeps {s : State} {off : Nat} {v : Nat} (h : s.Keeps p b) : (((State.writeHra s off v)).2).Keeps p b := by
  unfold State.writeHra
  repeat' (with_reducible first
    | assumption | apply State.wr_keeps | apply State.homeGo_keeps | apply State.hraApply_keeps | split | dsimp only
    | intro _ _ _ | apply keeps_foldl)

theorem State.writeAll_keeps {s : State} {ty : Nat} {off : Nat} {v : Nat} {org : Nat} (h : s.Keeps p b) :
    (((State.writeAll s ty off v org)).1).Keeps p b := by
  unfold State.writeAll
  repeat' (with_reducible first
    | assumption | apply State.refused_keeps | apply State.writeOreg_keeps | apply State.writeRing_keeps
    | apply State.writeHra_keeps | apply State.done_keeps | apply keeps_foldl | apply keeps_ite | apply keeps_ite_fst
    | apply keeps_ite_snd | apply keeps_ite_mid
    | (apply keeps_mk; first  | assumption | apply State.refused_keeps | apply State.writeOreg_keeps | apply State.writeRing_keeps | apply State.writeHra_keeps | apply State.done_keeps | apply keeps_ite | (split <;> first | done | (rename_i heq; obtain ⟨rfl, rfl⟩ := pair_eq heq) | (rename_i heq; obtain ⟨rfl, rfl, rfl⟩ := triple_eq heq) | skip))
    | dsimp only | intro _ _ _
    | (split <;> first | done | (rename_i heq; obtain ⟨rfl, rfl⟩ := pair_eq heq) | (rename_i heq; obtain ⟨rfl, rfl, rfl⟩ := triple_eq heq) | skip))

theorem State.rptPop_keeps {s : State} (h : s.Keeps p b) : (State.rptPop s).Keeps p b := by
  unfold State.rptPop
  repeat' (with_reducible first
    | assumption | apply State.wr_keeps | apply keeps_ite | split
    | (apply keeps_mk; first  | assumption | apply State.wr_keeps))

theorem State.writeCommand_keeps {s : State} {ty : Nat} {inst : Nat} {off : Nat} {v : Nat} (h : s.Keeps p b) :
    (((State.writeCommand s ty inst off v)).1).Keeps p b := by
  unfold State.writeCommand
  repeat' (with_reducible first
    | assumption | apply State.done_keeps | apply State.secWrite_keeps | apply State.xferWrite_keeps
    | apply State.lcyWrite_keeps | apply State.startLoad_keeps | apply State.hostBeat_keeps | apply State.setEvents_keeps
    | apply State.seedWrite_keeps | apply State.cfgfWrite_keeps | apply State.rptPop_keeps | apply State.portRetry_keeps
    | apply keeps_ite | split)

theorem State.writeTable_keeps {s : State} {v : Nat} {org : Nat} (h : s.Keeps p b) : (((State.writeTable s v org)).1).Keeps p b := by
  unfold State.writeTable
  repeat' (with_reducible first
    | assumption | apply State.refused_keeps | apply State.done_keeps | apply State.putTable_keeps | apply keeps_ite
    | (apply keeps_mk; first  | assumption | apply State.refused_keeps | apply State.done_keeps | apply State.putTable_keeps | split)
    | split | dsimp only | intro _ _ _ | intro _ _)

theorem State.refreshDrain_keeps {s : State} (h : s.Keeps p b) : (State.refreshDrain s).Keeps p b := by
  unfold State.refreshDrain
  repeat' (with_reducible first | assumption | apply State.setJobState_keeps | apply keeps_ite | split)

theorem State.wrote_keeps {s : State} {ty : Nat} {off : Nat} (h : s.Keeps p b) : (State.wrote s ty off).Keeps p b := by
  unfold State.wrote
  repeat' (with_reducible first
    | assumption | apply State.noteSensors_keeps | apply State.refreshDrain_keeps | apply State.setFlag_keeps
    | apply keeps_ite | split)

theorem State.writeReg_keeps {s : State} {r : RegRow} {ty : Nat} {inst : Nat} {off : Nat} {v : Nat} {org : Nat} {node : Option Nat} (h : s.Keeps p b) :
    (((State.writeReg s r ty inst off v org node)).1).Keeps p b := by
  unfold State.writeReg
  repeat' (with_reducible first
    | assumption | apply State.done_keeps | apply State.writeCommand_keeps | apply State.regSet_keeps
    | apply State.refused_keeps | apply State.hifWrite_keeps | apply State.holdAtWrite_keeps | apply State.writeTable_keeps
    | apply State.wrote_keeps | split | dsimp only | intro _ _ _ | apply keeps_foldl)

theorem State.writePage_keeps {s : State} {ty : Nat} {inst : Nat} {off : Nat} {bytes : Nat} {v : Nat} {org : Nat} {field : Option Nat} {node : Option Nat} (h : s.Keeps p b) :
    (((State.writePage s ty inst off bytes v org field node)).1).Keeps p b := by
  unfold State.writePage
  try dsimp only
  repeat' (with_reducible first
    | assumption | apply State.refused_keeps | apply State.done_keeps | apply State.startScan_keeps | apply State.writeHeader_keeps | apply State.writeAll_keeps | apply State.writeReg_keeps | apply keeps_foldl | apply keeps_foldl_fst | apply keeps_foldl_snd | apply keeps_ite | apply goes_ite | apply keeps_ite_fst | apply keeps_ite_snd | apply keeps_ite_mid | apply goes_next
    | (apply keeps_mk; first | assumption | apply State.refused_keeps | apply State.done_keeps | apply State.startScan_keeps | apply State.writeHeader_keeps | apply State.writeAll_keeps | apply State.writeReg_keeps | apply keeps_foldl | apply keeps_foldl_fst | apply keeps_foldl_snd | apply keeps_ite | apply goes_ite | apply keeps_ite_fst | apply keeps_ite_snd | apply keeps_ite_mid | (split <;> first | done | (rename_i heq; obtain ⟨rfl, rfl⟩ := pair_eq heq) | (rename_i heq; obtain ⟨rfl, rfl, rfl⟩ := triple_eq heq) | skip))
    | intro _ _ _ | intro _ _ | dsimp only | (split <;> first | done | (rename_i heq; obtain ⟨rfl, rfl⟩ := pair_eq heq) | (rename_i heq; obtain ⟨rfl, rfl, rfl⟩ := triple_eq heq) | skip))

theorem execRelayRead_goes {member : Fin 32} {off : BitVec 27} {wide : Bool} {s : State} (h : s.Keeps p b) :
    GoesKeeping p b (execRelayRead member off wide s) := by
  unfold execRelayRead
  repeat' (with_reducible first | assumption | apply State.readBy_keeps | apply State.issue_keeps | apply goes_next | apply keeps_ite | split)

theorem execBcastRead_goes {by_ : Requester} {a : BitVec 27} {s : State} (h : s.Keeps p b) : GoesKeeping p b (execBcastRead by_ a s) := by
  unfold execBcastRead
  repeat' (with_reducible first | assumption | apply State.readBy_keeps | apply goes_next | apply keeps_ite | split)

theorem State.winWrite_keeps {s : State} {a : Nat} {bytes : Nat} {v : Nat} {org : Nat} {node : (Option Nat)} (h : s.Keeps p b) :
    (((State.winWrite s a bytes v org node)).1).Keeps p b := by
  unfold State.winWrite
  try dsimp only
  repeat' (with_reducible first
    | assumption | apply State.refused_keeps | apply State.writePage_keeps | apply keeps_foldl | apply keeps_foldl_fst | apply keeps_foldl_snd | apply keeps_ite | apply goes_ite | apply keeps_ite_fst | apply keeps_ite_snd | apply keeps_ite_mid | apply goes_next
    | (apply keeps_mk; first | assumption | apply State.refused_keeps | apply State.writePage_keeps | apply keeps_foldl | apply keeps_foldl_fst | apply keeps_foldl_snd | apply keeps_ite | apply goes_ite | apply keeps_ite_fst | apply keeps_ite_snd | apply keeps_ite_mid | (split <;> first | done | (rename_i heq; obtain ⟨rfl, rfl⟩ := pair_eq heq) | (rename_i heq; obtain ⟨rfl, rfl, rfl⟩ := triple_eq heq) | skip))
    | intro _ _ _ | intro _ _ | dsimp only | (split <;> first | done | (rename_i heq; obtain ⟨rfl, rfl⟩ := pair_eq heq) | (rename_i heq; obtain ⟨rfl, rfl, rfl⟩ := triple_eq heq) | skip))

theorem execRegisterReadRefused_goes {by_ : Requester} {a : BitVec 27} {bytes : BitVec 8} {s : State} (h : s.Keeps p b) :
    GoesKeeping p b (execRegisterReadRefused by_ a bytes s) := by
  unfold execRegisterReadRefused
  repeat' (with_reducible first | assumption | apply State.readBy_keeps | apply goes_next | apply keeps_ite | split)

theorem execRelayWrite_goes {member : Fin 32} {off : BitVec 27} {wide : Bool} {v : Word} {s : State} (h : s.Keeps p b) :
    GoesKeeping p b (execRelayWrite member off wide v s) := by
  unfold execRelayWrite
  repeat' (with_reducible first | assumption | apply State.winWrite_keeps | apply State.issue_keeps | apply goes_next | apply keeps_ite | split)

theorem execRegisterWrite_goes {by_ : Requester} {a : BitVec 27} {bytes : BitVec 8} {v : Word} {s : State} (h : s.Keeps p b) :
    GoesKeeping p b (execRegisterWrite by_ a bytes v s) := by
  unfold execRegisterWrite
  repeat' (with_reducible first | assumption | apply State.winWrite_keeps | apply goes_next | apply keeps_ite | split)

theorem execHbrRptPop_goes {s : State} (h : s.Keeps p b) : GoesKeeping p b (execHbrRptPop s) := by
  unfold execHbrRptPop
  repeat' (with_reducible first | assumption | apply State.rptPop_keeps | apply goes_next | apply keeps_ite | split)

theorem execErrCodeClear_goes {page : BitVec 27} {s : State} (h : s.Keeps p b) : GoesKeeping p b (execErrCodeClear page s) := by
  unfold execErrCodeClear
  repeat' (with_reducible first | assumption | apply State.winWrite_keeps | apply goes_next | apply keeps_ite | split)

theorem State.joinFold_keeps {s : State} {q : Req} (h : s.Keeps p b) : (State.joinFold s q).Keeps p b := by
  unfold State.joinFold
  repeat' (with_reducible first | assumption | apply keeps_ite | split | (apply keeps_mk; first  | assumption))

theorem State.notePage_keeps {s : State} {typ : ReqType} {q : Req} {e : Nat} (h : s.Keeps p b) : (State.notePage s typ q e).Keeps p b := by
  unfold State.notePage
  repeat' (with_reducible first | assumption | apply State.refused_keeps | apply keeps_ite | split)

theorem State.storeReq_keeps {s : State} {q : Req} (h : s.Keeps p b) : (State.storeReq s q).Keeps p b := by
  unfold State.storeReq
  repeat' (with_reducible first | assumption | apply State.store_keeps | apply State.noteLine_keeps | split | dsimp only | intro _ _ _ | apply keeps_foldl)

theorem State.atomicReq_keeps {s : State} {typ : ReqType} {q : Req} (h : s.Keeps p b) : (State.atomicReq s typ q).Keeps p b := by
  unfold State.atomicReq
  repeat' (with_reducible first
    | assumption | apply State.closeStart_keeps | apply State.finish_keeps | apply State.logRefuse_keeps
    | apply State.fetch_keeps | apply State.bump64_keeps | apply State.logPut_keeps | apply State.ckptWatch_keeps
    | apply State.amoRequest_keeps | split | dsimp only | intro _ _ _ | apply keeps_foldl)

theorem State.collReq_keeps {s : State} {q : Req} (h : s.Keeps p b) : (State.collReq s q).Keeps p b := by
  unfold State.collReq
  repeat' (with_reducible first
    | assumption | apply State.finish_keeps | apply State.bump64_keeps | apply State.takeContrib_keeps
    | apply State.homeGo_keeps | apply State.holdReq_keeps | apply State.takeResult_keeps | apply State.takeNotice_keeps
    | apply State.takeFailed_keeps | apply keeps_ite | split)

theorem State.performReq_keeps {s : State} {typ : ReqType} {q : Req} (h : s.Keeps p b) : (State.performReq s typ q).Keeps p b := by
  unfold State.performReq
  repeat' (with_reducible first
    | assumption | apply State.finish_keeps | apply State.bump64_keeps | apply State.notePage_keeps
    | apply State.winWrite_keeps | apply State.ckptWatch_keeps | apply State.storeReq_keeps | apply State.atomicReq_keeps
    | apply State.blockAdd_keeps | apply State.collReq_keeps | apply State.takeReport_keeps | apply keeps_ite | split)

theorem State.judge_keeps {s t : State} {typ : ReqType} {q : Req} (h : s.Keeps p b) (ht : s.judge typ q = some t) :
    t.Keeps p b := by
  unfold State.judge at ht
  split at ht
  · next hs => cases ht; exact State.served_keeps h hs
  · split at ht
    · cases ht; exact State.joinFold_keeps h
    · split at ht
      · exact nomatch ht
      · cases ht; exact State.performReq_keeps h

theorem State.reexamine_keeps {s : State} (h : s.Keeps p b) : (State.reexamine s).Keeps p b := by
  unfold State.reexamine
  refine State.takeHeld_keeps (keeps_foldl h fun t x ht => ?_)
  dsimp only
  split
  · exact ht
  · split
    · exact State.answer_keeps ht
    · exact keeps_getD (fun _ hu => State.judge_keeps (keeps_mk ht) hu) ht

theorem State.raiseFloor_keeps {s : State} {q : Req} (h : s.Keeps p b) : (State.raiseFloor s q).Keeps p b := by
  unfold State.raiseFloor
  repeat' (with_reducible first
    | assumption | apply State.reexamine_keeps | apply keeps_ite | split
    | (apply keeps_mk; first  | assumption | apply State.reexamine_keeps))

theorem State.noteStream_keeps {s : State} {q : Req} (h : s.Keeps p b) : (State.noteStream s q).Keeps p b := by
  unfold State.noteStream
  repeat' (with_reducible first
    | assumption | apply State.raiseFloor_keeps | apply keeps_ite | split
    | (apply keeps_mk; first  | assumption | apply State.raiseFloor_keeps))

theorem State.loadReq_keeps {s : State} {q : Req} (h : s.Keeps p b) : (State.loadReq s q).Keeps p b := by
  unfold State.loadReq
  repeat' (with_reducible first
    | assumption | apply State.answer_keeps | apply State.winRead_keeps | apply State.bump64_keeps | apply State.fetch_keeps
    | apply keeps_ite | split)

theorem State.arrive_keeps {s : State} {typ : ReqType} {q : Req} (h : s.Keeps p b) : (State.arrive s typ q).Keeps p b := by
  unfold State.arrive
  refine keeps_ite h (keeps_ite (State.bump_keeps h) (keeps_ite (State.answer_keeps h) ?_))
  have h1 : (s.noteStream q).Keeps p b := State.noteStream_keeps h
  exact keeps_ite (State.answer_keeps h1) (keeps_ite (State.loadReq_keeps h1)
    (keeps_getD (fun _ hu => State.judge_keeps h1 hu) (State.holdReq_keeps h1)))

theorem State.replicate_keeps {s : State} {typ : ReqType} {q : Req} {mask : Nat} {seqs : List Nat} (h : s.Keeps p b) :
    (State.replicate s typ q mask seqs).Keeps p b := by
  unfold State.replicate
  repeat' (with_reducible first
    | assumption | apply State.bump_keeps | apply State.answer_keeps | apply State.arrive_keeps | apply State.inject_keeps
    | apply State.bump64_keeps | split | dsimp only | intro _ _ _ | apply keeps_foldl)

theorem State.arriveMcast_keeps {s : State} {typ : ReqType} {q : Req} (h : s.Keeps p b) : (State.arriveMcast s typ q).Keeps p b := by
  unfold State.arriveMcast
  repeat' (with_reducible first | assumption | apply State.replicate_keeps)

theorem State.arriveColl_keeps {s : State} {q : Req} (h : s.Keeps p b) : (State.arriveColl s q).Keeps p b := by
  unfold State.arriveColl
  repeat' (with_reducible first | assumption | apply State.arriveMcast_keeps | apply State.arrive_keeps | apply keeps_ite | split)

theorem State.freePort_keeps {s : State} {x1 : Nat} {vc : Nat} {n : Nat} (h : s.Keeps p b) : (State.freePort s x1 vc n).Keeps p b := by
  unfold State.freePort
  repeat' (with_reducible first | assumption | apply State.onPort_keeps)

theorem State.floorUpd_keeps {s : State} {q : Req} (h : s.Keeps p b) : (State.floorUpd s q).Keeps p b := by
  unfold State.floorUpd
  repeat' (with_reducible first | assumption | apply State.bump_keeps | apply State.raiseFloor_keeps | apply keeps_ite | split)

theorem State.deliverReq_keeps {s : State} {typ : Nat} {q : Req} (h : s.Keeps p b) : (State.deliverReq s typ q).Keeps p b := by
  unfold State.deliverReq
  repeat' (with_reducible first
    | assumption | apply State.arrive_keeps | apply State.arriveMcast_keeps | apply State.arriveColl_keeps
    | apply State.floorUpd_keeps | apply State.bump_keeps | apply State.respond_keeps | apply keeps_ite | split)

theorem State.takeReq_keeps {s : State} {typ : ReqType} {q : Req} (h : s.Keeps p b) : (State.takeReq s typ q).Keeps p b := by
  unfold State.takeReq
  repeat' (with_reducible first | assumption | apply State.deliverReq_keeps | apply keeps_ite | split)

theorem execReqStore_goes {q : Req} {s : State} (h : s.Keeps p b) : GoesKeeping p b (execReqStore q s) := by
  unfold execReqStore
  repeat' (with_reducible first | assumption | apply State.takeReq_keeps | apply goes_next)

theorem execReqNodeReport_goes {q : Req} {s : State} (h : s.Keeps p b) : GoesKeeping p b (execReqNodeReport q s) := by
  unfold execReqNodeReport
  repeat' (with_reducible first | assumption | apply State.takeReq_keeps | apply goes_next)

theorem execReqLoad_goes {q : Req} {s : State} (h : s.Keeps p b) : GoesKeeping p b (execReqLoad q s) := by
  unfold execReqLoad
  repeat' (with_reducible first | assumption | apply State.takeReq_keeps | apply goes_next)

theorem execReqCollContrib_goes {q : Req} {s : State} (h : s.Keeps p b) : GoesKeeping p b (execReqCollContrib q s) := by
  unfold execReqCollContrib
  repeat' (with_reducible first | assumption | apply State.takeReq_keeps | apply goes_next)

theorem State.rxTake_keeps {s : State} {x1 : Nat} {x2 : List (Nat × Nat × List Byte)} (h : s.Keeps p b) :
    (State.rxTake s x1 x2).Keeps p b := by
  induction x2 generalizing s with
  | nil => exact h
  | cons y ys ih =>
  unfold State.rxTake
  try dsimp only
  repeat' (with_reducible first
    | assumption | apply ih | apply State.onPort_keeps | apply State.freePort_keeps | apply State.deliverReq_keeps | apply keeps_foldl | apply keeps_foldl_fst | apply keeps_foldl_snd | apply keeps_ite | apply goes_ite | apply keeps_ite_fst | apply keeps_ite_snd | apply keeps_ite_mid | apply goes_next
    | (apply keeps_mk; first | assumption | apply ih | apply State.onPort_keeps | apply State.freePort_keeps | apply State.deliverReq_keeps | apply keeps_foldl | apply keeps_foldl_fst | apply keeps_foldl_snd | apply keeps_ite | apply goes_ite | apply keeps_ite_fst | apply keeps_ite_snd | apply keeps_ite_mid | (split <;> first | done | (rename_i heq; obtain ⟨rfl, rfl⟩ := pair_eq heq) | (rename_i heq; obtain ⟨rfl, rfl, rfl⟩ := triple_eq heq) | skip))
    | intro _ _ _ | dsimp only |  (split <;> first | done | (rename_i heq; obtain ⟨rfl, rfl⟩ := pair_eq heq) | (rename_i heq; obtain ⟨rfl, rfl, rfl⟩ := triple_eq heq) | skip))

theorem State.rxGo_keeps {s : State} (h : s.Keeps p b) : (State.rxGo s).Keeps p b := by
  unfold State.rxGo
  repeat' (with_reducible first
    | assumption | apply State.creditFrame_keeps | apply State.rxTake_keeps | split | dsimp only | intro _ _ _
    | apply keeps_foldl)

theorem execLedgerExpiry_goes {src : BitVec 14} {sys : Bool} {seq : BitVec 32} {s : State} (h : s.Keeps p b) :
    GoesKeeping p b (execLedgerExpiry src sys seq s) := by
  unfold execLedgerExpiry
  repeat' (with_reducible first
    | assumption | apply State.reexamine_keeps | apply State.rxGo_keeps | apply goes_next | apply keeps_ite
    | (apply keeps_mk; first  | assumption | apply State.reexamine_keeps | apply State.rxGo_keeps | split) | split
    | dsimp only | intro _ _ _ | intro _ _)

theorem execReqAtomic_goes {q : Req} {s : State} (h : s.Keeps p b) : GoesKeeping p b (execReqAtomic q s) := by
  unfold execReqAtomic
  repeat' (with_reducible first | assumption | apply State.takeReq_keeps | apply goes_next)

theorem execReqCollFailed_goes {q : Req} {s : State} (h : s.Keeps p b) : GoesKeeping p b (execReqCollFailed q s) := by
  unfold execReqCollFailed
  repeat' (with_reducible first | assumption | apply State.takeReq_keeps | apply goes_next)

theorem execReqCollNotice_goes {q : Req} {s : State} (h : s.Keeps p b) : GoesKeeping p b (execReqCollNotice q s) := by
  unfold execReqCollNotice
  repeat' (with_reducible first | assumption | apply State.takeReq_keeps | apply goes_next)

theorem execReqCollResult_goes {q : Req} {s : State} (h : s.Keeps p b) : GoesKeeping p b (execReqCollResult q s) := by
  unfold execReqCollResult
  repeat' (with_reducible first | assumption | apply State.takeReq_keeps | apply goes_next)

theorem execReqObjGet_goes {q : Req} {s : State} (h : s.Keeps p b) : GoesKeeping p b (execReqObjGet q s) := by
  unfold execReqObjGet
  repeat' (with_reducible first | assumption | apply State.takeReq_keeps | apply goes_next)

theorem execReqFloorUpd_goes {q : Req} {s : State} (h : s.Keeps p b) : GoesKeeping p b (execReqFloorUpd q s) := by
  unfold execReqFloorUpd
  repeat' (with_reducible first | assumption | apply State.takeReq_keeps | apply goes_next)

theorem execReqBlockAdd_goes {q : Req} {s : State} (h : s.Keeps p b) : GoesKeeping p b (execReqBlockAdd q s) := by
  unfold execReqBlockAdd
  repeat' (with_reducible first | assumption | apply State.takeReq_keeps | apply goes_next)

theorem execReqObjPut_goes {q : Req} {s : State} (h : s.Keeps p b) : GoesKeeping p b (execReqObjPut q s) := by
  unfold execReqObjPut
  repeat' (with_reducible first | assumption | apply State.takeReq_keeps | apply goes_next)

theorem execReqAtomicP_goes {q : Req} {s : State} (h : s.Keeps p b) : GoesKeeping p b (execReqAtomicP q s) := by
  unfold execReqAtomicP
  repeat' (with_reducible first | assumption | apply State.takeReq_keeps | apply goes_next)

theorem execReqMcast_goes {q : Req} {mask : BitVec 32} {seqs : List (BitVec 32)} {s : State} (h : s.Keeps p b) :
    GoesKeeping p b (execReqMcast q mask seqs s) := by
  unfold execReqMcast
  repeat' (with_reducible first | assumption | apply State.replicate_keeps | apply goes_next | apply keeps_ite | split)

theorem State.takeNak_keeps {s : State} {x1 : Nat} {ack : Nat} (h : s.Keeps p b) : (State.takeNak s x1 ack).Keeps p b := by
  unfold State.takeNak
  repeat' (with_reducible first
    | assumption | apply State.onPort_keeps | apply State.enterPort_keeps | apply State.emit_keeps | apply State.bump_keeps
    | split | dsimp only | intro _ _ _ | apply keeps_foldl)

theorem State.fabricGo_keeps {s : State} (h : s.Keeps p b) : (State.fabricGo s).Keeps p b := by
  unfold State.fabricGo
  repeat' (with_reducible first
    | assumption | apply State.ringGo_keeps | apply State.pump_keeps | apply State.rxGo_keeps | apply State.portGo_keeps
    | split | dsimp only | intro _ _ _ | apply keeps_foldl)

theorem State.kicks_keeps {s : State} (h : s.Keeps p b) : (State.kicks s).Keeps p b := by
  unfold State.kicks
  repeat' (with_reducible first | assumption | apply State.free_keeps | apply State.kickFw_keeps | split | dsimp only | intro _ _ _ | apply keeps_foldl)

theorem State.someLanes_keeps {s : State} (h : s.Keeps p b) : (State.someLanes s).Keeps p b := by
  unfold State.someLanes
  repeat' (with_reducible first | assumption | apply State.free_keeps | apply State.setFld_keeps | split | dsimp only | intro _ _ _ | apply keeps_foldl)

theorem State.idleStep_keeps {s : State} (h : s.Keeps p b) : (State.idleStep s).Keeps p b := by
  unfold State.idleStep
  repeat' (with_reducible first | assumption | apply State.idle_keeps | apply State.someLanes_keeps | apply State.kicks_keeps | apply State.fabricGo_keeps | apply keeps_ite | split)

theorem State.deliver_keeps {s : State} {c : Cargo} (h : s.Keeps p b) : (State.deliver s c).Keeps p b := by
  unfold State.deliver
  repeat' (with_reducible first | assumption | apply State.deliverReq_keeps | apply State.response_keeps | apply keeps_ite | split)

theorem State.switched_keeps {s t : State} {k : Packet} (h : s.Keeps p b) (ht : s.switched k = some t) : t.Keeps p b := by
  unfold State.switched at ht
  repeat' (first | (split at ht) | (cases ht; first
    | exact State.bump_keeps h | exact State.forward_keeps h | exact State.sendPacket_keeps h
    | exact keeps_ite (State.sendPacket_keeps h) (State.bump_keeps h)) | (exfalso; exact Option.noConfusion ht) | exact absurd ht (by simp))

theorem State.packetIn_keeps {s : State} {x1 : Nat} {vc : Nat} {x3 : List Byte} (h : s.Keeps p b) :
    (State.packetIn s x1 vc x3).Keeps p b := by
  unfold State.packetIn
  dsimp only
  split
  · exact State.freePort_keeps (State.bump_keeps h)
  · split
    · next heq => exact State.freePort_keeps (State.switched_keeps h heq)
    · split
      · exact keeps_ite (State.onPort_keeps h) (State.freePort_keeps (State.deliver_keeps h))
      · exact State.freePort_keeps (State.deliver_keeps h)

theorem State.nakFrame_keeps {s : State} {x1 : Nat} (h : s.Keeps p b) : (State.nakFrame s x1).Keeps p b := by
  unfold State.nakFrame
  repeat' (with_reducible first | assumption | apply State.sendFrame_keeps)

theorem State.takeControl_keeps {s : State} {x1 : Nat} {c : List Byte} (h : s.Keeps p b) : (State.takeControl s x1 c).Keeps p b := by
  unfold State.takeControl
  repeat' (with_reducible first | assumption | apply State.onPort_keeps | apply State.setFlag_keeps | apply keeps_ite | split)

theorem State.tagFailed_keeps {s : State} {x1 : Nat} (h : s.Keeps p b) : (State.tagFailed s x1).Keeps p b := by
  unfold State.tagFailed
  repeat' (with_reducible first
    | assumption | apply State.onPort_keeps | apply State.bump_keeps | apply State.raise_keeps | apply State.enterPort_keeps
    | apply State.nakFrame_keeps | apply keeps_ite | split)

theorem State.blockIn_keeps {s : State} {x1 : Nat} {x2 : Block} (h : s.Keeps p b) : (State.blockIn s x1 x2).Keeps p b := by
  unfold State.blockIn
  repeat' (with_reducible first
    | assumption | apply State.freePort_keeps | apply State.packetIn_keeps | apply State.onPort_keeps | split | dsimp only
    | intro _ _ _ | apply keeps_foldl)

theorem execLinkFrame_goes {x0 : Fin 48} {f : Frame} {s : State} (h : s.Keeps p b) : GoesKeeping p b (execLinkFrame x0 f s) := by
  unfold execLinkFrame
  repeat' (with_reducible first
    | assumption | apply State.bump64_keeps | apply State.nakFrame_keeps | apply State.bump_keeps
    | apply State.tagFailed_keeps | apply State.takeControl_keeps | apply State.takeNak_keeps | apply State.onPort_keeps
    | apply State.rxGo_keeps | apply State.blockIn_keeps | apply goes_next | split | dsimp only | intro _ _ _
    | apply keeps_foldl)

theorem execPacketForward_goes {x0 : Fin 48} {k : Packet} {spent : BitVec 16} {s : State} (h : s.Keeps p b) :
    GoesKeeping p b (execPacketForward x0 k spent s) := by
  unfold execPacketForward
  refine goes_ite (goes_next h) (goes_ite (goes_next (State.bump_keeps h)) ?_)
  dsimp only
  split
  · next heq => exact goes_next (State.switched_keeps h heq)
  · split
    · exact goes_next (keeps_ite h (State.deliver_keeps h))
    · exact goes_next (State.deliver_keeps h)

theorem State.pldmAnswer_keeps {s : State} {cmd : Nat} {data : List Byte} (h : s.Keeps p b) : (State.pldmAnswer s cmd data).Keeps p b := by
  unfold State.pldmAnswer
  repeat' (with_reducible first | assumption | apply State.emit_keeps | apply keeps_ite | split)

theorem execGetPldmVersion_goes {typ : BitVec 8} {s : State} (h : s.Keeps p b) : GoesKeeping p b (execGetPldmVersion typ s) := by
  unfold execGetPldmVersion
  repeat' (with_reducible first | assumption | apply State.pldmAnswer_keeps | apply goes_next | apply keeps_ite | split)

theorem execGetTid_goes {s : State} (h : s.Keeps p b) : GoesKeeping p b (execGetTid s) := by
  unfold execGetTid
  repeat' (with_reducible first | assumption | apply State.pldmAnswer_keeps | apply goes_next | apply keeps_ite | split)

theorem execGetPdrRepositoryInfo_goes {s : State} (h : s.Keeps p b) : GoesKeeping p b (execGetPdrRepositoryInfo s) := by
  unfold execGetPdrRepositoryInfo
  repeat' (with_reducible first | assumption | apply State.pldmAnswer_keeps | apply goes_next | apply keeps_ite | split)

theorem execGetPldmTypes_goes {s : State} (h : s.Keeps p b) : GoesKeeping p b (execGetPldmTypes s) := by
  unfold execGetPldmTypes
  repeat' (with_reducible first | assumption | apply State.pldmAnswer_keeps | apply goes_next | apply keeps_ite | split)

theorem State.mctpAnswer_keeps {s : State} {cmd : Nat} {cc : Nat} {data : List Byte} (h : s.Keeps p b) :
    (State.mctpAnswer s cmd cc data).Keeps p b := by
  unfold State.mctpAnswer
  repeat' (with_reducible first | assumption | apply State.emit_keeps)

theorem execGetMessageTypeSupport_goes {s : State} (h : s.Keeps p b) : GoesKeeping p b (execGetMessageTypeSupport s) := by
  unfold execGetMessageTypeSupport
  repeat' (with_reducible first | assumption | apply State.mctpAnswer_keeps | apply goes_next | apply keeps_ite | split)

theorem execGetPldmCommands_goes {typ : BitVec 8} {s : State} (h : s.Keeps p b) : GoesKeeping p b (execGetPldmCommands typ s) := by
  unfold execGetPldmCommands
  repeat' (with_reducible first | assumption | apply State.pldmAnswer_keeps | apply goes_next | apply keeps_ite | split)

theorem execSetEndpointId_goes {op : BitVec 2} {eid : BitVec 8} {s : State} (h : s.Keeps p b) :
    GoesKeeping p b (execSetEndpointId op eid s) := by
  unfold execSetEndpointId
  repeat' (with_reducible first
    | assumption | apply State.mctpAnswer_keeps | apply goes_next | apply keeps_ite | split
    | (apply keeps_mk; first  | assumption | apply State.mctpAnswer_keeps))

theorem execGetEndpointId_goes {s : State} (h : s.Keeps p b) : GoesKeeping p b (execGetEndpointId s) := by
  unfold execGetEndpointId
  repeat' (with_reducible first | assumption | apply State.mctpAnswer_keeps | apply goes_next | apply keeps_ite | split)

theorem execPollForPlatformEventMessage_goes {s : State} (h : s.Keeps p b) : GoesKeeping p b (execPollForPlatformEventMessage s) := by
  unfold execPollForPlatformEventMessage
  repeat' (with_reducible first
    | assumption | apply State.pldmAnswer_keeps | apply goes_next | apply keeps_ite | split
    | (apply keeps_mk; first  | assumption | apply State.pldmAnswer_keeps))

theorem execGetPdr_goes {handle : BitVec 32} {s : State} (h : s.Keeps p b) : GoesKeeping p b (execGetPdr handle s) := by
  unfold execGetPdr
  repeat' (with_reducible first | assumption | apply State.pldmAnswer_keeps | apply goes_next | apply keeps_ite | split)

theorem execGetSensorReading_goes {sensor : BitVec 16} {s : State} (h : s.Keeps p b) : GoesKeeping p b (execGetSensorReading sensor s) := by
  unfold execGetSensorReading
  repeat' (with_reducible first | assumption | apply State.pldmAnswer_keeps | apply goes_next | apply keeps_ite | split)

theorem execGetMctpVersionSupport_goes {typ : BitVec 8} {s : State} (h : s.Keeps p b) :
    GoesKeeping p b (execGetMctpVersionSupport typ s) := by
  unfold execGetMctpVersionSupport
  repeat' (with_reducible first | assumption | apply State.mctpAnswer_keeps | apply goes_next | apply keeps_ite | split)

theorem execSmbusAlertResponse_goes {s : State} (h : s.Keeps p b) : GoesKeeping p b (execSmbusAlertResponse s) := by
  unfold execSmbusAlertResponse
  repeat' (with_reducible first | assumption | apply State.emit_keeps | apply goes_next | apply keeps_ite | split)

theorem State.loadIr_keeps {s : State} {code : Nat} (h : s.Keeps p b) : (State.loadIr s code).Keeps p b := by
  unfold State.loadIr
  repeat' (with_reducible first
    | assumption | apply State.emit_keeps | apply State.heldDown_keeps | apply keeps_ite | split
    | (apply keeps_mk; first  | assumption | apply State.emit_keeps | apply State.heldDown_keeps))

theorem State.scanLands_keeps {s : State} {code : Nat} {dr : List Bool} (h : s.Keeps p b) : (State.scanLands s code dr).Keeps p b := by
  unfold State.scanLands
  repeat' (with_reducible first
    | assumption | apply State.free_keeps | apply State.loadIr_keeps | apply State.emit_keeps | apply keeps_ite | split
    | (apply keeps_mk; first  | assumption | apply State.free_keeps | apply State.loadIr_keeps | apply State.emit_keeps))

theorem execTapExtestTrain_goes {dr : List Bool} {s : State} (h : s.Keeps p b) : GoesKeeping p b (execTapExtestTrain dr s) := by
  unfold execTapExtestTrain
  repeat' (with_reducible first | assumption | apply State.scanLands_keeps | apply goes_next)

theorem State.bridgeAccess_keeps {s : State} {write : Bool} {a : Nat} {v : Nat} (h : s.Keeps p b) :
    (((State.bridgeAccess s write a v)).2.1).Keeps p b := by
  unfold State.bridgeAccess
  repeat' (with_reducible first
    | assumption | apply State.refused_keeps | apply State.winWrite_keeps | apply State.winRead_keeps
    | apply State.ckptWatch_keeps | apply State.store_keeps | apply State.fetch_keeps | apply keeps_foldl | apply keeps_ite
    | apply keeps_ite_fst | apply keeps_ite_snd | apply keeps_ite_mid
    | (apply keeps_mk; first  | assumption | apply State.refused_keeps | apply State.winWrite_keeps | apply State.winRead_keeps | apply State.ckptWatch_keeps | apply State.store_keeps | apply State.fetch_keeps | apply keeps_ite | (split <;> first | done | (rename_i heq; obtain ⟨rfl, rfl⟩ := pair_eq heq) | (rename_i heq; obtain ⟨rfl, rfl, rfl⟩ := triple_eq heq) | skip))
    | dsimp only | intro _ _ _
    | (split <;> first | done | (rename_i heq; obtain ⟨rfl, rfl⟩ := pair_eq heq) | (rename_i heq; obtain ⟨rfl, rfl, rfl⟩ := triple_eq heq) | skip))

theorem execTapReset_goes {s : State} (h : s.Keeps p b) : GoesKeeping p b (execTapReset s) := by
  unfold execTapReset
  repeat' (with_reducible first | assumption | apply goes_next | apply keeps_ite | split | (apply keeps_mk; first  | assumption))

theorem execTapSamplePreload_goes {dr : List Bool} {s : State} (h : s.Keeps p b) : GoesKeeping p b (execTapSamplePreload dr s) := by
  unfold execTapSamplePreload
  repeat' (with_reducible first | assumption | apply State.scanLands_keeps | apply goes_next)

theorem execTapExtest_goes {dr : List Bool} {s : State} (h : s.Keeps p b) : GoesKeeping p b (execTapExtest dr s) := by
  unfold execTapExtest
  repeat' (with_reducible first | assumption | apply State.scanLands_keeps | apply goes_next)

theorem State.scanFixed_keeps {s : State} {code : Nat} {captured : List Bool} {dr : List Bool} (h : s.Keeps p b) :
    (State.scanFixed s code captured dr).Keeps p b := by
  unfold State.scanFixed
  repeat' (with_reducible first | assumption | apply State.emit_keeps | apply State.loadIr_keeps)

theorem execTapClamp_goes {dr : List Bool} {s : State} (h : s.Keeps p b) : GoesKeeping p b (execTapClamp dr s) := by
  unfold execTapClamp
  repeat' (with_reducible first | assumption | apply State.scanFixed_keeps | apply goes_next)

theorem execTapIdcode_goes {dr : List Bool} {s : State} (h : s.Keeps p b) : GoesKeeping p b (execTapIdcode dr s) := by
  unfold execTapIdcode
  repeat' (with_reducible first | assumption | apply State.scanFixed_keeps | apply goes_next)

theorem execTapExtestPulse_goes {dr : List Bool} {s : State} (h : s.Keeps p b) : GoesKeeping p b (execTapExtestPulse dr s) := by
  unfold execTapExtestPulse
  repeat' (with_reducible first | assumption | apply State.scanLands_keeps | apply goes_next)

theorem execTapBypass_goes {dr : List Bool} {s : State} (h : s.Keeps p b) : GoesKeeping p b (execTapBypass dr s) := by
  unfold execTapBypass
  repeat' (with_reducible first | assumption | apply State.scanFixed_keeps | apply goes_next)

theorem execTapHighz_goes {dr : List Bool} {s : State} (h : s.Keeps p b) : GoesKeeping p b (execTapHighz dr s) := by
  unfold execTapHighz
  repeat' (with_reducible first | assumption | apply State.scanFixed_keeps | apply goes_next)

theorem State.bridge_keeps {s : State} {write : Bool} {a : Nat} {v : Nat} (h : s.Keeps p b) : (State.bridge s write a v).Keeps p b := by
  unfold State.bridge
  repeat' (with_reducible first
    | assumption | apply State.scanFixed_keeps | apply State.free_keeps | apply State.bridgeAccess_keeps | apply keeps_ite
    | (apply keeps_mk; first  | assumption | apply State.scanFixed_keeps | apply State.free_keeps | apply State.bridgeAccess_keeps | split)
    | split | dsimp only | intro _ _ _ | intro _ _)

theorem execDbgBridgeWrite_goes {a : BitVec 44} {v : Word} {s : State} (h : s.Keeps p b) : GoesKeeping p b (execDbgBridgeWrite a v s) := by
  unfold execDbgBridgeWrite
  repeat' (with_reducible first | assumption | apply State.bridge_keeps | apply goes_next)

theorem execDbgBridgeRead_goes {a : BitVec 44} {s : State} (h : s.Keeps p b) : GoesKeeping p b (execDbgBridgeRead a s) := by
  unfold execDbgBridgeRead
  repeat' (with_reducible first | assumption | apply State.bridge_keeps | apply goes_next)

end Sys2Proof.Machine
end

