-- ==== Sys2Proof/WellFormed.lean ====
section
/-!
DEFINITION. The form in which the outside sends commands: reserved bits zero, lengths as their tables state, one element for each
rail, die, lane or cell. The machine gives every command a meaning, well-formed or not.
-/

namespace Sys2Proof

/-- The bits set in a member mask. -/
def setBits (mask : BitVec 32) : Nat := ((List.range 32).filter fun i => mask.getLsbD i).length

/-- The reserved bits of a request header are zero and LEN is at most 4,096 (Table 10-2). -/
def Req.wf (q : Req) : Bool :=
  decide (q.opf.toNat < 0x20 ∨ q.opf.toNat < 0x100 ∧ q.len = 64) && decide (q.flags.toNat < 0x20) && decide (q.orig.toNat < 0x20) &&
    decide (q.orig.toNat % 8 < 4) && decide (q.src.toNat < 2 ^ 14) && decide (q.dst.toNat < 2 ^ 14) &&
    decide (q.tag.toNat < 5120) && decide (q.addr.toNat < 2 ^ 44) && decide (q.len.toNat ≤ 4096)

/-- The payload has LEN bytes. -/
def Req.whole (q : Req) : Bool := decide (q.payload.length = q.len.toNat)

/-- The payload is a COLL header of a kind, with its data (Table 12-3). -/
def Req.isColl (q : Req) (ckind : Byte) : Bool := q.whole && decide (32 ≤ q.payload.length) && decide (q.payload[8]? = some ckind)

/-- The reserved bits of a response header are zero (Table 10-4). -/
def Rsp.wf (p : Rsp) : Bool :=
  decide (p.flags.toNat < 2) && decide (p.src.toNat < 2 ^ 14) && decide (p.dst.toNat < 2 ^ 14) && decide (p.tag.toNat < 5120) &&
    decide (p.data.length ≤ 4096)

/-- The reserved bits of a header are zero. -/
def Cargo.wf : Cargo → Bool
  | .request _ q => q.wf
  | .response _ p => p.wf

/-- The reserved bits of a route prefix and of the header behind it are zero (Table 11-4). -/
def Packet.wf (k : Packet) : Bool := decide (k.rflags.toNat < 0x40) && decide (k.target.toNat < 2 ^ 14) && k.cargo.wf

/-- The messages of a key exchange have the lengths of their schemes (R326). -/
def KeyMsg.wf (m : KeyMsg) : Bool :=
  decide (m.x25519.length = 32) && decide (m.mlkem.length = 1184) && decide (m.idEd.length = 32)

/-- A command is well formed. -/
def Instr.wf : Instr → Bool
  | .reqLoad q => q.wf && decide (q.payload = [])
  | .reqStore q => q.wf && q.whole
  | .reqAtomic q => q.wf && q.whole
  | .reqAtomicP q => q.wf && q.whole
  | .reqBlockAdd q => q.wf && q.whole
  | .reqMcast q mask seqs => q.wf && q.whole && decide (seqs.length = setBits mask)
  | .reqCollContrib q => q.wf && q.isColl 1
  | .reqCollResult q => q.wf && q.isColl 2
  | .reqCollNotice q => q.wf && q.isColl 3
  | .reqCollFailed q => q.wf && q.isColl 4
  | .reqFloorUpd q => q.wf && decide (q.payload = []) && decide (q.seq = 0) && decide (q.tag = 0)
  | .reqNodeReport q => q.wf && q.whole && decide (q.payload.length = 32)
  | .rspData p => p.wf && decide (p.err = 0)
  | .rspAck p => p.wf && decide (p.data = []) && decide (p.err = 0)
  | .rspErr p => p.wf && decide (p.data = []) && decide (p.err ≠ 0)
  | .rxPowerDetect _ power => decide (power.length = 8)
  | .keyExchange _ m => m.wf
  | .quantum rises => decide (rises.length = 14)
  | .pwrLoop mv da mw => decide (mv.length = 14) && decide (da.length = 14) && decide (mw.length = 6)
  | .ageSample ms => decide (ms.length = 12)
  | .ageEval hbm links _ => hbm.all (fun x => decide (x.2.length = 20)) && links.all (fun x => decide (x.2.length = 32))
  | .fwpImageStaged data => decide (data.length < 2 ^ 32)
  | .hostXferChunk data => decide (data.length ≤ 65552)
  | .flashProgram _ n data _ => decide (data.length = n.toNat)
  | .tapExtest dr => decide (dr.length = 107)
  | .tapIdcode dr => decide (dr.length = 32)
  | .tapSamplePreload dr => decide (dr.length = 107)
  | .tapClamp dr => decide (dr.length = 1)
  | .tapHighz dr => decide (dr.length = 1)
  | .tapExtestPulse dr => decide (dr.length = 107)
  | .tapExtestTrain dr => decide (dr.length = 107)
  | .tapBypass dr => decide (dr.length = 1)
  | .reqObjPut q => q.wf && q.whole
  | .reqObjGet q => q.wf && q.whole
  | .jobLoad _ _ _ _ _ => true
  | .jobLoadComplete => true
  | .run _ => true
  | .runN _ _ => true
  | .hold _ => true
  | .endJob _ _ => true
  | .ckpt _ _ => true
  | .armCkpt _ _ _ => true
  | .attach _ _ => true
  | .restore _ _ => true
  | .restoreReadDone => true
  | .abort _ => true
  | .abortComplete => true
  | .quietEnd => true
  | .segmentStart _ => true
  | .segmentDone _ => true
  | .schEvtPop => true
  | .schHb => true
  | .heartbeatLapse => true
  | .schHoldAt _ _ => true
  | .seedWrite _ _ _ => true
  | .ckptShardsDurable => true
  | .ckptManifestPut => true
  | .ckptCommit => true
  | .ckptTimeout => true
  | .fetch _ => true
  | .mma _ => true
  | .wmma _ => true
  | .drain _ => true
  | .ladd _ => true
  | .drainAccept _ => true
  | .vld _ => true
  | .vst _ => true
  | .take _ => true
  | .rel _ => true
  | .loop _ => true
  | .vecMov _ => true
  | .vecAdd _ => true
  | .vecSub _ => true
  | .vecMul _ => true
  | .vecFma _ => true
  | .vecMin _ => true
  | .vecMax _ => true
  | .vecAbs _ => true
  | .vecNeg _ => true
  | .relu _ => true
  | .vecClamp _ => true
  | .vecCmplt _ => true
  | .vecCmpeq _ => true
  | .sel _ => true
  | .vecAnd _ => true
  | .vecOr _ => true
  | .vecXor _ => true
  | .vecShl _ => true
  | .vecShra _ => true
  | .vecDiv _ => true
  | .vecSqrt _ => true
  | .exp2 _ => true
  | .log2 _ => true
  | .rsum _ => true
  | .rmax _ => true
  | .rmin _ => true
  | .clear _ => true
  | .gss _ => true
  | .gsp _ => true
  | .factor _ => true
  | .solve _ => true
  | .resid _ => true
  | .corr _ => true
  | .extadd _ => true
  | .panel _ => true
  | .update _ => true
  | .aluAdd _ _ _ _ => true
  | .aluSub _ _ _ _ => true
  | .aluAnd _ _ _ _ => true
  | .aluOr _ _ _ _ => true
  | .aluXor _ _ _ _ => true
  | .aluAndn _ _ _ _ => true
  | .aluShl _ _ _ _ => true
  | .aluShrl _ _ _ _ => true
  | .aluShra _ _ _ _ => true
  | .aluCmpeq _ _ _ _ => true
  | .aluCmplt _ _ _ _ => true
  | .aluCmpltu _ _ _ _ => true
  | .aluMullo _ _ _ _ => true
  | .aluMulhi _ _ _ _ => true
  | .aluMulhiu _ _ _ _ => true
  | .aluDivs _ _ _ _ => true
  | .aluDivu _ _ _ _ => true
  | .aluMods _ _ _ _ => true
  | .aluModu _ _ _ _ => true
  | .aluMin _ _ _ _ => true
  | .aluMax _ _ _ _ => true
  | .aluMinu _ _ _ _ => true
  | .aluMaxu _ _ _ _ => true
  | .aluClz _ _ _ _ => true
  | .aluCtz _ _ _ _ => true
  | .aluPopc _ _ _ _ => true
  | .iadd _ _ _ _ => true
  | .iand _ _ _ _ => true
  | .ior _ _ _ _ => true
  | .ixor _ _ _ _ => true
  | .ishfShl _ _ _ _ => true
  | .ishfShrl _ _ _ _ => true
  | .ishfShra _ _ _ _ => true
  | .icmplt _ _ _ _ => true
  | .ihi _ _ _ => true
  | .pchi _ _ _ => true
  | .ld8s _ _ _ _ => true
  | .ld8u _ _ _ _ => true
  | .ld16s _ _ _ _ => true
  | .ld16u _ _ _ _ => true
  | .ld32s _ _ _ _ => true
  | .ld32u _ _ _ _ => true
  | .ld64 _ _ _ _ => true
  | .st8 _ _ _ _ => true
  | .st16 _ _ _ _ => true
  | .st32 _ _ _ _ => true
  | .st64 _ _ _ _ => true
  | .fld32 _ _ _ _ => true
  | .fld64 _ _ _ _ => true
  | .fst32 _ _ _ _ => true
  | .fst64 _ _ _ _ => true
  | .brz _ _ _ _ => true
  | .call _ _ _ => true
  | .callr _ _ _ _ => true
  | .amoSwap _ _ _ _ _ _ => true
  | .amoAdd _ _ _ _ _ _ => true
  | .amoAnd _ _ _ _ _ _ => true
  | .amoOr _ _ _ _ _ _ => true
  | .amoXor _ _ _ _ _ _ => true
  | .amoMin _ _ _ _ _ _ => true
  | .amoMax _ _ _ _ _ _ => true
  | .amoMinu _ _ _ _ _ _ => true
  | .amoMaxu _ _ _ _ _ _ => true
  | .cas _ _ _ _ _ _ => true
  | .amoFadd _ _ _ _ _ _ => true
  | .addp _ _ _ _ _ _ => true
  | .ldacq _ _ _ _ _ _ => true
  | .strel _ _ _ _ _ _ => true
  | .fenceL _ => true
  | .fenceG _ => true
  | .halt _ => true
  | .yield _ => true
  | .fret _ => true
  | .fadd _ _ _ _ _ => true
  | .fsub _ _ _ _ _ => true
  | .fmul _ _ _ _ _ => true
  | .fdiv _ _ _ _ _ => true
  | .fsqrt _ _ _ _ _ => true
  | .fmin _ _ _ _ _ => true
  | .fmax _ _ _ _ _ => true
  | .fcpys _ _ _ _ _ => true
  | .fcmpeq _ _ _ _ _ => true
  | .fcmplt _ _ _ _ _ => true
  | .fcmple _ _ _ _ _ => true
  | .fcvt _ _ _ _ _ => true
  | .ftox _ _ _ _ => true
  | .xtof _ _ _ _ => true
  | .fmadd _ _ _ _ _ _ _ => true
  | .csrRead _ _ _ => true
  | .csrWrite _ _ _ _ => true
  | .wadd _ _ _ _ _ _ _ => true
  | .wsub _ _ _ _ _ _ _ => true
  | .wmul _ _ _ _ _ _ _ => true
  | .wdiv _ _ _ _ _ _ _ => true
  | .wsqrt _ _ _ _ _ _ _ => true
  | .wmin _ _ _ _ _ _ _ => true
  | .wmax _ _ _ _ _ _ _ => true
  | .wabs _ _ _ _ _ _ _ => true
  | .wneg _ _ _ _ _ _ _ => true
  | .wsgnj _ _ _ _ _ _ _ => true
  | .wintAdd _ _ _ _ _ _ _ => true
  | .wintSub _ _ _ _ _ _ _ => true
  | .wmullo _ _ _ _ _ _ _ => true
  | .wmulhi _ _ _ _ _ _ _ => true
  | .wmulhiu _ _ _ _ _ _ _ => true
  | .wintMin _ _ _ _ _ _ _ => true
  | .wintMax _ _ _ _ _ _ _ => true
  | .wminu _ _ _ _ _ _ _ => true
  | .wmaxu _ _ _ _ _ _ _ => true
  | .wand _ _ _ _ _ _ _ => true
  | .wor _ _ _ _ _ _ _ => true
  | .wxor _ _ _ _ _ _ _ => true
  | .wandn _ _ _ _ _ _ _ => true
  | .wshl _ _ _ _ _ _ _ => true
  | .wshr _ _ _ _ _ _ _ => true
  | .wshra _ _ _ _ _ _ _ => true
  | .wcmpEq _ _ _ _ _ _ _ => true
  | .wcmpNe _ _ _ _ _ _ _ => true
  | .wcmpLt _ _ _ _ _ _ _ => true
  | .wcmpLe _ _ _ _ _ _ _ => true
  | .wcmpLtu _ _ _ _ _ _ _ => true
  | .wcmpLeu _ _ _ _ _ _ _ => true
  | .wcmpUnord _ _ _ _ _ _ _ => true
  | .wmov _ _ _ _ _ _ => true
  | .wbcx _ _ _ _ _ _ => true
  | .wbcf _ _ _ _ _ _ => true
  | .wextx _ _ _ _ _ _ _ => true
  | .winsx _ _ _ _ _ _ _ => true
  | .wperm _ _ _ _ _ _ _ => true
  | .wredadd _ _ _ _ _ _ => true
  | .wredmax _ _ _ _ _ _ => true
  | .wredmin _ _ _ _ _ _ => true
  | .kmovx _ _ _ => true
  | .xmovk _ _ _ => true
  | .kand _ _ _ _ => true
  | .kor _ _ _ _ => true
  | .kxor _ _ _ _ => true
  | .knot _ _ _ => true
  | .wfma _ _ _ _ _ _ _ _ => true
  | .wfms _ _ _ _ _ _ _ _ => true
  | .wfnma _ _ _ _ _ _ _ _ => true
  | .wfnms _ _ _ _ _ _ _ _ => true
  | .mulwl _ _ _ _ _ _ _ => true
  | .mulwh _ _ _ _ _ _ _ => true
  | .mulwlu _ _ _ _ _ _ _ => true
  | .mulwhu _ _ _ _ _ _ _ => true
  | .fmulwl _ _ _ _ _ _ _ => true
  | .fmulwh _ _ _ _ _ _ _ => true
  | .fmawl _ _ _ _ _ _ _ => true
  | .fmawh _ _ _ _ _ _ _ => true
  | .dot4 _ _ _ _ _ _ _ => true
  | .dot4u _ _ _ _ _ _ _ => true
  | .dot4su _ _ _ _ _ _ _ => true
  | .dot2 _ _ _ _ _ _ _ => true
  | .dot8 _ _ _ _ _ _ _ => true
  | .dot4w _ _ _ _ _ _ _ => true
  | .fdot2h _ _ _ _ _ _ _ => true
  | .fdot2b _ _ _ _ _ _ _ => true
  | .fdot2s _ _ _ _ _ _ _ => true
  | .wcvt _ _ _ _ _ _ _ _ => true
  | .wld _ _ _ _ _ => true
  | .wst _ _ _ _ _ => true
  | .wgsGather _ _ _ _ _ _ _ => true
  | .wgsScatter _ _ _ _ _ _ _ => true
  | .wphilox _ _ _ _ _ _ _ => true
  | .requestResend _ _ => true
  | .deadTarget _ _ => true
  | .deadFallback _ => true
  | .ledgerExpiry _ _ _ => true
  | .floorUpdSend _ _ => true
  | .tailAtomic _ => true
  | .ringPut _ => true
  | .ringGet _ => true
  | .ringMcast _ => true
  | .ringReduce _ => true
  | .ringAllreduce _ => true
  | .ringCollReduce _ => true
  | .ringBcast _ => true
  | .ringBarrier _ => true
  | .ringDescDone _ _ => true
  | .hredCloseReply => true
  | .collWatchdog _ => true
  | .orderedFoldDone => true
  | .scrubAccess _ _ => true
  | .ceRateEval => true
  | .sliceStart _ => true
  | .sliceEnd _ _ _ => true
  | .retrainStart _ _ => true
  | .retrainDrainDone _ => true
  | .retrainTrainDone _ _ _ => true
  | .retrainReplayDone _ => true
  | .evacuationDone _ => true
  | .linkFrame _ f => decide (f.bytes.length = 5140)
  | .packetForward _ k _ => k.wf
  | .linkStateRecord _ _ _ => true
  | .fecRateEval _ => true
  | .retuneEnd _ _ => true
  | .lightReady _ => true
  | .laneLock _ => true
  | .codewordLock _ => true
  | .identityRecord _ r => decide (r.credits.length = 7)
  | .portStateTimeout _ => true
  | .lossOfLight _ => true
  | .fportRetry _ => true
  | .laserRemove _ => true
  | .laserInsert _ _ => true
  | .adaptEnable => true
  | .bootPortRelease => true
  | .relayRead _ _ _ => true
  | .relayWrite _ _ _ _ => true
  | .hbrRptPop => true
  | .railFault _ => true
  | .currentClamp _ => true
  | .currentClampRelease _ => true
  | .sensorSample _ _ => true
  | .thermalClampRelease _ => true
  | .refclkLoss _ => true
  | .refclkFabReturn => true
  | .aonReset => true
  | .powerOnReset => true
  | .warmReset => true
  | .resetRelease _ _ => true
  | .hostBridgeReset => true
  | .settingsReadDone _ => true
  | .ageLogReadDone => true
  | .hbmTrainDone _ _ => true
  | .hbmScrubDone => true
  | .fwpLoad _ _ _ => true
  | .fwpVerifyDone => true
  | .fwpWatchdog _ _ => true
  | .fwpCrash _ _ _ => true
  | .fwpRestartHashDone _ => true
  | .heldClear _ _ => true
  | .cmdTakeUp _ => true
  | .logDrain => true
  | .logRead _ _ => true
  | .secIdentity => true
  | .secOpen => true
  | .secFinish => true
  | .secClose => true
  | .secReadout => true
  | .halfOpenTimeout => true
  | .sealOpen => true
  | .lcyProvision _ => true
  | .lcyDeploy _ => true
  | .lcyService _ => true
  | .lcyRetire _ => true
  | .clearIn _ _ _ _ => true
  | .clearOut _ _ _ _ => true
  | .sealedIn _ _ _ _ => true
  | .sealedOut _ _ _ _ => true
  | .flashRead _ _ => true
  | .flashErase _ _ => true
  | .errCodeClear _ => true
  | .registerWrite _ _ _ _ => true
  | .bcastRead _ _ => true
  | .registerReadRefused _ _ _ => true
  | .setEndpointId _ _ => true
  | .getEndpointId => true
  | .getMctpVersionSupport _ => true
  | .getMessageTypeSupport => true
  | .getTid => true
  | .getPldmVersion _ => true
  | .getPldmTypes => true
  | .getPldmCommands _ => true
  | .getPdrRepositoryInfo => true
  | .getPdr _ => true
  | .getSensorReading _ => true
  | .pollForPlatformEventMessage => true
  | .smbusAlertResponse => true
  | .dbgBridgeRead _ => true
  | .dbgBridgeWrite _ _ => true
  | .tapReset => true
  | .presenceLapse => true
  | .laserFault _ => true
  | .perstNRise => true
  | .pcieLinkUp _ _ _ => true
  | .refclkPcieReturn => true
  | .clampLevelRestore => true
  | .marginScanDone _ _ _ _ => true

/-- The well-formed commands. -/
abbrev WellFormed (i : Instr) : Prop := i.wf = true

end Sys2Proof
end

