-- ==== Sys2Proof/Tests/Slice0.lean ====
section
/-!
SUPPORT. Small tests: ill-formed commands, one step of a few commands against the manual, and for each obligation a state and operands
that meet its hypotheses.
-/

namespace Sys2Proof.Tests

open Sys2Proof.Machine

set_option Elab.async false

/-! ### States -/

/-- A node out of reset whose six processors hold no page. -/
def live : State :=
  [tyPwr, tyHbmc, tyFxp, tySec, tySch, tyDbg].foldl (fun t ty => t.setHdr ty 0 hHoldStat 0)
    { boot := { held := false }, pins := { resetN := true, pwrok := true } }

/-- The same node with every gated domain running and no LLM region a cache. -/
def lit (s : State) : State :=
  { (upTo 4).foldl (fun t i => t.wr rLlmRegMode 0xFFFF i) s with
    power := { s.power with up := gatedDomains.map fun d => (d, domUnits d), wanted := gatedDomains } }

/-- Memory that holds bytes from an address and nothing else. -/
def memOf (a : Nat) (bs : List Byte) : List Host.Cell :=
  ((upTo bs.length).map fun i => (a + i, bs.getD i 0)).filter fun c => c.2 ≠ 0

/-- A job of two nodes with a 4 KiB image at 0x1000. -/
def job0 : Job := { base := 0x1000, len := 0x1000, sess := 1, collCount := 4, nodes := [0, 1] }

/-- The node with that job in a job state. -/
def jobIn (st : Nat) : State := ({ live with job := some job0 } : State).setJobState st

/-- A thread in the image: x1 points outside the image, x2 to node 1, x3 into the image, x4 to the register window, x5 above the
node field, x6 is 0xFFFF_FFFF_FFFF_FFFF. -/
def thread0 : Thread :=
  { run := .running, pc := 0x1100
    x := [(1, 0x8000), (2, 0x100000008000), (3, 0x1100), (4, 0xF0000000000), (5, 0x400000000000000), (6, BitVec.allOnes 64)]
    k := [(1, 0x5)] }

/-- The node with thread 5 so, a word at 0x1100, and the lines of both places of the thread's in the caches of its core. -/
def core (th : Thread) (w : Nat) : State :=
  { lit (jobIn stRunning) with
    threads := [(5, th)], mem := memOf 0x1100 (bytesLE 4 w), dir := [(0x1100 / 64, [0]), (0x8000 / 64, [0])] }

/-- Thread 5 of a state issues the word. -/
def issuesIn (s : State) (w ign : Nat) : Bool :=
  let f := (s.coreRead 0 (s.thread 5).pc.toNat 4).1
  s.threadReady 5 && s.domainsRun [3, 4] && s.hbmRuns && s.fetchOk 5 && !reservedWord f && sameWord f w ign

theorem canRun_of {s : State} {w ign : Nat} (h : issuesIn s w ign = true) : s.canRun 5 w ign := by
  simp only [issuesIn, Bool.and_eq_true, Bool.not_eq_true'] at h
  exact ⟨h.1.1.1.1.1, h.1.1.1.1.2, h.1.1.1.2, h.1.1.2, h.1.2, h.2⟩

/-- Every word of a list is issued by the thread at which it stands. -/
def allIssue (th : Thread) (ign : Nat) (ws : List Nat) : Bool := ws.all fun w => issuesIn (core th w) w ign

theorem canRun_all {th : Thread} {ign : Nat} {ws : List Nat} (h : allIssue th ign ws = true) :
    ∀ w ∈ ws, (core th w).canRun 5 w ign := fun w m => canRun_of (List.all_eq_true.mp h w m)

/-- The next state of a command, or the old one. -/
def after (c : Instr) (s : State) : State :=
  match exec c s with
  | .next t => t
  | .fault _ | .refused _ => s

/-! ### The machine as a whole -/

theorem witness_StepRunsFrontCommand : ({ live with pending := [.schHb] } : State).pending = .schHb :: [] ∧ live.pending = [] :=
  ⟨rfl, rfl⟩

theorem witness_EveryStepKeepsMemoryAndQueue : ({ live with mem := [(7, 1#8)], pending := [.schHb] } : State).Inv := by
  unfold State.Inv; decide +kernel

/-! ### Cores -/

theorem witness_CoreRegisterResults : ∀ w ∈ ([0, 1, 2, 3, 4, 5, 6, 7, 8, 9, 10, 11, 12, 13, 14, 19, 20, 21, 22].map (encReg 0x01 9 6 6)),
    (core thread0 w).canRun 5 w := canRun_all (by decide +kernel)

theorem witness_CoreDivideCountImmediate :
    ∀ w ∈ ([15, 16, 17, 18, 23, 24, 25].map (encReg 0x01 9 6 7)) ++ ([0x02, 0x03, 0x04, 0x05, 0x07].map fun o => encImm o 9 6 0xFFFF) ++
      [encImm 0x06 9 6 63, encImm 0x06 9 6 127, encImm 0x06 9 6 191, encJmp 0x08 9 0x1FFFFF, encJmp 0x09 9 0x1FFFFF],
    (core thread0 w).canRun 5 w := canRun_all (by decide +kernel)

/-- A BRZ on x7, whose value is 0, that meets its condition and one that does not, one of a reserved condition, and the others. -/
theorem witness_CoreControlFlow :
    (∀ w ∈ [encBr 0x19 7 0 0x1FFFF, encBr 0x19 7 1 2, encBr 0x19 6 15 2, encJmp 0x1F 9 0x1FFFFF, encImm 0x20 9 1 0xFFFF,
      encReg 0x22 0 0 0 0x021, encReg 0x22 0 0 0 0x030], (core thread0 w).canRun 5 w) ∧
    (core { thread0 with inHandler := true } (encReg 0x22 0 0 0 0x030)).canRun 5 (encReg 0x22 0 0 0 0x030) ∧
    (thread0.getX 7).toInt = 0 ∧ (thread0.getX 6).toInt = -1 ∧ thread0.inHandler = false :=
  ⟨canRun_all (by decide +kernel), canRun_of (by decide +kernel), by decide +kernel⟩

/-- Offset −1 word of a branch that is met (Table 7-6). -/
theorem test_brz_back :
    ((after (.brz 5 7 0 (BitVec.allOnes 17)) (core thread0 (encBr 0x19 7 0 0x1FFFF))).thread 5).pc = 0x10FC := by decide +kernel

/-- Condition 6 is always met. -/
theorem test_brz_always : ((after (.brz 5 6 6 2) (core thread0 (encBr 0x19 6 6 2))).thread 5).pc = 0x1108 := by decide +kernel

/-- ADD wraps; DIVS by 0 gives 0, MODS by 0 the dividend. -/
theorem test_alu_corners :
    ((after (.aluAdd 5 9 6 6) (core thread0 (encReg 0x01 9 6 6 0))).thread 5).getX 9 = BitVec.allOnes 64 - 1 ∧
    ((after (.aluDivs 5 9 6 7) (core thread0 (encReg 0x01 9 6 7 15))).thread 5).getX 9 = 0 ∧
    ((after (.aluMods 5 9 6 7) (core thread0 (encReg 0x01 9 6 7 17))).thread 5).getX 9 = BitVec.allOnes 64 := by decide +kernel

/-- CLZ of 0 is 64, a shift takes 6 bits of its count. -/
theorem test_alu_counts : ((after (.aluClz 5 9 7 0) (core thread0 (encReg 0x01 9 7 0 23))).thread 5).getX 9 = 64 ∧
    ((after (.aluShl 5 9 3 6) (core thread0 (encReg 0x01 9 3 6 6))).thread 5).getX 9 = 0 := by decide +kernel

/-- The worked example of chapter 7: DOT8 of w8 and w9 into w4 under k1. -/
theorem test_encoding : encW 0x39 4 8 9 1 false .i8 8 = 0xE4884908 := by decide

/-- A word that is another instruction leaves the node, a stopped core holds its thread. -/
theorem test_fetch : reservedWord 0 = true ∧
    after (.aluAdd 5 9 6 6) (core thread0 (encReg 0x01 9 6 6 1)) = core thread0 (encReg 0x01 9 6 6 1) ∧
    after (.aluAdd 5 9 6 6) { core thread0 (encReg 0x01 9 6 6 0) with power := {} } =
      { core thread0 (encReg 0x01 9 6 6 0) with power := {} } := by decide +kernel

/-- Each CSR of Table 7-7 read, and each written; a reserved value and a reserved CSR. -/
theorem witness_CoreCsrAccess :
    (∀ w ∈ [0x001, 0x010, 0x011, 0x012, 0x013, 0x020, 0x021, 0x022, 0x040, 0x05F, 0x002, 0x060].map (encImm 0x25 9 0),
      (core thread0 w).canRun 5 w noRs1) ∧
    (∀ w ∈ [0x8001, 0x8020, 0x8021, 0x8022, 0x8010, 0x8FFF].map (encImm 0x25 9 7), (core thread0 w).canRun 5 w) ∧
    (core thread0 (encImm 0x25 9 6 0x8001)).canRun 5 (encImm 0x25 9 6 0x8001) ∧
    ¬ ((thread0.getX 6).toNat % 8 ≤ 3) ∧ (thread0.getX 7).toNat % 8 ≤ 3 ∧ (thread0.getX 7).toNat / 8 % 32 = 0 ∧
    (thread0.getX 7).toNat < 2 ^ 15 :=
  ⟨canRun_all (by decide +kernel), canRun_all (by decide +kernel), canRun_of (by decide +kernel), by decide +kernel⟩

/-- An address of a state leads to local memory that runs. -/
theorem leads_of {s : State} {addr : Word} {a n : Nat} (h : (decide (s.coreAddr addr n = .local a) && s.addrRuns a) = true) :
    s.leads addr a n := by
  simp only [Bool.and_eq_true, decide_eq_true_eq] at h
  exact h

theorem reaches_of {s : State} {addr : Word} {a n : Nat}
    (h : (decide (s.coreAddr addr n = .local a) && s.addrRuns a && decide (s.lineState a = .plain 0)) = true) : s.reaches addr a n := by
  simp only [Bool.and_eq_true, decide_eq_true_eq] at h
  exact ⟨h.1, 0, h.2⟩

/-- The words of the loads, with the thread that reads 0x8000 to 0x8007 and one that reads the register window. -/
theorem witness_CoreLocalLoads :
    (∀ w ∈ [0x0A, 0x0B, 0x0C, 0x0D, 0x0E, 0x0F, 0x15, 0x10, 0x16].map fun o => encImm o 9 1 0, (core thread0 w).canRun 5 w ∧
      (core thread0 w).leads 0x8000 0x8000 1 ∧ (core thread0 w).leads 0x8000 0x8000 2 ∧ (core thread0 w).leads 0x8000 0x8000 4 ∧
      (core thread0 w).leads 0x8000 0x8000 8) ∧
    (∀ w ∈ [0x10, 0x0F].map fun o => encImm o 9 4 0, (core thread0 w).canRun 5 w ∧ (core thread0 w).coreAddr 0xF0000000000 8 = .window 0 ∧
      (core thread0 w).coreAddr 0xF0000000000 4 = .window 0) ∧ winExists 0 = true ∧ winBcast 0 = false ∧ winOff 0 < 0x400 ∧
    (core thread0 0).coreAddr 0xFFFBFFFFF8 8 = .local 0xFFFBFFFFF8 ∧ (core thread0 0).coreAddr 0xFFFC000000 8 = .bad eRange :=
  ⟨fun w m => ⟨canRun_all (ws := [0x0A, 0x0B, 0x0C, 0x0D, 0x0E, 0x0F, 0x15, 0x10, 0x16].map fun o => encImm o 9 1 0) (by decide +kernel) w m,
      leads_of (by revert w; decide +kernel), leads_of (by revert w; decide +kernel), leads_of (by revert w; decide +kernel),
      leads_of (by revert w; decide +kernel)⟩,
    fun w m => ⟨canRun_all (ws := [0x10, 0x0F].map fun o => encImm o 9 4 0) (by decide +kernel) w m, by revert w; decide +kernel⟩,
    by decide +kernel⟩

theorem witness_CoreLocalStores :
    (∀ w ∈ [0x11, 0x12, 0x13, 0x17, 0x14, 0x18].map fun o => encImm o 6 1 0, (core thread0 w).canRun 5 w ∧
      (core thread0 w).reaches 0x8000 0x8000 1 ∧ (core thread0 w).reaches 0x8000 0x8000 2 ∧ (core thread0 w).reaches 0x8000 0x8000 4 ∧
      (core thread0 w).reaches 0x8000 0x8000 8 ∧ (core thread0 w).hitsImage 0x8000 8 = false) ∧
    (core thread0 0).hitsImage 0xFF8 8 = false ∧ (core thread0 0).hitsImage 0x1FFF 1 = true ∧ (core thread0 0).hitsImage 0x2000 1 = false :=
  ⟨fun w m => ⟨canRun_all (ws := [0x11, 0x12, 0x13, 0x17, 0x14, 0x18].map fun o => encImm o 6 1 0) (by decide +kernel) w m,
      reaches_of (by revert w; decide +kernel), reaches_of (by revert w; decide +kernel), reaches_of (by revert w; decide +kernel),
      reaches_of (by revert w; decide +kernel), by revert w; decide +kernel⟩,
    by decide +kernel⟩

/-- A pc behind the image, a word of no instruction and of another, a halted thread, a stopped core; addresses that trap. -/
theorem witness_CoreAccessFaults :
    let at_ := fun (s : State) => s.threadReady 5 = true ∧ s.domainsRun [3, 4] = true ∧ s.hbmRuns = true
    let word := fun (s : State) => (s.coreRead 0 (s.thread 5).pc.toNat 4).1
    let far := core { thread0 with pc := 0x2000 } 1
    let other := core thread0 (encReg 0x01 9 6 6 1)
    (at_ far ∧ far.fetchOk 5 = false) ∧
    (at_ (core thread0 1) ∧ (core thread0 1).fetchOk 5 = true ∧ reservedWord (word (core thread0 1)) = true) ∧
    (at_ other ∧ other.fetchOk 5 = true ∧ reservedWord (word other) = false ∧ word other ≠ encReg 0x01 9 6 6 0 ∧
      word other ≠ encReg 0x22 0 0 0 0x020) ∧
    (core { thread0 with run := .halted } 1).threadReady 5 = false ∧ ({ far with power := {} } : State).domainsRun [3, 4] = false ∧
    (thread0.getX 5).toNat / 2 ^ 58 ≠ 0 ∧ (thread0.getX 1 + 4).toNat % 8 ≠ 0 := by decide +kernel

theorem witness_CoreAccessFaults_access :
    (∀ w ∈ [encImm 0x10 9 5 0, encImm 0x14 9 5 0, encImm 0x14 9 4 0, encImm 0x10 9 4 0, encImm 0x14 9 3 0], (core thread0 w).canRun 5 w) ∧
    (thread0.getX 4).toNat % 8 = 0 ∧ (thread0.getX 4).toNat / 2 ^ 44 = (core thread0 0).nodeId ∧
    inRegWin ((thread0.getX 4).toNat % 2 ^ 44) 8 = true ∧
    (core thread0 0).coreAddr (BitVec.ofNat 64 (0xF0000000000 + (tySch * 2 ^ 21 + 2 ^ 26))) 8 = .window (tySch * 2 ^ 21 + 2 ^ 26) ∧
    winExists (tySch * 2 ^ 21 + 2 ^ 26) = true ∧ winBcast (tySch * 2 ^ 21 + 2 ^ 26) = true ∧
    (core thread0 (encImm 0x14 9 3 0)).leads (thread0.getX 3) 0x1100 8 ∧ (core thread0 0).hitsImage 0x1100 8 = true ∧
    inRegWin 0xFFFC000000 8 = false ∧ (core thread0 0).memOk 0xFFFC000000 8 = false :=
  ⟨canRun_all (by decide +kernel), by decide +kernel, by decide +kernel, by decide +kernel, by decide +kernel, by decide +kernel,
    by decide +kernel, leads_of (by decide +kernel), by decide +kernel⟩

/-- With ordered region 2 at 0x8000 to 0x81FF and its log area (R157). -/
def ordered (s : State) : State :=
  (((s.oregPut 2 0 (0x8000 + 2 ^ 63)).oregPut 2 1 0x8200).oregPut 2 2 0x80000).oregPut 2 3 0x100000

def amoWords (ops : List AmoOp) (rd : BitVec 5) : List Nat := ops.map fun o => encAmo o rd 1 6 0 true

theorem witness_CoreLocalAtomics :
    (∀ w ∈ amoWords [.swap, .add, .and, .or, .xor, .min, .max, .minu, .maxu, .cas, .fadd] 9, (core thread0 w).canRun 5 w ∧
      (core thread0 w).reaches (thread0.getX 1) 0x8000 8 ∧ (core thread0 w).reaches (thread0.getX 1) 0x8000 4 ∧
      (core thread0 w).hitsImage 0x8000 8 = false ∧ (core thread0 w).closeOf 0x8000 = none ∧ (core thread0 w).oregOf 0x8000 = none) ∧
    (1 : BitVec 2).getLsbD 1 = false ∧ (2 : BitVec 2).getLsbD 1 = true ∧ thread0.posted = none ∧
    (core thread0 0).pointsDone ((core thread0 0).fencePoints 5) = true :=
  ⟨fun w m => ⟨canRun_all (ws := amoWords [.swap, .add, .and, .or, .xor, .min, .max, .minu, .maxu, .cas, .fadd] 9) (by decide +kernel) w m,
      reaches_of (by revert w; decide +kernel), reaches_of (by revert w; decide +kernel), by revert w; decide +kernel⟩,
    by decide +kernel⟩

/-- An FADD on an ordered region with room in its log. -/
theorem witness_CoreLocalAtomics_ordered : let w := encAmo .fadd 9 1 6 0 true
    let s := ordered (core thread0 w)
    s.canRun 5 w ∧ s.reaches 0x8000 0x8000 8 ∧ s.hitsImage 0x8000 8 = false ∧ s.closeOf 0x8000 = none ∧ s.oregOf 0x8000 = some 2 ∧
    thread0.ordCount < 2 ^ 17 ∧ s.logUsed 2 (s.stackOf 0x8000) < s.logShare 2 (s.stackOf 0x8000) :=
  ⟨canRun_of (by decide +kernel), reaches_of (by decide +kernel), by decide +kernel⟩

theorem witness_CoreAcquireRelease :
    (∀ w ∈ amoWords [.addp, .ldacq, .strel] 0 ++ amoWords [.addp, .strel] 9, (core thread0 w).canRun 5 w ∧
      (core thread0 w).reaches (thread0.getX 1) 0x8000 8 ∧ (core thread0 w).hitsImage 0x8000 8 = false ∧
      (core thread0 w).closeOf 0x8000 = none ∧ (core thread0 w).pointsDone ((core thread0 w).fencePoints 5) = true) ∧
    thread0.posted = none ∧ (9 : BitVec 5) ≠ 0 :=
  ⟨fun w m => ⟨canRun_all (ws := amoWords [.addp, .ldacq, .strel] 0 ++ amoWords [.addp, .strel] 9) (by decide +kernel) w m,
      reaches_of (by revert w; decide +kernel), by revert w; decide +kernel⟩,
    by decide +kernel⟩

/-- A request of thread 5 to node 1. -/
def req5 : OutReq :=
  { typ := .store, req := { opf := 0, flags := 0, orig := 0, src := 0, dst := 1, tag := 0, sess := 1, seq := 1, ackFloor := 0, age := 0
                            addr := 0x8000, len := 8, payload := List.replicate 8 1 }
    owner := .thread 5, mcast := false, copies := [(1, 1)], tag := some 0, sent := some 0 }

/-- With `n` stores to node 1 unacknowledged. -/
def busy (n w : Nat) : State :=
  { core thread0 w with fxp := { reqs := (upTo n).map fun i => { req5 with copies := [(1, i + 1)], tag := some i }, next := [(2, n + 1)] } }

theorem witness_CoreAcquireRelease_waits : let w := encAmo .strel 0 1 6 0 true
    (busy 1 w).canRun 5 w ∧ (busy 1 w).pointsDone ((busy 1 w).fencePoints 5) = false ∧ (busy 1 w).accessRuns 0x8000 8 = true :=
  ⟨canRun_of (by decide +kernel), by decide +kernel⟩

theorem witness_CoreFencesHaltAndRemoteLoads :
    (∀ w ∈ [0x010, 0x011, 0x020].map (encReg 0x22 0 0 0), (core thread0 w).canRun 5 w) ∧
    (core thread0 0).pointsDone ((core thread0 0).fencePoints 5) = true ∧ thread0.posted = none ∧
    (∀ w ∈ [encImm 0x10 9 2 0, encImm 0x14 9 2 0, encAmo .add 9 2 6 0 true, encAmo .addp 0 2 6 0 true, encAmo .addp 0 2 6 1 true],
      (core thread0 w).canRun 5 w ∧ (core thread0 w).coreAddr (thread0.getX 2) 8 = .remote 1 0x8000 ∧
      (core thread0 w).threadCanIssue 5 = true) :=
  ⟨canRun_all (by decide +kernel), by decide +kernel, by decide +kernel, fun w m =>
    ⟨canRun_all (ws := [encImm 0x10 9 2 0, encImm 0x14 9 2 0, encAmo .add 9 2 6 0 true, encAmo .addp 0 2 6 0 true,
      encAmo .addp 0 2 6 1 true]) (by decide +kernel) w m, by revert w; decide +kernel⟩⟩

/-- With a store to node 1 unacknowledged, with sixteen, with a refusal kept, and with the fallback to node 1 taken. -/
theorem witness_CoreFencesHaltAndRemoteLoads_waits :
    let fence := encReg 0x22 0 0 0 0x011
    let halt := encReg 0x22 0 0 0 0x020
    let load := encImm 0x10 9 2 0
    let store := encImm 0x14 9 2 0
    let gone := fun (w : Nat) => ({ core thread0 w with fxp := { dead := [⟨1, 0, true⟩] } } : State)
    ((busy 1 fence).canRun 5 fence ∧ (busy 1 halt).canRun 5 halt ∧ (busy 1 fence).pointsDone ((busy 1 fence).fencePoints 5) = false) ∧
    ((busy 16 load).canRun 5 load ∧ (busy 16 load).threadCanIssue 5 = false ∧
      (busy 16 load).coreAddr 0x100000008000 8 = .remote 1 0x8000) ∧
    (core { thread0 with posted := some (eFenceTimeout, 0) } fence).canRun 5 fence ∧
    (gone load).canRun 5 load ∧ (gone store).canRun 5 store ∧ (gone load).coreAddr 0x100000008000 8 = .gone :=
  ⟨⟨canRun_of (by decide +kernel), canRun_of (by decide +kernel), by decide +kernel⟩,
    ⟨canRun_of (by decide +kernel), by decide +kernel, by decide +kernel⟩,
    canRun_of (by decide +kernel), canRun_of (by decide +kernel), canRun_of (by decide +kernel), by decide +kernel⟩

theorem witness_CoreFloatResults :
    ∀ w ∈ ((upTo 8).map fun n => encFpu .d n 9 1 2) ++ ((upTo 8).map fun n => encFpu .s n 9 1 2) ++
      [encMadd 0x24 9 1 2 3 3 0, encMadd 0x24 9 1 2 3 0 1], (core thread0 w).canRun 5 w := canRun_all (by decide +kernel)

theorem witness_CoreFloatMovesAndCompares :
    (∀ w ∈ [encFpu .d 8 9 1 2, encFpu .s 9 9 1 2, encFpu .d 10 9 1 2], (core thread0 w).canRun 5 w) ∧
    (∀ w ∈ [encFpu .d 12 9 1 0, encFpu .s 13 9 1 0, encFcvt .fp64 .int32 9 1, encFcvt .fp32 .fp64 9 1, encFcvt .int64 .fp64 9 1,
      encFcvt .int32 .fp64 9 1], (core thread0 w).canRun 5 w noRs2) :=
  ⟨canRun_all (by decide +kernel), canRun_all (by decide +kernel)⟩

/-- 1.0 + 2^-53 rounds to even; 0.0 times infinity is the canonical NaN with NV (R137). -/
theorem test_fp_corners : (fpAdd .fp64 .rne 0x3FF0000000000000 0x3CA0000000000000).1 = 0x3FF0000000000000 ∧
    (fpMul .fp64 .rne 0 0x7FF0000000000000).1 = 0x7FF8000000000000 ∧
    (fpMul .fp64 .rne 0 0x7FF0000000000000).2.nv = true := by decide +kernel

theorem witness_WideFloatResults : ElemType.f16.isFloat = true ∧
    ∀ w ∈ ([0, 1, 2, 3, 5, 6, 9].map (encW 0x30 9 1 2 1 true .f16)) ++ ([4, 7, 8].map (encW 0x30 9 1 0 1 true .f64)),
      (core thread0 w).canRun 5 w := ⟨rfl, canRun_all (by decide +kernel)⟩

theorem witness_WideFusedMultiplyAdd :
    ∀ w ∈ [encW3 0x34 9 1 2 3 1 true 0, encW3 0x35 9 1 2 3 1 false 1, encW3 0x36 9 1 2 3 0 true 2, encW3 0x37 9 1 2 3 1 true 3],
      (core thread0 w).canRun 5 w := canRun_all (by decide +kernel)

theorem witness_WideIntegerResults : ElemType.i8.isFloat = false ∧
    ∀ w ∈ (upTo 16).map (encW 0x31 9 1 2 1 true .i8), (core thread0 w).canRun 5 w := ⟨rfl, canRun_all (by decide +kernel)⟩

theorem witness_WideReservedFormsFault :
    (∀ w ∈ [encW 0x30 9 1 2 1 true .i8 0, encW 0x30 9 1 2 1 true .i8 4, encW 0x32 9 1 2 1 true .i8 6, encW 0x38 9 1 2 1 true .i8 4,
      encW 0x31 9 1 2 1 true .f64 0, encW 0x32 9 1 2 1 true .f64 4, encW 0x38 9 1 2 1 true .f64 0, encW 0x30 9 1 2 0 true .f64 7,
      encW 0x32 8 1 2 0 false .i8 0, encW 0x38 9 1 2 0 false .i64 0, encW 0x38 9 1 2 0 false .f64 6, encW 0x33 9 1 2 1 false .i8 3,
      encW 0x33 9 1 2 0 true .i8 4, encW 0x39 9 1 2 1 false .i16 0, encW 0x3E 9 1 2 0 true .i32 0, encW 0x3D 9 1 2 0 false .i16 3,
      encW 0x3D 9 1 2 0 true .i16 0], (core thread0 w).canRun 5 w) ∧
    (core thread0 (encW 0x33 8 1 0 0 false .i8 9)).canRun 5 (encW 0x33 8 1 0 0 false .i8 9) noRs2 ∧
    ElemType.i8.isFloat = false ∧ ElemType.f64.isFloat = true ∧ ElemType.i64.width = 64 ∧ ElemType.f64.width = 64 ∧ ElemType.i16.width < 32 :=
  ⟨canRun_all (by decide +kernel), canRun_of (by decide +kernel), by decide⟩

theorem witness_WideCompareResults : (1 : BitVec 5).toNat = 1 ∧ (7 : BitVec 5).toNat = 7 ∧ ElemType.i16.isFloat = false ∧
    ElemType.f32.isFloat = true ∧ ∀ w ∈ (upTo 6).map (encW 0x32 7 1 2 1 true .i16) ++ [encW 0x32 1 1 2 1 true .f32 6],
      (core thread0 w).canRun 5 w := ⟨rfl, rfl, rfl, rfl, canRun_all (by decide +kernel)⟩

theorem witness_WideMovesAndMasks :
    (∀ w ∈ [encW 0x33 9 1 2 1 true .i16 5, encW 0x33 9 1 2 0 false .i16 3, encW 0x33 9 1 2 0 false .i16 4, encW 0x33 1 7 2 0 false .i8 11,
      encW 0x33 1 7 2 0 false .i8 12, encW 0x33 1 7 2 0 false .i8 13], (core thread0 w).canRun 5 w) ∧
    (∀ w ∈ [encW 0x33 9 1 0 1 true .f32 0, encW 0x33 9 1 0 1 true .f32 1, encW 0x33 9 1 0 1 true .f32 2, encW 0x33 7 1 0 0 false .i8 9,
      encW 0x33 9 1 0 0 false .i8 10, encW 0x33 1 7 0 0 false .i8 14], (core thread0 w).canRun 5 w noRs2) :=
  ⟨canRun_all (by decide +kernel), canRun_all (by decide +kernel)⟩

theorem witness_WideReductions : ∀ w ∈ [6, 7, 8].map (encW 0x33 9 1 0 1 true .f64), (core thread0 w).canRun 5 w noRs2 :=
  canRun_all (by decide +kernel)

theorem witness_WideningAndDotProducts : ElemType.i32.isFloat = false ∧ ElemType.i32.width < 64 ∧ ElemType.f32.isFloat = true ∧
    ElemType.f32.width < 64 ∧
    ∀ w ∈ (upTo 4).map (encW 0x38 9 1 2 1 true .i32) ++ ([4, 5, 6, 7].map (encW 0x38 9 1 2 1 true .f32)) ++
      (upTo 6).map (encW 0x39 9 1 2 1 true .i8), (core thread0 w).canRun 5 w := ⟨rfl, by decide, rfl, by decide, canRun_all (by decide +kernel)⟩

theorem witness_WideDotConvertPhilox :
    (∀ w ∈ [6, 7, 8].map (encW 0x39 9 1 2 1 true .i8) ++ [encW 0x3E 9 1 2 1 false .i32 0, encWc 9 1 0 1 1 1 true, encWc 9 1 0 1 2 1 true,
      encWc 9 1 15 1 0 0 false], (core thread0 w).canRun 5 w) ∧
    (Fmt.ofCode 0).isSome = true ∧ (Fmt.ofCode 1).isSome = true ∧ (Fmt.ofCode 15).elim false (·.isScalar) = false ∧
    (∀ a ∈ Fmt.ofCode 0, ∀ b ∈ Fmt.ofCode 1, a.isScalar = true ∧ b.isScalar = true ∧ 512 / (512 / max a.bits b.bits * min a.bits b.bits) = 2) :=
  ⟨canRun_all (by decide +kernel), by decide +kernel⟩

/-- Words selected by k1, none selected by k2, and one of the image. -/
theorem witness_WideMemoryAccess :
    (∀ w ∈ [encWm 0x3B 9 1 0 1, encWm 0x3C 9 1 0 1, encWm 0x3B 9 1 0 2, encWm 0x3C 9 1 0 2], (core thread0 w).canRun 5 w ∧
      (core thread0 w).reaches (thread0.getX 1) 0x8000 64 ∧ (core thread0 w).hitsImage 0x8000 64 = false ∧
      (core thread0 w).accessRuns 0x8000 64 = true) ∧
    (thread0.getK 1).getLsbD 0 = true ∧ (thread0.getK 1).getLsbD 1 = false ∧ (∀ i, i < 8 → (thread0.getK 2).getLsbD i = false) ∧
    (core thread0 (encWm 0x3C 9 3 0 1)).canRun 5 (encWm 0x3C 9 3 0 1) ∧
    (core thread0 (encWm 0x3C 9 3 0 1)).leads (thread0.getX 3) 0x1100 64 ∧ (core thread0 0).hitsImage 0x1100 8 = true :=
  ⟨fun w m => ⟨canRun_all (ws := [encWm 0x3B 9 1 0 1, encWm 0x3C 9 1 0 1, encWm 0x3B 9 1 0 2, encWm 0x3C 9 1 0 2]) (by decide +kernel) w m,
      reaches_of (by revert w; decide +kernel), by revert w; decide +kernel⟩,
    by decide +kernel, by decide +kernel, by decide +kernel, canRun_of (by decide +kernel), leads_of (by decide +kernel), by decide +kernel⟩

theorem witness_WideGatherScatter :
    let g := encW 0x3D 9 1 0 1 false .i64 3
    let c := encW 0x3D 9 1 0 1 true .i64 3
    32 ≤ ElemType.i64.width ∧ (core thread0 g).canRun 5 g ∧ (core thread0 c).canRun 5 c ∧
    (∀ l, l < ElemType.i64.count → thread0.active 1 l = true → (core thread0 g).leads (thread0.getX 1) 0x8000 8) ∧
    (∀ l, l < ElemType.i64.count → thread0.active 1 l = true →
      (core thread0 c).reaches (thread0.getX 1) 0x8000 8 ∧ (core thread0 c).hitsImage 0x8000 8 = false) ∧
    sextNat 64 (wideElem (thread0.getW 0) 64 0) <<< (3 : Nat) = 0 :=
  ⟨by decide, canRun_of (by decide +kernel), canRun_of (by decide +kernel), fun _ _ _ => leads_of (by decide +kernel),
    fun _ _ _ => ⟨reaches_of (by decide +kernel), by decide +kernel⟩, by decide +kernel⟩

/-! ### Engines -/

/-- Fields 0 and 1: eight FP64 elements each; field 2: eight INT64 indices. -/
def field0 (no base : Nat) (f : Fmt) : Field :=
  { no := no, fmt := f, mx := false, llm := false, rank := 1, base := base, ext := [8, 1, 1, 1], str := [0, 0, 0], scaleBase := 0 }

def op0 : OpDesc :=
  { field := 0, cvt := 0, orient := false, align := 0, prescale := 0, expField := 0, startK := 0, startR := 0, start2 := 0, start3 := 0
    expStart := 0 }

/-- A tile command of an opcode. -/
def tileCmd (op route half : Nat) (raw long : Bool) : TileCmd :=
  { opcode := op, accIn := false, fast := false, long := long, aFmt := 0, aMx := false, bFmt := 0, bMx := false, m := 2, n := 4, k := 2
    bank := 0, aSrc := 0, aStream := false, bSrc := 1, bStream := false, a := op0, b := op0
    r := { field := 0, route := route, raw := raw, orient := false, tbuf := 0, half := half ≠ 0, start := [0, 0, 0, 0] }
    rOp := op0, slotOff := 0 }

def vecInstr (op ty dst src1 : Nat) : VecInstr :=
  { opcode := op, ty := ty, dst := dst, src1 := src1, src2 := 1, src3 := 2, imm := 0
    desc := { field := 0, orient := false, advDim := 0, rows := 1, cols := 4, start := [0, 0, 0, 0], adv := 0 } }

def asmInstr (op : Nat) (direct : Bool) : AsmInstr :=
  { opcode := op, acc := false, immCoef := true, directS := direct, directD := direct, dst := 1, src1 := 0, src2 := 0, coef := 0
    didx := 2, sidx := 2, sidx2 := 2, count := 2, start := 0, imm := 0x4000000000000000 }

def asmStream (i : AsmInstr) : AsmStream := { unit := 0, winLo := 0, winHi := 8, instrs := [i] }

def solvCmd (op : Nat) (reuse guess : Bool) : SolvCmd := { opcode := op, solver := 3, reuse := reuse, guess := guess, update := false }

/-- A solver of one equation on engine 0; every role is field 0 or 1. -/
def solver0 : Solver :=
  { record := { id := 3, engines := [0], wnFast := false, nrhs := 1, tauExp := -40, growthExp := 20, refLimit := 4, tolExp := -40, n := 1
                minCb := 1, fields := List.replicate 13 1 }
    sched := { hash := 1, nodes := [{ first := 0, ncol := 1, rows := [], parent := none, engine := 0, offload := false, rowsPos := 0, factPos := 0 }]
               tasks := [{ kind := 2, sn := 0, wait := 0, succ := none, child := 0 }]
               maxFront := 1, factorBytes := 8, updPos := 0, snOff := 0, taskOff := 0, rowsOff := 0 } }

def seg0 : Segment := { phase := 0, wake := 0, preds := [], engines := 0, access := [] }

def job1 (g : Segment) : Job :=
  { job0 with fields := [field0 0 0x10000 .fp64, field0 1 0x20000 .fp64, field0 2 0x30000 .int64], segs := [g], solvers := [solver0] }

/-- Segment 0 runs a list, every domain clocked. -/
def runs (g : Segment) : State :=
  let s := ({ lit live with job := some (job1 g) } : State).setJobState stRunning
  { s with sched := { segs := [.running], stepping := true } }

def tileAt (c : TileCmd) : State :=
  { runs { seg0 with tile := [{ tile := 0, feed := false, cmds := [c] }], vec := [] } with tiles := [(0, { seg := some 0 })] }

def vecAt (b : Bool) (i : VecInstr) : State :=
  { runs { seg0 with vec := [{ engine := 0, modeB := b, instrs := [i] }] } with vecs := [(0, { seg := some 0, modeB := b })] }

def asmAt (i : AsmInstr) : State :=
  { runs { seg0 with asm := [asmStream i] } with asms := [(0, { seg := some 0 })] }

def solvAt (c : SolvCmd) : State :=
  { runs { seg0 with solv := [{ engine := 0, cmds := [c] }] } with solvEngs := [(0, { seg := some 0 })] }

theorem witness_VectorArithmetic : ∀ op ∈ [0x06, 0x10, 0x11, 0x12, 0x13, 0x14, 0x15, 0x16, 0x17, 0x28, 0x29, 0x2A, 0x2B],
    ∀ ty ∈ [0, 1, 2], (vecAt false (vecInstr op ty 3 4)).vecNext 0 op = some (vecInstr op ty 3 4) ∧
      ∃ a n, vecRegion ((vecAt false (vecInstr op ty 3 4)).vec 0).modeB 3 = .file a n :=
  fun op h ty k => ⟨by revert op ty; decide +kernel, ⟨_, _, rfl⟩⟩

theorem witness_VectorCompareAndBits : ∀ op ∈ [0x18, 0x19, 0x1A, 0x1B, 0x1C, 0x1D, 0x1E, 0x1F, 0x20, 0x21],
    ∀ ty ∈ [0, 1], (vecAt false (vecInstr op ty 3 4)).vecNext 0 op = some (vecInstr op ty 3 4) := by decide +kernel

theorem witness_VectorReductions : ∀ op ∈ [0x30, 0x31, 0x32],
    (vecAt false (vecInstr op 0 3 4)).vecNext 0 op = some (vecInstr op 0 3 4) ∧ ((vecAt false (vecInstr op 0 3 4)).vec 0).modeB = false ∧
    (vecAt true (vecInstr op 0 3 0x40)).vecNext 0 op = some (vecInstr op 0 3 0x40) ∧
    ((vecAt true (vecInstr op 0 3 0x40)).vec 0).modeB = true ∧
    (vecAt true { vecInstr op 0 3 0x40 with imm := 1 }).vecNext 0 op = some { vecInstr op 0 3 0x40 with imm := 1 } ∧
    (vecAt true (vecInstr op 0 3 4)).vecNext 0 op = some (vecInstr op 0 3 4) := by decide +kernel

/-- Which source code names rows of a buffer in mode B. -/
theorem witness_VectorReductions_rows : ∃ buf first count, vecRegion true 0x40 = .rows buf first count := ⟨_, _, _, rfl⟩

/-- A state with the domains of HBM stopped. -/
def darkHbm (s : State) : State :=
  { s with power := { s.power with up := s.power.up.filter (·.1 < 19), wanted := s.power.wanted.filter (· < 19) } }

theorem witness_VectorLoadStore : (vecAt false (vecInstr 1 2 3 4)).vecNext 0 0x01 = some (vecInstr 1 2 3 4) ∧
    (vecAt false (vecInstr 2 2 3 4)).vecNext 0 0x02 = some (vecInstr 2 2 3 4) ∧
    (vecAt false (vecInstr 1 2 3 4)).field 0 = some (field0 0 0x10000 .fp64) ∧
    (vecAt false (vecInstr 1 2 3 4)).memRuns (field0 0 0x10000 .fp64) = true ∧ (vecInstr 1 2 3 4).desc.start.length = 4 ∧
    0 < (vecInstr 1 2 3 4).desc.cols ∧ (darkHbm (vecAt false (vecInstr 1 2 3 4))).memRuns (field0 0 0x10000 .fp64) = false ∧
    (darkHbm (vecAt false (vecInstr 1 2 3 4))).vecNext 0 0x01 = some (vecInstr 1 2 3 4) ∧
    (darkHbm (vecAt false (vecInstr 2 2 3 4))).vecNext 0 0x02 = some (vecInstr 2 2 3 4) ∧ (∃ a n, vecRegion false 3 = .file a n) :=
  ⟨by decide +kernel, by decide +kernel, by decide +kernel, by decide +kernel, by decide +kernel, by decide +kernel, by decide +kernel,
    by decide +kernel, by decide +kernel, _, _, rfl⟩

theorem witness_VectorHalvesAndLoop : ∃ h, halfOf 0x48 = some h ∧
    (vecAt true (vecInstr 3 0 0 0x48)).vecNext 0 0x03 = some (vecInstr 3 0 0 0x48) ∧
    (vecAt true (vecInstr 4 0 0 0x48)).vecNext 0 0x04 = some (vecInstr 4 0 0 0x48) ∧
    (vecAt true (vecInstr 5 0 0 0)).vecNext 0 0x05 = some (vecInstr 5 0 0 0) ∧
    SMap.get 0 ((vecAt true (vecInstr 3 0 0 0x48)).vec 0).halves h ≠ 2 ∧
    SMap.get 0 (({ vecAt true (vecInstr 3 0 0 0x48) with vecs := [(0, { seg := some 0, modeB := true, halves := [(h, 2)] })] } : State).vec
      0).halves h = 2 := ⟨(halfOf 0x48).getD 0, by decide +kernel⟩

theorem witness_TileFetch : (tileAt (tileCmd 1 0 0 false false)).tileNext 0 0x01 = some (tileCmd 1 0 0 false false) ∧
    (tileAt (tileCmd 1 0 0 false false)).operandRuns op0 (walnutCode 0) = true ∧
    (tileAt (tileCmd 1 0 0 false false)).field op0.field = some (field0 0 0x10000 .fp64) ∧
    (darkHbm (tileAt (tileCmd 1 0 0 false false))).operandRuns op0 (walnutCode 0) = false ∧
    (darkHbm (tileAt (tileCmd 1 0 0 false false))).tileNext 0 0x01 = some (tileCmd 1 0 0 false false) ∧ walnutCode 4 = false ∧
    (tileCmd 1 0 0 false false).slotOff + (tileCmd 1 0 0 false false).k ≤ (tileCmd 1 0 0 false false).n ∧
    live.lineState 0x8000 = .plain 0 ∧ (0x40004 : Nat) % 4 = 0 := by decide +kernel

/-- In slots, streamed while the memory is stopped, of INT8 operands, and balanced. -/
theorem witness_TileMma :
    let c := tileCmd 2 0 0 false false
    let streamed := { c with aStream := true }
    let balanced : State := { (runs { seg0 with engines := 32 }).setFlag rSchBal 8 true with tiles := [(0, { seg := some 0 })] }
    (tileAt c).tileNext 0 0x02 = some c ∧ c.m ≤ 64 ∧ c.n ≤ 128 ∧ (tileAt c).arrayRuns c = true ∧ (tileAt c).balanced 0 = false ∧
    balanced.balanced 0 = true ∧ (darkHbm (tileAt streamed)).tileNext 0 0x02 = some streamed ∧
    (darkHbm (tileAt streamed)).arrayRuns streamed = false ∧ (Fmt.ofCode 0).elim false (·.isInt) = false ∧ (Fmt.ofCode 12).elim false (·.isInt) = true := by decide +kernel

theorem witness_TileLongStore : (tileAt (tileCmd 3 0 0 false false)).tileNext 0 0x03 = some (tileCmd 3 0 0 false false) ∧
    (tileAt (tileCmd 5 0 0 false false)).tileNext 0 0x05 = some (tileCmd 5 0 0 false false) ∧
    (tileAt (tileCmd 5 0 0 false false)).field 0 = some (field0 0 0x10000 .fp64) ∧
    (tileAt (tileCmd 3 0 0 false false)).arrayRuns (tileCmd 3 0 0 false false) = true ∧
    (tileAt (tileCmd 5 0 0 false false)).memRuns (field0 0 0x10000 .fp64) = true ∧
    (darkHbm (tileAt (tileCmd 5 0 0 false false))).memRuns (field0 0 0x10000 .fp64) = false ∧
    (darkHbm (tileAt (tileCmd 5 0 0 false false))).tileNext 0 0x05 = some (tileCmd 5 0 0 false false) ∧
    (darkHbm (tileAt { tileCmd 3 0 0 false false with bStream := true })).tileNext 0 0x03 =
      some { tileCmd 3 0 0 false false with bStream := true } ∧
    (darkHbm (tileAt { tileCmd 3 0 0 false false with bStream := true })).arrayRuns { tileCmd 3 0 0 false false with bStream := true } =
      false := by decide +kernel

/-- A tile whose vector engine takes its result as the next fill of half 0. -/
def feeding (c : TileCmd) (half : Nat) : State :=
  { runs { seg0 with tile := [{ tile := 0, feed := false, cmds := [c] }]
                     vec := [{ engine := 0, modeB := true, instrs := [vecInstr 3 0 0 0x48] }] } with
    tiles := [(0, { seg := some 0 })], vecs := [(0, { seg := some 0, modeB := true, halves := [(0, half)] })] }

theorem witness_TileDrain : (tileAt (tileCmd 4 0 0 false false)).tileNext 0 0x04 = some (tileCmd 4 0 0 false false) ∧
    (tileAt (tileCmd 4 0 0 false false)).memRuns (field0 0 0x10000 .fp64) = true ∧
    (tileAt (tileCmd 4 0 0 false false)).field 0 = some (field0 0 0x10000 .fp64) ∧
    (tileAt (tileCmd 4 0 0 true false)).field 2 = some (field0 2 0x30000 .int64) ∧
    (darkHbm (tileAt (tileCmd 4 0 0 false false))).memRuns (field0 0 0x10000 .fp64) = false ∧
    (darkHbm (tileAt (tileCmd 4 0 0 false false))).tileNext 0 0x04 = some (tileCmd 4 0 0 false false) ∧
    (tileAt (tileCmd 4 0 0 true false)).tileNext 0 0x04 = some (tileCmd 4 0 0 true false) ∧
    (tileAt (tileCmd 4 0 0 false true)).tileNext 0 0x04 = some (tileCmd 4 0 0 false true) ∧
    (feeding (tileCmd 4 1 0 false false) 0).tileNext 0 0x04 = some (tileCmd 4 1 0 false false) ∧
    (feeding (tileCmd 4 1 0 false false) 0).drainFits 0 (tileCmd 4 1 0 false false) = true ∧
    (feeding (tileCmd 4 1 0 false false) 2).tileNext 0 0x04 = some (tileCmd 4 1 0 false false) ∧
    (feeding (tileCmd 4 1 0 false false) 2).drainFits 0 (tileCmd 4 1 0 false false) = false := by decide +kernel

theorem witness_AssemblyEntries : (asmAt (asmInstr 2 false)).asmNext 0 2 = some (asmInstr 2 false, asmStream (asmInstr 2 false)) ∧
    (asmAt (asmInstr 3 true)).asmNext 0 3 = some (asmInstr 3 true, asmStream (asmInstr 3 true)) ∧
    (asmAt (asmInstr 1 true)).asmNext 0 1 = some (asmInstr 1 true, asmStream (asmInstr 1 true)) ∧
    (asmAt (asmInstr 1 true)).field 1 = some (field0 1 0x20000 .fp64) ∧ 0 + 2 ≤ (field0 1 0x20000 .fp64).size ∧
    (asmAt (asmInstr 2 false)).indexAt false 2 1 = some 0 ∧ (asmAt (asmInstr 2 false)).gather 0 7 = some 0 ∧
    (asmAt (asmInstr 2 false)).gather 0 8 = none ∧ (asmAt (asmInstr 2 false)).asmEntry (asmInstr 2 false) (asmStream (asmInstr 2 false)) 1 ≠ none ∧
    (asmAt (asmInstr 2 false)).asmEntry (asmInstr 2 false) { asmStream (asmInstr 2 false) with winLo := 4 } 1 = none ∧
    (asmAt (asmInstr 2 false)).rd rAsmOor = 0 ∧ ((asmAt (asmInstr 2 false)).wr rAsmOor 1).rd rAsmOor = 1 := by decide +kernel

theorem witness_SolverCommands : ∀ op ∈ [1, 2, 3, 4], ∀ guess, (solvAt (solvCmd op false guess)).solvReady 3 op =
    some (solver0, solvCmd op false guess) := by decide +kernel

theorem witness_SolverCommands_factor : (solvAt (solvCmd 1 false false)).run 3 = none ∧
    ¬ (bitOf ((solvAt (solvCmd 1 true false)).factFlags solver0.record) 0 = true) ∧
    bitOf ((solvAt (solvCmd 4 false false)).scbState solver0.record) 0 = false ∧
    bitOf ((solvAt (solvCmd 4 false false)).scbState solver0.record) 1 = false := by decide +kernel

theorem witness_SolverTasks : ({ solvAt (solvCmd 1 false false) with factors := [{ solver := 3, step := 0 }] } : State).taskNext 0 2 =
    some (solver0, { solver := 3, step := 0 }, 0, { kind := 2, sn := 0, wait := 0, succ := none, child := 0 },
      { first := 0, ncol := 1, rows := [], parent := none, engine := 0, offload := false, rowsPos := 0, factPos := 0 }) := by
  decide +kernel

theorem witness_SolverCommands_reuse :
    let s : State := { solvAt (solvCmd 1 true false) with mem := [(0x20004, 1#8), (0x2000C, 1#8)] }
    s.solvReady 3 1 = some (solver0, solvCmd 1 true false) ∧ bitOf (s.factFlags solver0.record) 0 = true ∧
    s.roleGet solver0.record 9 1 = s.roleGet solver0.record scb 0 ∧
    bitOf (({ solvAt (solvCmd 4 false false) with mem := [(0x20014, 1#8)] } : State).scbState solver0.record) 0 = true := by
  decide +kernel

/-- The job of `solvAt` with the tasks of a child and its parent. -/
def twoNodes (tasks : List SolvTask) (offload : Bool) : State :=
  let nd (i : Nat) : Supernode :=
    { first := i, ncol := 1, rows := [], parent := none, engine := 0, offload := offload, rowsPos := 0, factPos := 0 }
  let v : Solver := { solver0 with sched := { solver0.sched with nodes := [nd 0, nd 1], tasks := tasks } }
  let s := solvAt (solvCmd 1 false false)
  { s with job := s.job.map fun j => { j with solvers := [v] }, factors := [{ solver := 3, step := 0 }] }

theorem witness_SolverTasks_kinds :
    ((twoNodes [{ kind := 1, sn := 1, wait := 0, succ := none, child := 0 }] false).taskNext 0 1).map (fun x => x.2.2.2.1.kind) = some 1 ∧
    ((twoNodes [{ kind := 3, sn := 1, wait := 0, succ := none, child := 0 }] false).taskNext 0 3).map
      (fun x => (x.2.2.2.1.kind, x.2.2.2.2.offload)) = some (3, false) ∧
    ((twoNodes [{ kind := 3, sn := 1, wait := 0, succ := none, child := 0 }] true).taskNext 0 3).map
      (fun x => (x.2.2.2.1.kind, x.2.2.2.2.offload)) = some (3, true) := by decide +kernel

theorem witness_TileDrain_accept :
    let c := tileCmd 4 1 0 false false
    let w (half : Nat) : State := { feeding c half with tiles := [(0, { seg := some 0, waiting := some c })] }
    ((w 0).tile 0).waiting = some c ∧ (w 0).drainFits 0 c = true ∧ (w 2).drainFits 0 c = false := by decide +kernel

/-- A sum of 1 and 2 in FP32 on vector engine 0, its imm operand in every element. -/
theorem test_vec_add : ((after (.vecAdd 0) { vecAt false (vecInstr 0x10 0 3 4) with
    vecs := [(0, { seg := some 0, file := [(256, 0x40000000), (1024, 0x3F800000)] })] }).vec 0).file =
      [(256, 0x40000000), (768, 0x40400000), (1024, 0x3F800000)] := by
  decide +kernel

/-! ### The scheduler -/

/-- An image of one empty segment, one field of eight FP64 elements at 0x10000 and one node (Table 2-1), with its CRC. -/
def image0 : List Byte :=
  let head (crc : Nat) : List Byte :=
    bytesLE 4 0x53544750 ++ bytesLE 2 1 ++ bytesLE 2 1 ++ bytesLE 2 1 ++ bytesLE 2 0 ++ bytesLE 4 4 ++ bytesLE 8 0 ++ bytesLE 4 1 ++
    bytesLE 2 1 ++ bytesLE 2 0 ++ bytesLE 8 0x40 ++ bytesLE 8 0x80 ++ bytesLE 8 0xC0 ++ bytesLE 4 crc ++ bytesLE 4 0
  let rest : List Byte :=
    List.replicate 4 0 ++ List.replicate 4 0xFF ++ List.replicate 24 0 ++ List.replicate 32 0 ++
    (bytesLE 2 0 ++ bytesLE 1 0 ++ bytesLE 1 0 ++ bytesLE 1 1 ++ bytesLE 3 0 ++ bytesLE 8 0x10000 ++ bytesLE 4 8 ++ bytesLE 4 1 ++ bytesLE 4 1 ++
      bytesLE 4 1 ++ List.replicate 32 0) ++ bytesLE 2 0
  head (imageCrc (head 0 ++ rest)) ++ rest

/-- A destination record (Table 14-1), and a restore record of step 5 (Table 14-7) that names no map. -/
def dest0 : List Byte :=
  bytesLE 4 0x53444B43 ++ bytesLE 2 1 ++ bytesLE 1 0 ++ bytesLE 1 1 ++ bytesLE 8 9 ++ bytesLE 8 0x5000 ++ bytesLE 8 0x6000 ++ bytesLE 1 20

def restore0 : List Byte :=
  bytesLE 4 0x53524B43 ++ bytesLE 2 1 ++ bytesLE 1 0 ++ bytesLE 1 1 ++ bytesLE 8 9 ++ bytesLE 8 5 ++ bytesLE 8 0 ++ bytesLE 8 0 ++
  bytesLE 2 0 ++ bytesLE 2 1

/-- IDLE with all processors running, HBM trained, no LLM a cache and session 1 open; memory holds the image and both records. -/
def idle : State :=
  let s := (upTo 6).foldl (fun t i => (t.setFld rFwpStat 3 0 3 i).wr rLlmRegMode 0xFFFF i) ((live.setFlag rHbmcMap 31 true).setFlag rSecStat 9 false)
  { (s.setFld rSecStat 2 0 2).setFld rSecStat 31 16 1 with
    mem := memOf 0x1000 image0 ++ memOf 0x3000 dest0 ++ memOf 0x4000 restore0 }

/-- RUNNING in step 7 with a step in progress. -/
def stepping : State :=
  let s := (jobIn stRunning).wr rSchStep 7
  { s with sched := { stepping := true, segs := [.running] }, mem := memOf 0x3000 dest0, sec := { ckptKey := some (1, []) } }

theorem hostReady_of (s : State) (a : s.boot.held = false) (b : s.flag rHifStat 0 = false) (c : s.flag rHifRsp 0 = false)
    (d : s.down 4 = false) : s.hostReady := And.intro a (And.intro b (And.intro c d))

theorem witness_HostJobCommands : stepping.hostReady ∧ stepping.jobState = stRunning ∧ stepping.job ≠ none ∧
    acceptedIn 2 stRunning = false ∧ acceptedIn 1 stRunning = false ∧ acceptedIn 4 stReady = false ∧ acceptedIn 5 stIdle = false ∧
    acceptedIn 7 stepping.jobState = true ∧ idle.hostReady ∧ idle.jobState = stIdle ∧ (jobIn stReady).hostReady ∧
    (jobIn stReady).jobState = stReady ∧ (jobIn stReady).ckpt.run = none ∧ (jobIn stReady).rd rSchStep < 2 ^ 64 - 1 ∧
    (stepping.flag rHifStat 0 = false ∧ (stepping.setFlag rHifStat 0 true).flag rHifStat 0 = true) :=
  ⟨hostReady_of _ (by decide +kernel) (by decide +kernel) (by decide +kernel) (by decide +kernel), by decide +kernel, by decide +kernel,
    by decide +kernel, by decide +kernel, by decide +kernel, by decide +kernel, by decide +kernel,
    hostReady_of _ (by decide +kernel) (by decide +kernel) (by decide +kernel) (by decide +kernel), by decide +kernel,
    hostReady_of _ (by decide +kernel) (by decide +kernel) (by decide +kernel) (by decide +kernel), by decide +kernel⟩

/-- A good destination is taken, one at an odd address is E_RANGE. -/
theorem witness_HostJobCommands_dest :
    (stepping.hostTakes 6 0 [(0, 0x3000)]).destErr 0x3000 = eNone ∧ (stepping.hostTakes 6 0 [(0, 0x3001)]).destErr 0x3001 = eRange ∧
    (stepping.hostTakes 7 0 [(0, 0x3000), (1, 1)]).armErr 0x3000 = eNone := by decide +kernel

/-- An image is taken, one with a wrong CRC or cut short is refused. -/
theorem witness_HostJobCommands_load :
    let s := idle.hostTakes 1 0 [(0, 0x1000), (1, 0xC2), (2, 1), (3, 0)]
    s.loadAllowed 1 = true ∧ s.inQuiet = false ∧
    (match (s.noteOk 0x1000 0xC2).beginLoad.loadImage 0x1000 0xC2 1 with | .inr j => j.fields.length | .inl _ => 0) = 1 ∧
    (match (s.noteOk 0x1000 0xC1).beginLoad.loadImage 0x1000 0xC1 1 with | .inl e => e.code | .inr _ => 0) = eBadcmd ∧ eBadcmd < 256 := by
  decide +kernel

theorem witness_HostJobCommands_restore :
    let s := idle.hostTakes 9 0 [(0, 0x4000)]
    s.loadAllowed (natLE (s.peekN (0x4000 + 0x2A) 2)) = true ∧ s.inQuiet = false ∧
    let read := fun (a : Nat) => s.beginLoad.noteOk a (64 + 8 * ((s.beginLoad.readRestore a).elim 0 fun r => r.map.length))
    ((read 0x4000).readRestore 0x4000).map (fun r => (r.step, (read 0x4000).restoreBad r)) = some (5, none) ∧
    (read 0x3000).readRestore 0x3000 = none := by decide +kernel

theorem witness_SchedulerSegments_load :
    let s : State := { jobIn stLoading with sched := { loading := true } }
    s.job = some job0 ∧ s.llmHeld job0.fields = false ∧ s.jobState = stLoading ∧ s.sched.loading = true ∧ s.down 4 = false ∧ s.sched.lapseDue = false ∧
    s.sched.holdOn = false := by decide +kernel

theorem witness_SchedulerSegments_quiet :
    let c : HifCmd := { seq := 3, op := 1, args := [0x1000, 0xC2, 1, 0] }
    let s : State := { idle with fxp := { quiet := some 5 }, sched := { quietCmd := some c } }
    let w : State := { s with now := max s.now (5 + 4000000), fxp := { s.fxp with quiet := none }
                              sched := { s.sched with quietCmd := none } }
    s.fxp.quiet = some 5 ∧ s.sched.quietCmd = some c ∧ w.loadAllowed (w.loadSess c) = true ∧
    w.loadAllowed (w.loadSess { c with args := [0x1000, 0xC2, 2, 0] }) = false := by decide +kernel

theorem witness_SchedulerSegments_segment :
    let s : State := { runs seg0 with sched := { stepping := true, segs := [.waiting] } }
    s.segments[0]? = some seg0 ∧ s.segReady 0 = true ∧ s.domainsRun (wakeDomains seg0.wake) = true ∧
    (runs seg0).segState 0 = .running ∧ (runs seg0).streamsDone seg0 = true ∧ (runs seg0).segments.length = 1 ∧ (runs seg0).down 4 = false ∧
    ((runs seg0).setHdr tySch 0 hHoldStat (2 ^ 31)).down 4 = true ∧
    (runs seg0).rd rSchCkptDest = 0 ∧ (runs seg0).rd rSchStopAt = 0 ∧ (runs seg0).rd rSchEvtCtrl = 0 ∧
    (runs seg0).rd rSchStep < 2 ^ 64 - 1 := by decide +kernel

theorem witness_SchedulerSegments_more :
    let s : State := { runs seg0 with job := (runs seg0).job.map fun j => { j with segs := [seg0, seg0] }
                                      sched := { stepping := true, segs := [.running, .waiting] } }
    s.segments[0]? = some seg0 ∧ s.segState 0 = .running ∧ s.streamsDone seg0 = true ∧
    (s.sched.segs.set 0 .done).filter (fun x => x = SegState.done) = [.done] ∧ s.segments.length = 2 := by decide +kernel

theorem witness_SchedulerEvents :
    let s : State := { stepping with sched := { stepping.sched with hbStart := some 1 } }
    s.boot.held = false ∧ s.jobState = stRunning ∧ s.sched.stepping = true ∧ s.job ≠ none ∧ s.down 4 = false ∧
    s.nodeSet.contains 1 = true ∧ s.nodeSet.contains 2 = false ∧ s.sched.hbStart = some 1 ∧ s.sched.lapsed = false ∧
    s.flag rSchState 6 = false ∧ stepping.sched.hbStart = none ∧ (jobIn stReady).jobState = stReady := by decide +kernel

/-- A Seed reads back in READY, and is refused with E_STATE in RUNNING. -/
theorem test_seed : (after (.seedWrite 15 1 7) (jobIn stReady)).rd rSchSeed 0 0xF8 = 7 ∧
    (after (.seedWrite 15 1 7) stepping).hdr tySch 0 hErrCode = eState := by decide +kernel

/-! ### Sessions, the life cycle, checkpoints -/

theorem secReady_of (s : State) (a : s.boot.held = false) (b : s.flag rHifStat 1 = false) (c : s.flag rSecRsp 0 = false)
    (d : s.secUp = true) : s.secReady := And.intro a (And.intro b (And.intro c d))

/-- A PROVISIONED node with session state `st` whose message buffer holds some bytes and whose regions are scrubbed. -/
def enclave (st : Nat) (msg : SMap Byte) : State :=
  { ((live.setFlag rNodeStat 7 true).setFlag rSecStat 9 false).setFld rSecStat 2 0 st with sec := { provisioned := true, msg := msg } }

/-- The first bytes of an OPEN of kind `k` and session `n` (Table 16-2). -/
def openMsg (k n : Byte) : SMap Byte := [(0, 0x53), (1, 0x4F), (2, 0x50), (3, 0x4E), (4, 1), (6, k), (8, n)]

theorem witness_SessionCommands : live.secReady ∧ (enclave 0 (openMsg 2 1)).secReady ∧ (enclave 1 []).secReady ∧
    (enclave 2 []).secReady ∧ (enclave 2 []).sec.hasIdentity = true ∧ live.sec.hasIdentity = false ∧
    (enclave 1 []).sessState = 1 ∧ (enclave 2 []).sessState = 2 ∧ (enclave 2 []).jobState = stIdle ∧
    (enclave 2 []).rd rSecReadoutNo < 0xFFFFFFFF ∧ ((enclave 2 []).wr rSecReadoutNo 0xFFFFFFFF).rd rSecReadoutNo = 0xFFFFFFFF ∧
    ((enclave 2 []).wr rSecReadoutNo 0xFFFFFFFE).rd rSecReadoutNo < 0xFFFFFFFF :=
  ⟨secReady_of _ (by decide +kernel) (by decide +kernel) (by decide +kernel) (by decide +kernel),
    secReady_of _ (by decide +kernel) (by decide +kernel) (by decide +kernel) (by decide +kernel),
    secReady_of _ (by decide +kernel) (by decide +kernel) (by decide +kernel) (by decide +kernel),
    secReady_of _ (by decide +kernel) (by decide +kernel) (by decide +kernel) (by decide +kernel), by decide +kernel⟩

/-- A good OPEN, one of a kind the life cycle refuses and one of session 0. -/
theorem witness_SessionCommands_open :
    let m := fun (s : State) => s.msgBytes 0 3504
    let s := enclave 0 (openMsg 2 1)
    fieldLE (m s) 0 4 = 0x4E504F53 ∧ fieldLE (m s) 4 2 = 1 ∧ fieldLE (m s) 6 1 = 2 ∧ fieldLE (m s) 8 2 = 1 ∧
    (∀ w ∈ (upTo 16).map (openRegion (m s)), bitsOf w.2 57 56 = 0 ∧ bitOf w.2 59 = false) ∧
    kindAllowed 2 s.sec.lifeCycle = true ∧ kindAllowed 1 s.sec.lifeCycle = false ∧ s.sessState = 0 ∧ s.flag rSecStat 9 = false ∧
    s.flag rNodeStat 7 = true ∧ s.regionsOk ((upTo 16).map (openRegion (m s))) = true ∧
    fieldLE (m (enclave 0 (openMsg 2 0))) 8 2 = 0 := by decide +kernel

/-- A half-open session, and the first bytes of a FINISH (Table 16-3): its sealed key opens or does not. -/
theorem witness_SessionCommands_finish :
    let h : HalfOpen := { hash := [], kt := [], kn := [], kind := 2, sess := 1, pubEd := [], pubMl := [], regions := [], since := 0 }
    let t := enclave 1 [(0, 0x53), (1, 0x46), (2, 0x49), (3, 0x4E), (4, 1)]
    let s : State := { t with sec := { t.sec with half := some h } }
    let f := s.msgBytes 0 3469
    s.sec.half = some h ∧ s.sessState = 1 ∧ fieldLE f 0 4 = 0x4E494653 ∧ fieldLE f 4 2 = 1 ∧ h.kind = 2 ∧ s.boot.held = false ∧
    s.flag rHifStat 1 = false ∧ s.flag rSecRsp 0 = false ∧ s.secUp = true ∧ (enclave 1 []).sec.half = none := by decide +kernel

theorem witness_LifeCycleCommands :
    let fresh := { live with sec := { sealClosed := true } }
    let prov := enclave 0 []
    let h : HalfOpen := { hash := [], kt := [], kn := [], kind := 2, sess := 1, pubEd := [], pubMl := [], regions := [], since := 0 }
    let half : State := { enclave 1 [] with sec := { provisioned := true, half := some h } }
    let depl : State := { prov with sec := { provisioned := true, toggles := 1 } }
    fresh.boot.held = false ∧ fresh.flag rHifStat 2 = false ∧ fresh.secUp = true ∧ fresh.sec.lcyErr (fresh.flag rLcyStat 4) 1 = eNone ∧
    fresh.sec.closing = .none ∧ fresh.sessState ≠ 2 ∧ fresh.sessState ≠ 3 ∧ fresh.sec.lcyErr (fresh.flag rLcyStat 4) 4 ≠ eNone ∧
    prov.sec.lcyErr true 2 = eNone ∧ (prov.setFlag rLcyStat 4 true).flag rLcyStat 4 = true ∧ prov.sec.lcyErr (prov.flag rLcyStat 4) 4 = eNone ∧
    prov.sec.lcyErr (prov.flag rLcyStat 4) 1 ≠ eNone ∧ depl.sec.lcyErr (depl.flag rLcyStat 4) 3 = eNone ∧
    depl.sec.lcyErr (depl.flag rLcyStat 4) 2 ≠ eNone ∧ fresh.sec.lcyErr (fresh.flag rLcyStat 4) 3 ≠ eNone ∧
    prov.sec.closing = .none ∧ prov.boot.policy ≠ 2 ∧ prov.sec.trans = none ∧ half.sec.half = some h ∧ half.secUp = true ∧ half.sessState = 1 ∧
    half.boot.sealCloses = false ∧ half.sec.sealDue = false := by decide +kernel

theorem witness_LifeCycleCommands_abort :
    let s : State := { jobIn stRunning with sched := { aborting := true } }
    s.sched.aborting = true ∧ s.down 4 = false ∧ (∀ i, i < 12 → s.clkOf (5 + i) ≠ 1 ∧ s.clkOf (5 + i) ≠ 2) ∧ s.sec.closing = .none ∧
    s.sec.trans = none ∧ ({ s with boot := { s.boot with policy := 2, sealCloses := true } } : State).boot.policy = 2 := by
  decide +kernel

/-- A checkpoint in a phase, with no piece left to acknowledge. -/
def ckptRun (p : CkptPhase) : CkptRun :=
  { step := 7, dest := { gwFirst := 0, gwCount := 1, setId := 1, atWord := 0x5000, entryBuf := 0x6000, shardLog2 := 20 }, phase := p
    objs := [], shards := 0, indexHash := List.replicate 48 3, records := [], since := 5, after := .nothing }

def ckptAt (p : CkptPhase) : State := { stepping with ckpt := { run := some (ckptRun p) } }

theorem witness_CheckpointAndRestore :
    let s := ckptAt .index
    let run := ckptRun .index
    let a := run.dest.entryBuf
    let other : State := { s with job := some { job0 with nodes := [1, 0] } }
    s.ckpt.run = some run ∧ s.down 4 = false ∧ run.failed = none ∧ run.after = .nothing ∧ run.allWhole = true ∧ s.rank = 0 ∧
    a % 64 = 0 ∧ s.targetWord run.dest ≤ run.step ∧ run.dest.atWord + 8 ≤ a ∧ s.lineState a = .plain 0 ∧
    (bytesLE 2 s.nodeId ++ [0, 0] ++ bytesLE 4 run.shards ++ bytesLE 8 run.step ++ run.indexHash).length = 64 ∧
    other.rank ≠ 0 ∧ other.goneNode (other.nodeSet.headD 0) = false := by decide +kernel

theorem witness_CheckpointAndRestore_wait :
    let s := ckptAt .waiting
    let run := ckptRun .waiting
    let all : State := { s with mem := memOf 0x6008 [7] ++ memOf 0x6048 [7], sw := { gates := [(0, 0x8000000000000000)] } }
    s.ckpt.run = some run ∧ s.missingRanks run.dest run.step = [0, 1] ∧ all.missingRanks run.dest run.step = [] ∧ all.job = some job0 ∧
    (all.gateway run.dest.gwFirst).isSome = true ∧ all.goneNode (2 ^ 15 + run.dest.gwFirst) = false ∧ (ckptRun .manifest).allWhole = true ∧
    (ckptAt .manifest).ckpt.run = some (ckptRun .manifest) ∧ (ckptAt .manifest).down 4 = false := by decide +kernel

/-- A RESTORE whose reads are complete. -/
def restoring (r : Restore) : State := { jobIn stLoading with ckpt := { restore := some r } }

def restore1 : Restore :=
  { dest := (ckptRun .index).dest, step := 7, image := 0x1000, imageLen := 0xC2, rank := 0, sess := 1, map := [] }

theorem witness_CheckpointAndRestore_fails :
    let r : Restore := { restore1 with cur := some 7 }
    let q : Restore := { restore1 with cur := some 7, stop := some eDeadTarget }
    (restoring r).ckpt.restore = some r ∧ r.busy = false ∧ (restoring r).down 4 = false ∧ eDeadTarget < 256 ∧ isInfo eDeadTarget = false ∧
    q.stop = some eDeadTarget ∧ restore1.stop = none ∧ restore1.cur = none ∧ restore1.firstErr = none ∧
    (restoring r).checkCandidate r 7 = .inl eCkptIncomplete ∧ r.cands = [] ∧ r.more = false ∧ eCkptIncomplete < 256 ∧
    isInfo eCkptIncomplete = false ∧ ({ r with cur := none, firstErr := some (eCkptIncomplete, 7) } : Restore).cur = none := by
  decide +kernel

/-- The header of an object of set 1 and step 7 with SALT 0: kind, offset and length (Table 14-2). -/
def objHeader (kind : Byte) (off len : Nat) : List Byte :=
  [0, 0, 0, 0, 0, 0, kind, 0] ++ bytesLE 8 1 ++ bytesLE 8 7 ++ List.replicate 16 0 ++ bytesLE 8 off ++ bytesLE 8 len ++ List.replicate 72 0

/-- The last shard of field 0, at offset 64, which is empty: its header and its tag under the checkpoint key of 32 zero bytes. -/
def shardObj : List Byte := objHeader 2 64 0 ++ bytesLE 16 0xDCFFBBCFD72BDEBF4832AA9943642E64

/-- The INDEX of that one shard, with its SHA-384, and the object. -/
def indexText : List Byte :=
  bytesLE 4 0 ++ [2, 0, 0, 0] ++ bytesLE 8 144 ++ bytesLE 48 0x691048E9C244AFA1342BC16ACE40D326FE73935C3C87A942BB26A8C11008075012A47BBCA90DC956A894169A00D29105

def indexObj : List Byte :=
  objHeader 4 0 64 ++ bytesLE 48 0x7BD7E0651FFAB67A09CAEE7EE8620532FAC12422562B3295D6918E05211102CFD5BA326B8D93BD29D61A8F7878596AE6 ++
    bytesLE 32 0x26E9D88AA80CE3E22C2A0D3DC5FD35ACF8D19EF1384B3A7D3081FA2F673614F9

/-- The MANIFEST of that one rank, with the SHA-384 of the INDEX object, and the object. -/
def manifestText : List Byte :=
  bytesLE 8 7 ++ bytesLE 8 1 ++ bytesLE 8 0 ++ bytesLE 4 1 ++ bytesLE 4 4 ++ bytesLE 2 1 ++ List.replicate 30 0 ++
  bytesLE 2 0 ++ [0, 0] ++ bytesLE 4 1 ++ bytesLE 8 7 ++ bytesLE 48 0x888A187CA75DE1C0F45EC271627A3A81C1E26520DEE30837F87235AF624ADB1579DBE55CA9AC2ED87E450438269EA76E

def manifestObj : List Byte :=
  objHeader 5 0 128 ++ bytesLE 48 0x85A47339237D1F38B2EC46BFF86A0263E8655F9AFF26FBC27E05989F21C393CAD5BA326B8D93BDB8D61A8F7A78596AE1 ++
    bytesLE 48 0x41E011C23BAA8FDD1A44306AB4D1590C064511978BD2E64738E0DECDE55680AD91C1D618FA0F95DC04AA3B45A976C7DF ++
    bytesLE 48 0xE205BF6CB25DAC1F421E0FE94346586BB8353970FF0B78E6D39A418B02864A7A2F85DB5EACC624D6E606E02B62FB6FCE

def restore2 : Restore :=
  { restore1 with cur := some 7, got := [(manifestName, manifestObj), (⟨0, 4, 0xFFFFFFFF⟩, indexObj), (⟨0, 2, 0⟩, shardObj)] }

def shards2 : List (ObjName × List Byte) := [(⟨0, 2, 0⟩, [])]

def restored : State :=
  let s := (upTo 4).foldl (fun t i => t.wr rLlmRegMode 0xFFFF i) (restoring restore2)
  { s with mem := memOf 0x1000 image0, sec := { s.sec with ckptKey := some (0, List.replicate 32 0) } }

/-- The key of these objects. -/
def objKey : List Byte := bytesLE 32 0xB9AE10CAEBCC6FD32EB74FA25E05EE321BB48C3C608AD7850EEB744C99A8EC1C

theorem objKey_of : objectKey (List.replicate 32 0) (List.replicate 16 0) 1 7 0 0 = objKey := by decide +kernel

/-- An object opens under the key of its header's fields. -/
theorem openObject_of {s : State} {n set step rank index : Nat} {b key salt k x : List Byte} (c : s.sec.ckptKey = some (n, key))
    (h0 : (b.drop 0x48).take 16 = salt) (h1 : fieldLE b 8 8 = set) (h2 : fieldLE b 0x10 8 = step) (h3 : fieldLE b 0x1A 2 = rank)
    (h4 : fieldLE b 0x1C 4 = index) (e : objectKey key salt set step rank index = k)
    (g : gcmOpen k (List.replicate 12 0) (b.take 128) (b.drop 128) = some x) : s.openObject b = some x := by
  unfold State.openObject
  rw [c]
  simp only [h0, h1, h2, h3, h4, e, g]

theorem opens_of {b x : List Byte} (h0 : (b.drop 0x48).take 16 = List.replicate 16 0) (h1 : fieldLE b 8 8 = 1)
    (h2 : fieldLE b 0x10 8 = 7) (h3 : fieldLE b 0x1A 2 = 0) (h4 : fieldLE b 0x1C 4 = 0)
    (g : gcmOpen objKey (List.replicate 12 0) (b.take 128) (b.drop 128) = some x) : restored.openObject b = some x :=
  openObject_of (n := 0) (by decide +kernel) h0 h1 h2 h3 h4 objKey_of g

theorem opens_manifest : restored.openObject manifestObj = some manifestText :=
  opens_of (by decide +kernel) (by decide +kernel) (by decide +kernel) (by decide +kernel) (by decide +kernel) (by decide +kernel)

theorem opens_index : restored.openObject indexObj = some indexText :=
  opens_of (by decide +kernel) (by decide +kernel) (by decide +kernel) (by decide +kernel) (by decide +kernel) (by decide +kernel)

theorem opens_shard : restored.openObject shardObj = some [] :=
  opens_of (by decide +kernel) (by decide +kernel) (by decide +kernel) (by decide +kernel) (by decide +kernel) (by decide +kernel)

/-- An object that is found, belongs to the set and step, hashes as asked and opens, is in order. -/
theorem checkObject_of {s : State} {r : Restore} {step : Nat} {o : ObjName} {hash : Option (List Byte)} {b x : List Byte}
    (f : r.find o = some b) (m : ¬ (fieldLE b 8 8 ≠ r.dest.setId ∨ fieldLE b 0x10 8 ≠ step))
    (h : (hash.any fun h => h ≠ sha384 b) = false) (op : s.openObject b = some x) : s.checkObject r step o hash = .inr x := by
  unfold State.checkObject
  rw [f]
  simp only [m, if_false, h, op, Bool.false_eq_true]

/-- A rank whose INDEX names one shard, which is read, is in order. -/
theorem checkRank_of {s : State} {r : Restore} {step : Nat} {man x y : List Byte} {k : Nat}
    (e : ¬ (fieldLE man 32 2 ≤ k ∨ (rankEntry man k).length < 64 ∨ fieldLE (rankEntry man k) 8 8 ≠ step))
    (i : s.checkObject r step ⟨k, 4, 0xFFFFFFFF⟩ (some ((rankEntry man k).drop 16)) = .inr x) (n : upTo (x.length / 64) = [0])
    (d : ¬ (fieldLE x (64 * 0 + 4) 1 = 1 ∧ (r.image ≠ 0 ∨ k ≠ r.rank) ∨ fieldLE x (64 * 0 + 4) 1 = 3 ∧ k ≠ r.rank))
    (sh : s.checkObject r step ⟨k, fieldLE x (64 * 0 + 4) 1, fieldLE x (64 * 0) 4⟩ (some ((x.drop (64 * 0 + 16)).take 48)) = .inr y) :
    s.checkRank r step man k = .inr [(⟨k, fieldLE x (64 * 0 + 4) 1, fieldLE x (64 * 0) 4⟩, y)] := by
  unfold State.checkRank
  simp only [e, if_false, i, n, List.foldl_cons, List.foldl_nil, d, sh, List.nil_append]

theorem checkCandidate_of {s : State} {r : Restore} {step : Nat} {man : List Byte} {l : List (ObjName × List Byte)}
    (m : s.checkObject r step manifestName none = .inr man) (n : r.ranks = [0]) (k : s.checkRank r step man 0 = .inr l) :
    s.checkCandidate r step = .inr (man, l) := by
  unfold State.checkCandidate
  simp only [m, n, k, List.foldl_cons, List.foldl_nil, List.nil_append]

theorem restored_rank : restored.checkRank restore2 7 manifestText 0 =
    .inr [(⟨0, fieldLE indexText (64 * 0 + 4) 1, fieldLE indexText (64 * 0) 4⟩, [])] :=
  checkRank_of (by decide +kernel) (checkObject_of (by decide +kernel) (by decide +kernel) (by decide +kernel) opens_index)
    (by decide +kernel) (by decide +kernel) (checkObject_of (by decide +kernel) (by decide +kernel) (by decide +kernel) opens_shard)

/-- The candidate is accepted. -/
theorem witness_CheckpointAndRestore_accepts :
    restored.checkCandidate restore2 7 =
      .inr (manifestText, [(⟨0, fieldLE indexText (64 * 0 + 4) 1, fieldLE indexText (64 * 0) 4⟩, [])]) :=
  checkCandidate_of (checkObject_of (by decide +kernel) (by decide +kernel) (by decide) opens_manifest) (by decide) restored_rank

/-- Its one shard. -/
theorem witness_CheckpointAndRestore_shard :
    [((⟨0, fieldLE indexText (64 * 0 + 4) 1, fieldLE indexText (64 * 0) 4⟩ : ObjName), ([] : List Byte))] = shards2 := by decide +kernel

theorem restored_image : restored.restoreImage restore2 shards2 = (image0, some 0x1000, restored) := by decide +kernel

/-- It fits the image, and its job is taken. -/
theorem witness_CheckpointAndRestore_job :
    let im := restored.restoreImage restore2 shards2
    restore2.stop = none ∧ restore2.cur = some 7 ∧ restore2.busy = false ∧ restored.ckpt.restore = some restore2 ∧ restored.down 4 = false ∧
    im.2.1 = some 0x1000 ∧ restore2.misfit im.1 manifestText = none ∧
    restored.llmHeld ((upTo (fieldCount im.1)).map (parseField im.1)) = false ∧
    (match (im.2.2.restoreFields restore2 im.1 0x1000 shards2).parseImage im.1 0x1000 restore2.sess with
      | .inr j => j.fields.length
      | .inl _ => 0) = 1 := by
  rw [restored_image]
  exact ⟨rfl, rfl, rfl, rfl, by decide +kernel, rfl, by decide +kernel, by decide +kernel, by decide +kernel⟩

/-! ### Requests -/

/-- A request of node 1 in session 1 to this node. -/
def reqIn (opf : Byte) (addr : Word) (payload : List Byte) : Req :=
  { opf := opf, flags := 0, orig := 1, src := 1, dst := 0, tag := 3, sess := 1, seq := 5, ackFloor := 0, age := 0
    len := BitVec.ofNat 16 payload.length, addr := addr, payload := payload }

def loadIn (addr : Word) : Req := { reqIn 0 addr [] with len := 8 }

/-- The host's request, of the system stream. -/
def hostIn (q : Req) : Req := { q with orig := 3 }

/-- The node that gets them. -/
def target : State := { lit (jobIn stRunning) with mem := memOf 0x8000 [1, 2, 3] }

/-- Nothing of a request has been seen, and there is room for it. -/
theorem fresh_of (t : State) (typ : ReqType) (q : Req) (a : t.fxp.ledger.length < 2 ^ 17) (b : t.foldReqs = [])
    (h : (t.served typ q).isNone = true) : t.served typ q = none ∧ t.foldReqs.any (sameReq q) = false ∧ t.ledgerFull = false := by
  refine ⟨Option.isNone_iff_eq_none.mp h, by rw [b]; rfl, ?_⟩
  unfold State.ledgerFull State.ledgerUsed
  rw [b]
  exact decide_eq_false (by simp only [List.length_nil, ledgerSize]; omega)

theorem witness_TargetRequests :
    let q := loadIn 0x8000
    let r := loadIn 0xF0000000000
    target.boot.held = false ∧ target.mine q = true ∧ target.boot.booting = false ∧ target.foreign q = false ∧
    target.stops 1 q = false ∧ target.stops 1 { q with sess := 2 } = false ∧ target.stops 1 (hostIn r) = false ∧ target.ckpt.run = none ∧
    target.foreign { q with sess := 2 } = true ∧ badReq .load q = false ∧ badReq .load (loadIn 0x8FFF) = true ∧
    (target.noteStream q).spanErr .load q = eNone ∧ inRegWin (reqAddr q) 8 = false ∧
    (target.noteStream (loadIn 0xFFFC000000)).spanErr .load (loadIn 0xFFFC000000) ≠ eNone ∧
    badReq .load (loadIn 0xFFFC000000) = false ∧
    (target.noteStream (hostIn r)).spanErr .load (hostIn r) = eNone ∧ inRegWin (reqAddr (hostIn r)) 8 = true ∧
    badReq .load (hostIn r) = false ∧ target.foreign (hostIn r) = false ∧
    (target.noteStream r).spanErr .load r = eLocked := by decide +kernel

/-- STORE: to memory, out of range, and the host's to the register window; below the floor, a copy, and with the ledger full. -/
theorem witness_TargetRequests_store :
    let q := reqIn 0 0x8000 (List.replicate 8 7)
    let r := hostIn (reqIn 0 0xF0000000000 (List.replicate 8 7))
    let t := target.noteStream q
    let late := { q with ackFloor := 6 }
    let e : LedgerEntry := ⟨1, false, 5, 0, 0, []⟩
    let again : State := { target with fxp := { ledger := [e] } }
    target.stops 2 q = false ∧ ({ target with power := {} } : State).stops 2 q = true ∧
    target.foreign q = false ∧ badReq .store q = false ∧ (t.served .store q).isNone = true ∧ t.fxp.ledger = [] ∧ t.foldReqs = [] ∧
    t.spanErr .store q = eNone ∧ inRegWin (reqAddr q) 8 = false ∧ reqAddr q % 64 + 8 ≤ 64 ∧ t.lineState (reqAddr q) = .plain 0 ∧
    t.ckpt.run = none ∧ badReq .store (reqIn 0 0xFFFC000000 [1]) = false ∧
    t.spanErr .store (reqIn 0 0xFFFC000000 [1]) ≠ eNone ∧ target.foreign r = false ∧ badReq .store r = false ∧
    (target.noteStream r).spanErr .store r = eNone ∧ inRegWin (reqAddr r) 8 = true ∧
    ((target.noteStream r).served .store r).isNone = true ∧
    badReq .store late = false ∧ seqLt late.seq.toNat (SMap.get 0 (target.noteStream late).fxp.floors (reqStream late)) = true ∧
    (again.noteStream q).ledgerFind q = some e ∧
    seqLt q.seq.toNat (SMap.get 0 (again.noteStream q).fxp.floors (reqStream q)) = false := by decide +kernel

theorem noteStream_ledger (l : List LedgerEntry) :
    (({ target with fxp := { ledger := l } } : State).noteStream (reqIn 0 0x8000 (List.replicate 8 7))).fxp.ledger = l := rfl

theorem witness_TargetRequests_full (l : List LedgerEntry) (h : l = List.replicate ledgerSize ⟨2, false, 5, 0, 0, []⟩) :
    let full := ({ target with fxp := { ledger := l } } : State).noteStream (reqIn 0 0x8000 (List.replicate 8 7))
    full.ledgerFull = true ∧ full.ledgerFind (reqIn 0 0x8000 (List.replicate 8 7)) = none := by
  refine ⟨?_, ?_⟩
  · unfold State.ledgerFull State.ledgerUsed
    rw [noteStream_ledger, h, List.length_replicate]
    exact decide_eq_true (Nat.le_add_right _ _)
  · unfold State.ledgerFind
    rw [noteStream_ledger, h, List.find?_eq_none]
    intro x hx
    rw [List.eq_of_mem_replicate hx]
    decide

theorem witness_TargetRequests_others :
    let a := reqIn 0x11 0x8000 (List.replicate 8 7)
    let p := reqIn 0x1B 0x8000 (List.replicate 8 7)
    let b := reqIn 0 0x8000 (List.replicate 8 0)
    let n := { reqIn 0 0 (0x20 :: List.replicate 31 0) with orig := 2 }
    let h := { n with payload := 0x10 :: List.replicate 31 0 }
    target.stops 3 a = false ∧ target.stops 4 p = false ∧ target.stops 5 b = false ∧ target.stops 9 n = false ∧
    (amoOfOpf a.opf.toNat).isSome = true ∧ (amoOfOpf p.opf.toNat).isSome = true ∧
    badReq .atomic a = false ∧ target.foreign a = false ∧ (target.noteStream a).spanErr .atomic a = eNone ∧
    ((target.noteStream a).served .atomic a).isNone = true ∧ inRegWin (reqAddr a) (reqSpan .atomic a) = false ∧
    (target.noteStream a).closeOf (reqAddr a) = none ∧ (target.noteStream a).oregOf (reqAddr a) = none ∧
    badReq .atomicP p = false ∧ (target.noteStream p).spanErr .atomicP p = eNone ∧ badReq .blockAdd b = false ∧
    (target.noteStream b).spanErr .blockAdd b = eNone ∧ badReq .nodeReport n = false ∧ target.foreign n = false ∧
    fieldLE n.payload 0 1 ≠ 0x10 ∧ fieldLE n.payload 0 1 ≠ 0x11 ∧ badReq .nodeReport h = false ∧ fieldLE h.payload 0 1 = 0x10 ∧
    ((target.noteStream n).served .nodeReport n).isNone = true ∧ (target.noteStream n).hbr.queue = [] := by decide +kernel

/-- An FADD into an ordered region, with its key, and an atomic on the CLOSE word of one (R157, R158, R160). -/
theorem witness_TargetRequests_ordered :
    let s : State := ordered target
    let q := reqIn 0x1A 0x8000 (bytesLE 8 7 ++ bytesLE 8 1)
    let c := reqIn 0x11 0x80000 (List.replicate 8 7)
    let t := s.noteStream q
    s.foreign q = false ∧ badReq .atomic { q with flags := 1 } = false ∧ ({ q with flags := 1 } : Req).keyed = true ∧
    t.oregOf (reqAddr q) = some 2 ∧ t.closeOf (reqAddr q) = none ∧ t.spanErr .atomic { q with flags := 1 } = eNone ∧
    t.logUsed 2 (t.stackOf 0x8000) < t.logShare 2 (t.stackOf 0x8000) ∧ (s.noteStream c).closeOf (reqAddr c) = some 2 ∧
    badReq .atomic c = false ∧ (s.noteStream c).spanErr .atomic c = eNone := by decide +kernel

/-- An atomic is performed once: a copy of it is answered from the ledger (R204). -/
theorem test_atomic_once :
    let q := reqIn 0x11 0x8000 (List.replicate 8 1)
    let u := after (.reqAtomic q) target
    let v := after (.reqAtomic q) u
    u.peekN 0x8000 4 = [2, 3, 4, 1] ∧ v.peekN 0x8000 4 = [2, 3, 4, 1] ∧ v.fxp.ledger = u.fxp.ledger := by
  decide +kernel

theorem witness_MulticastAndFloors :
    let q := reqIn 0 0x8000 (List.replicate 8 7)
    let f := { reqIn 0 0 [] with ackFloor := 3 }
    let e : LedgerEntry := ⟨1, false, 5, 0, 0, []⟩
    let s : State := { target with fxp := { ledger := [e] } }
    target.stops 6 q = false ∧ target.stops 2 { q with flags := 0x0A } = false ∧ q.flags.getLsbD 3 = false ∧
    (∀ x ∈ target.ports, x.2.rxStop = []) ∧ (q.dst.toNat % 2 ^ 14 / 32 = target.nodeId / 32) ∧ ((List.range 32).filter fun i => (6 : BitVec 32).getLsbD i) = [1, 2] ∧
    ((List.range 32).filter fun i => (1 : BitVec 32).getLsbD i) = [target.nodeId % 32] ∧
    ({ q with dst := 32 } : Req).dst.toNat % 2 ^ 14 / 32 ≠ target.nodeId / 32 ∧
    target.mine f = true ∧ target.foreign f = false ∧ seqGt 3 (SMap.get 0 target.fxp.floors (reqStream f)) = true ∧
    target.fxp.hold = [] ∧ target.piaz.kerb = [] ∧ seqGt 0 (SMap.get 0 target.fxp.floors (reqStream f)) = false ∧
    (s.fxp.ledger.find? fun e => decide (e.src = 1 ∧ e.sys = false ∧ e.seq = 5)) = some e ∧ s.fxp.hold = [] := by decide +kernel

/-- A COLL message of a kind (Table 12-3) for a BARRIER numbered 4. -/
def collMsg (ckind : Nat) : List Byte := bytesLE 8 4 ++ bytesLE 1 ckind ++ bytesLE 1 0x13 ++ List.replicate 22 0

theorem witness_CollectiveMessages :
    let q := fun k => reqIn 0 0 (collMsg k)
    let s := fun (k : Nat) => target.noteStream (q k)
    let held : State := { target with piaz := { marked := [4] } }
    target.stops 7 (q 1) = false ∧ target.foreign (q 1) = false ∧ badReq .coll (q 1) = false ∧ badReq .coll (q 4) = false ∧ badReq .coll (q 5) = true ∧
    (readColl 1 (q 1).payload).map (·.ckind) = some 1 ∧ (readColl 1 (q 2).payload).map (·.ckind) = some 2 ∧
    (readColl 1 (q 3).payload).map (·.ckind) = some 3 ∧ (readColl 1 (q 4).payload).map (·.ckind) = some 4 ∧
    ((s 1).served .coll (q 1)).isNone = true ∧ (s 1).foldReqs = [] ∧ (s 1).fxp.ledger = [] ∧
    (readColl 1 (q 1).payload).map (fun m => ((s 1).takeContrib m).2) = some true ∧
    (readColl 1 (q 1).payload).map (fun m => ((held.noteStream (q 1)).takeContrib m).2) = some false := by decide +kernel

/-- A collective at its home. -/
def coll0 : Coll :=
  { cn := 4, kind := 0x13, etype := 0, len := 0, result := 0, loc := 0, ncontrib := 1, members := [0, 1], place := .slot
    pieces := [{ off := 0 }] }

theorem witness_CollectiveMessages_others :
    let x : OrdEntry := { oreg := 0, adder := 0, addr := 0x8000, key := 1, val := 5, bytes := 8, etype := 0, slot := 0 }
    let f := fun (w : FoldBy) => ({ oreg := 0, entries := [x], who := w } : Fold)
    let s := fun (w : FoldBy) => ({ target with msa := { log := [x], fold := some (f w) } } : State)
    let b : HredBatch := { cn := 4, items := [(0, 0)], closed := true }
    let d : State := { target with piaz := { batch := some b, colls := [coll0] } }
    let k : State := { target with piaz := { kerb := [⟨4, 1, 0x13, 0, 0, 0, 0, 0, 0, 1, []⟩] } }
    (s .homeReduction).msa.fold = some (f .homeReduction) ∧ (s .homeReduction).msa.waiting = [] ∧
    (s (.request (reqIn 0x11 0x8000 []) false [])).msa.fold = some (f (.request (reqIn 0x11 0x8000 []) false [])) ∧
    target.watchRuns = true ∧ d.collOf 4 = some coll0 ∧ coll0.resultSent = false ∧ k.collOf 4 = none ∧
    (k.piaz.kerb.any fun m => m.cn = 4) = true ∧ 4 ∉ k.piaz.raised ∧ k.piaz.stalled = false ∧
    d.piaz.batch = some b ∧ ({ d with piaz := { d.piaz with colls := [] } } : State).collOf b.cn = none ∧
    coll0.folded = false ∧ ({ coll0 with pieces := [{ off := 0, next := 1 }] } : Coll).folded = true := by decide +kernel

/-- The link to node 1 is up and has its key, a request to it is outstanding, and no floor update has carried what it acknowledged. -/
def linked : State :=
  let s := ((busy 1 1).wr rFswGroupUp 1).setFld rFportStat 17 16 1
  { s with fxp := { s.fxp with acked := [(2, 9)] } }

/-- Whatever it is, it has a path to node 1. -/
theorem linked_path (c : Cargo) : linked.pathTo 1 c = true := by
  have g : linked.gatePort 1 = none := by decide +kernel
  have a : linked.attach 1 = some 1 := by decide +kernel
  have k : linked.portKeyed (localPort (linked.nodeId % 32) 1) = true := by decide +kernel
  have n : linked.nodeId / 32 = 0 := by decide +kernel
  have z : bitOf 0 0 = false := by decide
  simp [State.pathTo, g, a, State.nextHop, Packet.nonmin, State.carries, k, n, z]

theorem witness_RequestEnds :
    let r := { req5 with copies := [(1, 1)] }
    let p : Rsp := { err := 4, flags := 0, src := 1, dst := 0, tag := 0, age := 0, seq := 1, data := List.replicate 8 1 }
    linked.boot.booting = false ∧ linked.matching p = some (r, (1, 1)) ∧ (∀ x ∈ linked.fxp.reqs, x.tag ≠ some 9) ∧
    linked.outstanding 0 1 = some (r, (1, 1)) ∧ r.sent = some 0 ∧ resendAt[SMap.get 0 r.resent 1]? = some 200000 ∧
    resendAt[SMap.get 0 ({ r with resent := [(1, 2)] } : OutReq).resent 1]? = some 1400000 ∧ linked.deadOf 1 = none ∧
    (({ linked with now := 200000 } : State).pathTo 1 r.cargo = true ∧ ((busy 1 1).pathTo 1 r.cargo = false)) ∧
    ({ linked with boot := { linked.boot with booting := true } } : State).boot.booting = true := by
  decide +kernel

theorem witness_RequestEnds_others :
    let d : Dead := { target := 1, since := 7 }
    let s : State := { linked with fxp := { linked.fxp with dead := [d] } }
    s.deadOf 1 = some d ∧ d.fellBack = false ∧ s.job ≠ none ∧
    SMap.get 0 linked.fxp.carried (streamKey 3 false) = SMap.get 0 linked.fxp.acked (streamKey 3 false) := by decide +kernel

theorem witness_RequestEnds_floor :
    (SMap.get 0 linked.fxp.carried (streamKey 1 false) ≠ SMap.get 0 linked.fxp.acked (streamKey 1 false) ∧ linked.deadOf 1 = none) ∧
    ∀ q, linked.pathTo 1 (.request 0x0A q) = true := ⟨by decide +kernel, fun _ => linked_path _⟩

/-! ### Rings -/

/-- Ring 15 at 0x10000 with two slots, HEAD 0 and TAIL 1, and a descriptor in its first slot. -/
def ringAt (b : List Byte) (rest : List Host.Cell) : State :=
  let s := ((lit (jobIn stRunning)).wr rFxpRing 0x8000000000010000 0 (32 * 15)).wr rFxpRing 1 0 (32 * 15 + 8)
  { s with mem := memOf 0x10000 (1 :: List.replicate 63 0 ++ b) ++ rest, fxp := { active := [15] } }

/-- A transfer of 16 bytes between 0x8000 and 0x9000 of node `node` (Table 10-9). -/
def desc (kind flags : Byte) (node : Nat) : List Byte :=
  [kind, flags, 0, 0] ++ bytesLE 2 node ++ [0, 0] ++ bytesLE 8 0x8000 ++ bytesLE 8 0x9000 ++ bytesLE 8 16 ++
  bytesLE 8 (if kind = 3 then 0x20000 else 0) ++ bytesLE 8 0 ++ bytesLE 8 0x8800 ++ bytesLE 8 5

theorem witness_TransferRings :
    let ok := fun (k : Byte) =>
      let b := desc k 0 1
      let s := ringAt b (if k = 3 then memOf 0x20000 [1] else [])
      let v := s.noteRange (s.slotAddr 15 0) 64
      decide (s.ringSlot 15 = some (0, b)) && decide (fieldLE b 0 1 = k.toNat) && s.job.isSome && s.hbmRuns && s.mayStart 15 0 b &&
        v.transferOk b && !v.goneNode 1
    let list := ringAt (desc 3 0 1) (memOf 0x20000 [1])
    let bad := desc 1 2 1
    let r := ringAt bad []
    ok 1 = true ∧ ok 2 = true ∧ ok 3 = true ∧ ok 4 = true ∧ (ringAt [] []).nodeId ≠ 1 ∧
    ((list.noteRange (list.slotAddr 15 0) 64).noteRange 0x20000 2).mcastList (desc 3 0 1) = some [1] ∧
    r.ringSlot 15 = some (0, bad) ∧ (r.noteRange (r.slotAddr 15 0) 64).transferOk bad = false ∧ r.mayStart 15 0 bad = true ∧
    transferPieces 0x8000 0x9000 16 = [(0, 16)] := by decide +kernel

/-- A contribution of one BARRIER to node `home`, at node 0 with a member record at 0x20000 (Tables 12-1, 12-2). -/
def barrier (kind : Byte) (home : Nat) : List Byte :=
  [kind, 0, 0, 0] ++ bytesLE 2 home ++ bytesLE 2 1 ++ bytesLE 8 0 ++ List.replicate 16 0 ++ bytesLE 8 (if home = 0 then 0x20000 else 0) ++
  List.replicate 24 0

theorem witness_TransferRings_collectives :
    let ok := fun (k : Byte) =>
      let b := barrier k 1
      let s := ringAt b []
      decide (s.ringSlot 15 = some (0, b)) && s.hbmRuns && s.mayStart 15 0 b &&
        (s.noteRange (s.slotAddr 15 0) 64).collOk job0 b && decide (s.job = some job0)
    let home := ringAt (barrier 0x13 0) (memOf 0x20000 (bytesLE 4 1 ++ bytesLE 4 1 ++ bytesLE 2 0))
    ok 0x10 = true ∧ ok 0x11 = true ∧ ok 0x12 = true ∧ ok 0x13 = true ∧ fieldLE (barrier 0x10 1) 0 1 = ckAllreduce ∧
    fieldLE (barrier 0x11 1) 0 1 = ckReduce ∧ fieldLE (barrier 0x12 1) 0 1 = ckBcast ∧ fieldLE (barrier 0x13 1) 0 1 = ckBarrier ∧
    home.ringSlot 15 = some (0, barrier 0x13 0) ∧ home.mayStart 15 0 (barrier 0x13 0) = true ∧ home.nodeId = 0 ∧
    (home.noteRange (home.slotAddr 15 0) 64).collOk job0 (barrier 0x13 0) = true ∧ home.memberRecord 0x20000 = some ([0], 1) := by
  decide +kernel

theorem witness_TransferRings_done :
    let d : RingDesc := { ring := 15, index := 0, kind := 1, doneAddr := 0x8800, doneVal := 5 }
    let s : State := { target with fxp := { descs := [d], woken := [15] } }
    let b := desc 1 0 1
    let w : State := { ringAt b [] with fxp := { woken := [15], active := [15] } }
    (s.fxp.descs.find? fun d => decide (d.ring = 15) && decide (d.index = 0)) = some d ∧ s.descReady d = true ∧
    s.memOk d.doneAddr 8 = true ∧ d.doneAddr % 64 ≤ 56 ∧ s.lineState d.doneAddr = .plain 0 ∧
    (({ w with fxp := { w.fxp with woken := [] } } : State).noteRange 0x10000 16).ringSlot 15 = some (0, b) ∧
    kindKnown (fieldLE b 0 1) = true ∧ s.fxp.woken.contains 15 = true ∧ s.ringTail 15 ≤ s.ringHead 15 := by decide +kernel

/-- A piece of each kind, and a target whose fallback is taken. -/
theorem witness_TransferRings_pieces :
    let d := fun (k : Byte) => ({ ring := 15, index := 0, kind := k.toNat, doneAddr := 0, doneVal := 0, slot := desc k 0 1, home := 1 } : RingDesc)
    (∀ k ∈ ([1, 2, 3, 4] : List Byte), (d k).kind = k.toNat ∧ fieldLE (d k).slot 4 2 = 1) ∧ (0x10 : Nat) ≤ (d 0x13).kind ∧
    (1 : Nat) ≠ target.nodeId ∧ target.goneNode 1 = false ∧
    ({ target with fxp := { dead := [⟨1, 0, true⟩] } } : State).goneNode 1 = true := by decide +kernel

/-- A PUT goes out as one request, and its slot is used up (R214). -/
theorem test_put : let u := after (.ringPut 15) (ringAt (desc 1 0 1) [])
    u.ringHead 15 = 1 ∧ u.fxp.reqs.length = 1 := by decide +kernel

/-! ### HBM and links -/

/-- A loaded node whose HBM runs: MEM up, the HBM domains ungated, the map valid. -/
def hbm : State :=
  { (jobIn stRunning).setFlag rHbmcMap 31 true with power := { up := [(19, 8), (20, 8), (21, 16)], wanted := [19, 20, 21] } }

/-- With channel 37 in a state and a phase. -/
def chanIn (st phase : Nat) : State := hbm.setChan 37 st phase

theorem witness_MemoryCalibration :
    let due : State := hbm.putChan 37 { wantRetrain := true }
    let busy : State := due.setChan 38 chRetrain 1
    hbm.memUp = true ∧ hbm.flag rHbmcMap 31 = true ∧ hbm.hbmAwake = true ∧ hbm.inHbm 0xFFFFFFFFC0 64 = true ∧
    hbm.chState (hbm.hbmchOf 0xFFFFFFFFC0) = chActive ∧ (hbm.chan (hbm.hbmchOf 0xFFFFFFFFC0)).ueTimes.length < 15 ∧
    (∀ x, x < 512 → hbm.rd rHbmchCe x - (hbm.chan x).ceLast ≤ hbm.rd rHbmcCeLimit (x / 32)) ∧ hbm.calOk = true ∧
    hbm.chState 37 = chActive ∧ (∀ x ∈ stackChans 1, hbm.chState x ≠ chSlice) ∧
    ((hbm.setChan 38 chSlice 0).chState 37 = chActive ∧ ∃ x ∈ stackChans 1, (hbm.setChan 38 chSlice 0).chState x = chSlice) ∧
    (∀ x ∈ dieChans 0, (hbm.chan x).wantEvac = false) ∧ (due.chan 37).wantRetrain = true ∧ due.calOk = true ∧
    due.chState 37 = chActive ∧ due.flag rLlmStat 0 0 = false ∧ due.dieBusy 0 = false ∧ busy.dieBusy 0 = true ∧
    busy.chState 37 = chActive ∧ (busy.chan 37).wantRetrain = true := by decide +kernel

theorem witness_MemoryCalibration_phases :
    (chanIn chSlice 0).chState 37 = chSlice ∧ (chanIn chRetrain 1).chState 37 = chRetrain ∧
    (chanIn chRetrain 1).fld rHbmchCalStat 2 0 37 = 1 ∧ (chanIn chRetrain 2).fld rHbmchCalStat 2 0 37 = 2 ∧
    (chanIn chRetrain 2).jobState ≠ stIdle ∧ (chanIn chRetrain 3).fld rHbmchCalStat 2 0 37 = 3 ∧
    ((chanIn chRetrain 3).chan 37).aborted = false ∧ (chanIn chEvacuating 0).chState 37 = chEvacuating ∧
    32 * (37 / 32) + (chanIn chEvacuating 0).fld rHbmcMap 4 0 1 ≠ 37 ∧
    37 ∈ ({ hbm with cal := { hbm.cal with linkScans := [37] } } : State).cal.linkScans ∧ hbm.hbmAwake = true ∧
    SMap.get false hbm.poison 1 = false ∧ SMap.get false ({ hbm with poison := [(1, true)] } : State).poison 1 = true ∧
    hbm.down 4 = false ∧ ({ hbm with power := { uses := [.margin 37] } } : State).power.uses.contains (.margin 37) = true := by decide +kernel

/-- Port 3 in a state. -/
def portIn (st : Nat) : State := live.setFld rFportStat 3 0 st 3

/-- A link record as the wiring rule wants it of port 3's partner, and one from elsewhere. -/
def ident (node : BitVec 14) : IdentRec := { node := node, port := 27, kind := 1, stepping := 0, credits := List.replicate 7 9, boot := false }

def key0 : KeyMsg :=
  { nonce := [], x25519 := [], mlkem := [], idEd := [], idMl := [], endEd := [], endMl := [], ct := [], sigEd := [], sigMl := [] }

theorem witness_LinkTraining :
    let dim : BitVec 16 := BitVec.ofInt 16 (-1000)
    let lit : List (BitVec 16) := List.replicate 8 (dim + 1)
    (∀ st, st < 10 → (portIn st).portState 3 = st) ∧ (portIn poDetect).trains 3 = true ∧ live.flag rClkRefStat 2 = false ∧
    (∀ j, j < 8 → -1000 < (lit.getD j 0x8000).toInt) ∧ ¬ (∀ j, j < 8 → -1000 < ((List.replicate 8 dim).getD j 0x8000).toInt) ∧
    (({ portIn poFailed with ports := [(3, { lightLost := true })] } : State).port 3).lightLost = true ∧
    (portIn poIdentify).wiringOk 3 (ident 4) = true ∧ (portIn poIdentify).wiringOk 3 (ident 5) = false ∧
    (portIn poIdentify).isBootPort 3 = false ∧ (portIn poKey).secUp = true ∧ (portIn poFailed).boot.held = false ∧
    (portIn poLock).trains 3 = true ∧ (portIn poAlign).trains 3 = true ∧ (portIn poIdentify).trains 3 = true ∧
    ((portIn poLock).setHdr tyFxp 0 hHoldStat (2 ^ 31)).trains 3 = false ∧
    ({ ident 4 with boot := true } : IdentRec).boot = true := by decide +kernel

/-- A key exchange with a gateway whose keys the table does not hold fails. -/
theorem witness_LinkTraining_key :
    let s : State := { (portIn poKey).wr rFportPartner (2 * 2 ^ 30) 3 with ports := [(3, { exchange := some (key0, [], []) })] }
    (s.port 3).exchange = some (key0, [], []) ∧ s.portState 3 = poKey ∧ s.secUp = true ∧ s.vouched 3 key0 = false := by decide +kernel

/-- With a gateway whose keys the table holds, it is good where its two signatures verify. -/
theorem witness_LinkTraining_good (good : ∀ h, Config.verify 0 [] h [] = true ∧ Config.verify 1 [] h [] = true) :
    let s : State := { (portIn poKey).wr rFportPartner (2 * 2 ^ 30) 3 with
      ports := [(3, { exchange := some (key0, [], []) })], sw := { gateKeys := [(0, sha384 [])] } }
    s.vouched 3 key0 = true ∧ (s.port 3).exchange = some (key0, [], []) ∧ s.portState 3 = poKey ∧ s.secUp = true ∧
    ∀ h, Config.verify 0 key0.idEd h key0.sigEd = true ∧ Config.verify 1 key0.idMl h key0.sigMl = true :=
  ⟨by decide +kernel, by decide +kernel, by decide +kernel, by decide +kernel, good⟩

/-- The link control block of a frame of FSEQ and FLAGS (Table 11-3), and a frame that ends in its first packet block. -/
def control (fseq flags : Nat) : List Byte := bytesLE 8 fseq ++ bytesLE 8 0 ++ bytesLE 1 flags ++ List.replicate 239 0

def frame0 (fseq flags : Nat) (rest : List Byte) : Frame :=
  { uncorrectable := 0, corrected := 2, bytes := 0 :: control fseq flags ++ 0 :: rest }

/-- One whose content is its tag under the session key of 32 zero bytes, from member 4. -/
def tagged (flags : Nat) : Frame :=
  frame0 0 flags ((gcmSeal (List.replicate 32 0) (frameNonce 0 4 27) (frameAad (List.replicate 20 0) (control 0 flags) []) []).take 16)

/-- A packet to a node that carries a LOAD of age 999. -/
def packet (t : BitVec 16) : Packet :=
  { rflags := 0, hops := 5, inter := 0, target := t, cargo := .request 1 { loadIn 0x8000 with age := 999 } }

theorem witness_LinkTraffic :
    let up := lit (portIn poUp)
    let boot := lit (portIn poBoot)
    let f := splitFrame (frame0 0 0 []).bytes
    up.linkRuns 3 = true ∧ boot.linkRuns 3 = true ∧ up.fabUp = true ∧ (live.setHdr tyFxp 0 hHoldStat (2 ^ 31)).fabUp = false ∧
    live.boot.booting = false ∧ (portIn poUp).linkRuns 3 = false ∧ ({ frame0 0 0 [] with uncorrectable := 1 } : Frame).uncorrectable ≠ 0 ∧
    (frame0 0 0 []).uncorrectable = 0 ∧ up.frameText 3 f = none ∧
    ((up.port 3).tagFails.filter fun t => decide (up.now < t + 1000000)).length < 15 ∧ (boot.frameText 3 f).isSome = true ∧
    fieldLE f.control 0 8 = (boot.port 3).rxNext ∧ bitOf (fieldLE f.control 0x10 1) 0 = false ∧
    fieldLE (splitFrame (frame0 1 0 []).bytes).control 0 8 = 1 ∧ bitOf (fieldLE (splitFrame (frame0 0 1 []).bytes).control 0x10 1) 0 = true := by
  decide +kernel

/-- Fifteen tags failed in the last millisecond; seven NAKs asked for frame 0 and an eighth comes, its tag good. -/
theorem witness_LinkTraffic_eighth :
    let many : State := { lit (portIn poUp) with ports := [(3, { tagFails := List.replicate 15 0 })] }
    let s : State := { (lit (portIn poUp)).wr rFportPartner (2 ^ 30 + 27 * 2 ^ 24 + 4) 3 with
      ports := [(3, { keys := [(0, List.replicate 32 0)], naks := 7, nakOf := 0 })] }
    let s0 := s.bump64 rFportFecCorr 2 3
    15 ≤ ((many.port 3).tagFails.filter fun t => decide (many.now < t + 1000000)).length ∧ many.linkRuns 3 = true ∧
    s.linkRuns 3 = true ∧ s.portState 3 = poUp ∧ s0.frameText 3 (splitFrame (tagged 1).bytes) = some [] ∧ (s.port 3).naks + 1 = 8 ∧
    (s.port 3).nakOf = fieldLE (splitFrame (tagged 1).bytes).control 8 8 := by decide +kernel

theorem witness_LinkTraffic_packets :
    let up := lit (portIn poUp)
    let keyed := (up.wr rFswGroupUp 2).setFld rFportStat 17 16 1 (localPort 0 2)
    let old := min 0xFFFF ((packet 0).cargo.age + 1)
    up.linkRuns 3 = true ∧ up.portState 3 = poUp ∧ min 0xFFFF ((packet 0).cargo.age + 0) < 1000 ∧ ¬ (old < 1000) ∧
    (packet 0).hops.toNat ≤ 5 ∧ (packet 0).target.toNat % 2 ^ 14 = up.nodeId ∧ (packet 0).nonmin = false ∧
    (packet 2).target.toNat % 2 ^ 14 ≠ up.nodeId ∧ (packet 2).target.toNat % 2 ^ 14 / 32 = up.nodeId / 32 ∧
    (packet 2).cargo.isMcast = false ∧ up.nextHop { packet 2 with cargo := (packet 2).cargo.withAge 999 } = none ∧
    keyed.portKeyed (localPort 0 2) = true ∧ keyed.linkRuns 3 = true ∧ (0 : Nat) = up.nodeId % 32 := by decide +kernel

/-- Port 3 leads to member 4; another member that both reach makes it not the only path. -/
theorem witness_LinkTraffic_retune :
    let up := portIn poUp
    let hot := (up.wr rFportFecCorr 9 3).wr rFportFecLimit 8 3
    let path := (hot.wr rFswGroupUp (2 ^ 3 + 2 ^ 0) 0 0).wr rFswGroupUp (2 ^ localPort 1 4) 0 8
    let other := path.setFld rFportStat 17 16 1 0
    let window := (other.wr rFportFecRate 9 3).onPort 3 fun x => { x with fecLast := 9 }
    window.onlyPath 3 = false ∧ other.portState 3 = poUp ∧ other.fabUp = true ∧
    min (other.rd rFportFecCorr 3 - (other.port 3).fecLast) 0xFFFFFFFF = 9 ∧ other.rd rFportFecLimit 3 < 9 ∧
    (∀ q ∈ modulePorts 0, other.portState q ≠ poRetune) ∧ up.rd rFportFecCorr 3 - (up.port 3).fecLast ≤ up.rd rFportFecLimit 3 := by
  decide +kernel

theorem witness_LinkTraffic_fab :
    let all := (upTo 48).foldl (fun t p => t.setFld rFportStat 3 0 poUp p) live
    let boot : State := { (upTo 6).foldl (fun t i => t.setFld rFwpStat 3 0 3 i) live with boot := { held := false, booting := true } }
    let wired := (List.range 48).filter fun q => (all.expected q).isSome
    all.fabUp = true ∧ wired ≠ [] ∧ (∀ q ∈ wired, all.portState q = poUp) ∧ all.flag rFswRouteCtrl 0 = false ∧
    boot.boot.booting = true ∧ (∀ i, i < 6 → boot.fwRunning i = true) ∧ boot.fabUp = true ∧
    (State.reset.fabUp = false ∧ State.reset.boot.booting = false) := by decide +kernel

/-! ### Registers, power, resets -/

theorem witness_RegisterAccess :
    let scr := tySch * 2 ^ 21 + hScratch
    live.boot.held = false ∧ winExists scr = true ∧ winBcast scr = false ∧ winOff scr = hScratch ∧ winExists (30 * 2 ^ 21 + 2 ^ 12) = false ∧
    winExists (scr + 2 ^ 26) = true ∧ winBcast (scr + 2 ^ 26) = true ∧ withBit scr 26 true = scr + 2 ^ 26 ∧
    live.isBridge = false ∧ (live.setFlag rHbrRole 0 true).isBridge = true ∧ live.nodeId % 32 = 0 := by decide +kernel

/-- ERR_CODE 0 in every page of a type, by broadcast. -/
theorem test_errClear : let s := (live.setHdr tySolv 0 hErrCode 1).setHdr tySolv 3 hErrCode 1
    let u := after (.errCodeClear (BitVec.ofNat 27 (2 ^ 26 + tySolv * 2 ^ 21))) s
    u.hdr tySolv 0 hErrCode = 0 ∧ u.hdr tySolv 3 hErrCode = 0 := by decide +kernel

theorem witness_PowerAndAgeing :
    let x : PlannedUnit := { quantum := 1, dom := 5, unit := 0, up := true, pred := [] }
    let p : State := { live with power := { plan := [x] } }
    let hot : State := { live with power := { hot := [2] } }
    let aged : State := { live with age := { least := [(3, 19)] } }
    let down := live.setHdr tyPwr 0 hHoldStat (2 ^ 31)
    live.power.plan = [] ∧ live.power.queue = [] ∧ p.power.plan = [x] ∧ p.power.queue = [] ∧ x.quantum = p.power.quantum + 1 ∧
    x.dom ∉ p.power.dead ∧ live.pwrUp = true ∧ down.pwrUp = false ∧ powerOf (List.replicate 14 0) (List.replicate 14 0) ≤ live.rd rPwrLimit ∧
    (∀ x, x < 6 → live.clamped x = false) ∧ live.flag rPwrStat 13 = false ∧ (live.setFlag rPwrStat 13 true).flag rPwrStat 13 = true ∧
    live.power.clampSeen = false ∧ live.pins.resetN = true ∧ State.reset.pins.resetN = false ∧ 2 ∈ hot.power.hot ∧
    hot.dieTemp 2 < 980 ∧ 2 ∉ live.power.hot ∧ aged.age.least = [(3, 19)] ∧ SMap.get 0 aged.age.gb 3 < 60 ∧
    ({ aged with age := { least := [(3, 20)] } } : State).age.least = [(3, 20)] := by decide +kernel

theorem witness_PowerAndAgeing_warm :
    let s := (upTo 24).foldl (fun t i => t.wr rThmSensor (1001 + 1001 * 2 ^ 16) 0 (4 * i)) live
    (∀ x, x < 6 → (s.rd rThmTarget : Int) * 10 < s.dieTemp x) ∧ s.pwrUp = true ∧
    (live.wr rThmSensor 980 0 (4 * 8)).dieTemp 2 = 980 ∧ 4 ≤ (s.setFld rAonBootStat 2 0 4).fld rAonBootStat 2 0 := by decide +kernel

theorem witness_ResetsAndStart :
    let held : State := State.reset
    let low : State := { held with boot := { held.boot with needFall := true } }
    let stageAt := fun (n : Nat) => live.setFld rAonBootStat 2 0 n
    let bridge : State := { (stageAt 2).setFlag rHbrRole 0 true with pins := { live.pins with perstN := true } }
    let load : State := { bridge with fwLoad := some { inst := 5, host := 0, len := 1, prior := 0 } }
    live.pins.pwrok = true ∧ held.pins.pwrok = false ∧ live.pins.resetN = true ∧ SMap.wf regDefault live.regs = true ∧
    held.boot.held = true ∧ held.boot.needFall = false ∧ low.pins.resetN = false ∧ held.tap.takesLands = false ∧
    live.boot.held = false ∧ (live.setFlag rClkRefStat 2 true).flag rClkRefStat 2 = true ∧ live.flag rClkRefStat 2 = false ∧
    live.pins.perstN = false ∧ bridge.pins.perstN = true ∧ bridge.fwLoad = none ∧ load.fwLoad.map (·.inst) = some 5 ∧
    bridge.isBridge = true ∧ bridge.flag rClkRefStat 1 = false ∧ bridge.fld rAonBootStat 2 0 = 2 ∧
    (∀ n, n < 6 → (stageAt n).fld rAonBootStat 2 0 = n) ∧ live.boot.spared = false ∧
    (∀ ch, ch < 512 → live.age.find 5 ch = none) ∧ (∃ x ∈ [(3 : Fin 512), 31], ∃ y ∈ [(3 : Fin 512), 31], x ≠ y ∧ x.val / 32 = y.val / 32) ∧
    live.logFrozen = false ∧ (live.setFlag rAgeStat 0 true).boot.held = false := by decide +kernel

/-! ### Firmware, flash, the host, management -/

theorem witness_LoadsBeforeStageAndLogReads :
    let l : FwLoad := { inst := 5, host := 0, len := 1, prior := 2 }
    let s : State := { live with fwLoad := some l, pins := { live.pins with perstN := true } }
    let log := (live.wr rDbgLogHead (2 ^ 32 + 2)).wr rDbgLogTail (2 ^ 32 + 1)
    live.boot.held = false ∧ live.fld rAonBootStat 2 0 < 4 ∧ s.pins.perstN = true ∧ s.fwLoad = some l ∧ l.inst < 6 ∧ l.staged = false ∧
    s.boot.held = false ∧
    ((log.wr rDbgLogSel (2 ^ 32 + 1)).rd rDbgLogTail ≤ (log.wr rDbgLogSel (2 ^ 32 + 1)).rd rDbgLogSel ∧
      (log.wr rDbgLogSel (2 ^ 32 + 1)).rd rDbgLogSel < (log.wr rDbgLogSel (2 ^ 32 + 1)).rd rDbgLogHead) ∧
    ¬ ((log.wr rDbgLogSel (2 ^ 32 + 2)).rd rDbgLogSel < (log.wr rDbgLogSel (2 ^ 32 + 2)).rd rDbgLogHead) := by decide +kernel

/-- A write of DBG_LOG_SEL takes all 64 bits (R349). -/
theorem test_logSel : (after (.registerWrite .host (BitVec.ofNat 27 (tyDbg * 2 ^ 21 + 0x090)) 8 (2 ^ 40 + 5)) live).rd rDbgLogSel = 2 ^ 40 + 5 := by
  decide +kernel

/-- Stage DONE. -/
def started : State := live.setFld rAonBootStat 2 0 4

/-- An image of role 0 with 4 bytes of code and its two signatures (Table 17-9). -/
def fwImage : List Byte :=
  bytesLE 4 0x57464E41 ++ bytesLE 2 1 ++ [0, 0] ++ bytesLE 4 7 ++ bytesLE 4 4 ++ bytesLE 4 0 ++ bytesLE 4 0 ++ List.replicate 40 0 ++
  List.replicate (4 + 3373) 1

def loading (staged : Bool) : State :=
  { lit started with fwLoad := some { inst := 0, host := 0, len := 3441, prior := 0, staged := staged } }

theorem witness_FirmwareAndFlash_load :
    let l : FwLoad := { inst := 0, host := 0, len := 3441, prior := 0 }
    started.boot.held = false ∧ started.fld rAonBootStat 2 0 = 4 ∧ started.fwLoad = none ∧ (3441 : Nat) ≤ maxImage ∧
    live.fld rAonBootStat 2 0 ≠ 4 ∧ (loading false).fwLoad = some l ∧ fwImage.length = l.len ∧
    (loading true).fwLoad = some { l with staged := true } ∧ l.verified = false ∧ (loading true).pathRuns = true ∧ live.pathRuns = false ∧ imageErr ((loading true).stagedImage { l with staged := true }) 0 ≠ eNone ∧
    (loading true).tenantOpen = false ∧ (loading true).sessState ≠ 3 := by decide +kernel

/-- Where its signatures verify, the image is good. -/
theorem witness_FirmwareAndFlash_good
    (a : Config.verify 0 (Config.root 1 0) (ascii "MBFW" ++ sha384 (fwImage.take 68)) ((fwImage.drop 68).take 64) = true)
    (b : Config.verify 1 (Config.root 1 1) (ascii "MBFW" ++ sha384 (fwImage.take 68)) (fwImage.drop 132) = true) :
    imageErr fwImage 0 = eNone := by
  have n : 64 + fieldLE fwImage 0x0C 4 + fieldLE fwImage 0x10 4 = 68 := by decide +kernel
  simp only [imageErr, n]
  rw [if_neg (by decide +kernel), if_neg (by decide +kernel), if_pos ⟨a, b⟩]

theorem witness_FirmwareAndFlash_run :
    let s := started.setFld rFwpStat 3 0 3 4
    let many : State := { s with fws := [(4, { recent := [1, 2, 3] })] }
    let r : State := { (lit started).setFld rFwpStat 3 0 4 4 with fws := [(4, { len := 1 })] }
    let same : State := { r with regs := ((upTo 6).foldl (fun t w => t.wr rFwpMeasure (fieldLE (sha384 [0]) (8 * w) 8) 4 (8 * w)) r).regs }
    s.fwLoad = none ∧ s.fld rFwpStat 3 0 4 = 3 ∧ ((s.fw 4).recent.filter fun t => decide (s.now < t + 10000000000)).length < 3 ∧
    ¬ ((many.fw 4).recent.filter fun t => decide (many.now < t + 10000000000)).length < 3 ∧ started.fwState 4 ≠ 3 ∧
    r.fld rFwpStat 3 0 4 = 4 ∧ sha384 (r.peekN (r.slotBase 4) (r.fw 4).len) ≠ r.measures.getD 4 [] ∧
    sha384 (same.peekN (same.slotBase 4) (same.fw 4).len) = same.measures.getD 4 [] ∧
    r.fwLoad = none ∧ r.pathRuns = true ∧ s.sec.trans = none ∧ ((s.setHdr tySch 0 hHoldStat (2 ^ 31)).down 4 = true) := by decide +kernel

theorem witness_FirmwareAndFlash_flash :
    let s := started.wr rCfgfSize 65536
    let scrub : State := { lit hbm with sec := { startScrub := true } }
    let logged : State := { lit started with log := { queue := [List.replicate 28 1] } }
    s.boot.held = false ∧ s.flag rCfgfStat 0 = false ∧ s.secUp = true ∧ 0x1000 + 256 ≤ s.rd rCfgfSize * 1024 ∧
    s.flashErr 0x2000000 256 false = eNone ∧ s.flashErr 0 1 false ≠ eNone ∧ s.flashErr 0x2000000 4096 false = eNone ∧
    s.flashErr 0 4096 false ≠ eNone ∧ bankBase s.inactiveBank ≠ 0x2000000 ∧
    scrub.pathRuns = true ∧ logged.pathRuns = true ∧ logged.domainsRun [24] = true ∧ scrub.memUp = true ∧ scrub.sec.startScrub = true ∧ scrub.flag rHbmcMap 31 = true ∧ State.reset.memUp = false ∧
    logged.log.queue = List.replicate 28 1 :: [] ∧ logged.down 5 = false ∧ started.log.queue = [] := by decide +kernel

/-- The header of a bank of GEN 1 whose record area is one END record, and that record (Tables 19-2, 19-4). -/
def bank1 : List Byte :=
  let h := bytesLE 4 0x4B4E4253 ++ bytesLE 4 1 ++ bytesLE 4 8 ++ List.replicate 48 0
  let e := bytesLE 2 0xFFFF ++ bytesLE 2 0
  h ++ bytesLE 4 (crcOf h) ++ e ++ bytesLE 4 (crcOf e)

/-- A commit that meets its checks and one that does not; a PROGRAM of an area nothing uses and one of records alone. -/
theorem witness_FirmwareAndFlash_commit :
    let s := started.wr rCfgfSize 65536
    let a := bankBase s.inactiveBank
    s.inactiveBank = 0 ∧ bank1.length = 72 ∧ s.flashErr a 72 false = eNone ∧ meets (a, a + 72) (a, a + 64) = true ∧
    (s.flashProgram a bank1).commitErr 0 = eNone ∧ (s.flashProgram a (List.replicate 72 0)).commitErr 0 = eRange ∧
    s.flashErr 0x1000 72 false = eNone ∧ meets (0x1000, 0x1048) (0x1000, 0x100000) = true ∧ meets (0x1000, 0x1048) (a, a + 64) = false ∧
    s.flashErr (a + 64) 72 false = eNone ∧ meets (a + 64, a + 136) (a, a + 64) = false ∧
    (meets (a + 64, a + 136) (0x1000, 0x100000) || meets (a + 64, a + 136) (0x300000, 0x400000)) = false := by decide +kernel

/-- A transfer under way, with 10 bytes of 64 KiB and 10 left. -/
def xfer (form : Nat) (buffer : Bool) : Xfer :=
  { form := form, buffer := buffer, host := 0, loc := 0x8000, len := 0x1000A, moved := 0x10000, checked := true }

def moving (form : Nat) : State := { enclave 2 [] with sec := { provisioned := true, xfer := some (xfer form false) } }

theorem witness_HostTransfers :
    let s := enclave 2 []
    s.boot.held = false ∧ s.sec.xfer = none ∧ s.secUp = true ∧ State.reset.boot.held = true ∧ State.reset.secUp = false ∧
    s.xferErr { form := 3, buffer := true, host := 0, loc := 0, len := 16384 } = eNone ∧
    s.xferErr { form := 3, buffer := true, host := 0, loc := 1, len := 16384 } ≠ eNone ∧
    (∀ f, f < 4 → (moving f).sec.xfer = some (xfer f false)) ∧ (xfer 0 false).checked = true ∧ (xfer 0 false).stop = false ∧
    min chunkBytes ((xfer 0 false).len - (xfer 0 false).moved) = 10 ∧ (xfer 0 false).len ≤ (xfer 0 false).moved + 10 ∧
    ¬ (({ xfer 0 true with moved := 0 } : Xfer).len ≤ 0 + chunkBytes) ∧ (moving 2).ckpt.run = none ∧ (moving 1).secUp = true ∧
    (xfer 0 true).buffer = true ∧ (lit (moving 0)).pathRuns = true ∧ (lit (moving 0)).sec.xfer = some (xfer 0 false) ∧
    ({ moving 0 with power := {} } : State).pathRuns = false ∧ ({ xfer 2 false with stop := true } : Xfer).stop = true := by decide +kernel

theorem witness_ManagementAndTap :
    let s : State := { live.setFld rAonBootStat 2 0 2 with power := { up := [(24, 1)], wanted := [24] } }
    let on := lit s
    let e : State := { s with mgmt := { events := [(4, 0, 1)] }, pins := { s.pins with smbAlertN := false } }
    let down := s.setHdr tyDbg 0 hHoldStat (2 ^ 31)
    let hidden : State := { s with sec := { provisioned := true, toggles := 1 } }
    s.smbusUp = true ∧ s.down 5 = false ∧ down.down 5 = true ∧ (s.sensorReading 8).isSome = true ∧ s.mgmt.events = [] ∧
    e.mgmt.events = (4, 0, 1) :: [] ∧ e.pins.smbAlertN = false ∧ s.bridgePresent = true ∧ s.domainUp tyDbg 0 = true ∧
    inRegWin 0x8000 1 = false ∧ s.addrRuns 0x8000 = false ∧ on.addrRuns 0x8000 = true ∧
    on.bridgePresent = true ∧ on.boot.held = false ∧ on.domainUp tyDbg 0 = true ∧ on.ckpt.run = none ∧
    on.bridgeMemErr false 0x8000 = eNone ∧ on.bridgeMemErr true 0x8000 = eNone ∧ on.lineState 0x8000 = .plain 0 ∧ s.ckpt.run = none ∧ hidden.bridgePresent = false ∧ s.landLevel 24 = none ∧
    s.landLevel 0 = some true := by decide +kernel

/-- IDCODE shifts out with its least significant bit first (R396). -/
theorem test_idcode : (after (.tapIdcode (List.replicate 4 false)) live).out.getLast? = some (.tdo [true, true, false, false]) := by
  decide +kernel

/-! ### Ill-formed commands -/

/-- Every check of a request header, by a header that breaks it and no other. -/
theorem test_wf_header :
    let q := reqIn 0 0x8000 (List.replicate 8 7)
    q.wf = true ∧ ({ q with opf := 0x20 } : Req).wf = false ∧ ({ q with flags := 0x20 } : Req).wf = false ∧
    ({ q with orig := 0x20 } : Req).wf = false ∧ ({ q with orig := 4 } : Req).wf = false ∧ ({ q with src := 0x4000 } : Req).wf = false ∧
    ({ q with dst := 0x4000 } : Req).wf = false ∧ ({ q with tag := 5120 } : Req).wf = false ∧
    ({ q with addr := 0x100000000000 } : Req).wf = false ∧ ({ q with len := 4097 } : Req).wf = false := by decide

theorem test_wf_payload :
    let q := reqIn 0 0x8000 (List.replicate 8 7)
    let short := { q with len := 9 }
    (Instr.reqStore q).wf = true ∧ (Instr.reqLoad q).wf = false ∧ (Instr.reqStore short).wf = false ∧ (Instr.reqAtomic short).wf = false ∧
    (Instr.reqAtomicP short).wf = false ∧ (Instr.reqBlockAdd short).wf = false ∧ (Instr.reqMcast short 1 [5]).wf = false ∧
    (Instr.reqMcast q 3 [5]).wf = false ∧ (Instr.reqMcast q 3 [5, 6]).wf = true ∧ (Instr.reqObjPut short).wf = false ∧
    (Instr.reqObjGet short).wf = false ∧ (Instr.reqNodeReport q).wf = false ∧ (Instr.reqFloorUpd q).wf = false ∧
    (Instr.reqFloorUpd { q with payload := [], seq := 0, tag := 1 }).wf = false ∧
    (Instr.reqFloorUpd { q with payload := [], seq := 1, tag := 0 }).wf = false := by decide

theorem test_wf_coll :
    (Instr.reqCollContrib (reqIn 0 0 (collMsg 1))).wf = true ∧ (Instr.reqCollContrib (reqIn 0 0 (collMsg 2))).wf = false ∧
    (Instr.reqCollResult (reqIn 0 0 (collMsg 1))).wf = false ∧ (Instr.reqCollNotice (reqIn 0 0 (collMsg 1))).wf = false ∧
    (Instr.reqCollFailed (reqIn 0 0 (collMsg 1))).wf = false ∧
    (Instr.reqCollContrib (reqIn 0 0 ((collMsg 1).take 31))).wf = false := by decide

theorem test_wf_response :
    let p : Rsp := { err := 0, flags := 1, src := 1, dst := 0, tag := 5119, age := 0, seq := 1, data := [] }
    let d := { p with data := [1] }
    (Instr.rspData d).wf = true ∧ (Instr.rspAck p).wf = true ∧ (Instr.rspErr { p with err := 1 }).wf = true ∧
    (Instr.rspData { d with err := 1 }).wf = false ∧ (Instr.rspAck d).wf = false ∧ (Instr.rspAck { p with err := 1 }).wf = false ∧
    (Instr.rspErr p).wf = false ∧ (Instr.rspErr { d with err := 1 }).wf = false ∧ ({ p with flags := 2 } : Rsp).wf = false ∧
    ({ p with src := 0x4000 } : Rsp).wf = false ∧ ({ p with dst := 0x4000 } : Rsp).wf = false ∧ ({ p with tag := 5120 } : Rsp).wf = false := by
  decide

theorem test_wf_lengths :
    (Instr.rxPowerDetect 0 (List.replicate 7 0)).wf = false ∧ (Instr.keyExchange 0 key0).wf = false ∧ (Instr.quantum [0]).wf = false ∧
    (Instr.pwrLoop (List.replicate 13 0) (List.replicate 14 0) (List.replicate 6 0)).wf = false ∧
    (Instr.pwrLoop (List.replicate 14 0) (List.replicate 13 0) (List.replicate 6 0)).wf = false ∧
    (Instr.pwrLoop (List.replicate 14 0) (List.replicate 14 0) (List.replicate 5 0)).wf = false ∧
    (Instr.ageSample [(0, 0)]).wf = false ∧ (Instr.ageEval [(0, [])] [] true).wf = false ∧ (Instr.ageEval [] [(0, [])] true).wf = false ∧
    (Instr.flashProgram 0 2 [0] true).wf = false := by decide

/-- A frame of 5,140 bytes, the seven credits of an identity record, and a forwarded packet (Tables 11-3, 11-4, R234). -/
theorem test_wf_links :
    let r : IdentRec := { node := 4, port := 3, kind := 1, stepping := 0, credits := List.replicate 7 64, boot := false }
    (Instr.identityRecord 3 r).wf = true ∧ (Instr.identityRecord 3 { r with credits := List.replicate 6 64 }).wf = false ∧
    (Instr.linkFrame 3 (frame0 0 0 [])).wf = false ∧ (Instr.linkFrame 3 { frame0 0 0 [] with bytes := List.replicate 5140 0 }).wf = true ∧
    (packet 5).wf = true ∧ ({ packet 5 with rflags := 0x40 } : Packet).wf = false ∧
    (packet 0x4000).wf = false ∧ (Cargo.request 1 { loadIn 0x8000 with flags := 0x20 }).wf = false := by decide +kernel

/-- Lengths too long to write out. -/
theorem test_wf_long (d : List Byte) (h : 2 ^ 32 ≤ d.length) : (Instr.fwpImageStaged d).wf = false ∧ (Instr.hostXferChunk d).wf = false :=
  ⟨decide_eq_false (by omega), decide_eq_false (by omega)⟩

theorem test_wf_scans :
    (Instr.tapExtest [true]).wf = false ∧ (Instr.tapIdcode [true]).wf = false ∧ (Instr.tapSamplePreload [true]).wf = false ∧
    (Instr.tapClamp []).wf = false ∧ (Instr.tapHighz []).wf = false ∧ (Instr.tapExtestPulse [true]).wf = false ∧
    (Instr.tapExtestTrain [true]).wf = false ∧ (Instr.tapBypass []).wf = false := by decide

/-- The parts of a key exchange, one too short at a time. -/
theorem test_wf_key :
    let k := { key0 with x25519 := List.replicate 32 0, mlkem := List.replicate 1184 0, idEd := List.replicate 32 0 }
    k.wf = true ∧ ({ k with x25519 := [] } : KeyMsg).wf = false ∧ ({ k with mlkem := [] } : KeyMsg).wf = false ∧
    ({ k with idEd := [] } : KeyMsg).wf = false := by decide +kernel

/-- The opcode table gives no row any bits. -/
theorem test_noBits : decodeTableWord 32 0 = none ∧ (State.reset.withFetchWord 32 0) = State.reset := ⟨rfl, rfl⟩


end Sys2Proof.Tests
end

section
/-!
PROOFS. The fused multiply-adds of the wide lane (R138, R139). Three layers: how a wide register packs and unpacks its elements; what
the element-wise write of R138 does to a thread; and what an element-wise instruction does to the node, whatever its function. An
element-wise instruction then needs only the function it applies.
-/

namespace Sys2Proof

theorem ElemType.width_pos (et : ElemType) : 0 < et.width := by cases et <;> decide

/-- The elements of a type fill a wide register. -/
theorem ElemType.width_mul_count (et : ElemType) : et.width * et.count = 512 := by cases et <;> rfl

end Sys2Proof

namespace Sys2Proof.Machine

/-! ### Elements of a wide register -/

/-- An element is a digit to the base `2 ^ w`. -/
theorem wideElem_eq_digit (v : Wide) {w : Nat} (hw : 0 < w) (i : Nat) : wideElem v w i = v.toNat / 2 ^ (w * i) % 2 ^ w := by
  unfold wideElem bitsOf
  rw [show w * i + w - 1 + 1 - w * i = w by omega]

/-- An element fits its width. -/
theorem wideElem_mod (v : Wide) {w : Nat} (hw : 0 < w) (i : Nat) : wideElem v w i % 2 ^ w = wideElem v w i := by
  rw [wideElem_eq_digit v hw, Nat.mod_mod]

/-- Digit `i` of a number put together from digits to the base `2 ^ w`. -/
theorem foldr_pack_digit (w : Nat) (es : List Nat) {i : Nat} (hi : i < es.length) :
    es.foldr (fun e acc => e % 2 ^ w + acc * 2 ^ w) 0 / 2 ^ (w * i) % 2 ^ w = es[i] % 2 ^ w := by
  induction es generalizing i with
  | nil => simp at hi
  | cons e es ih =>
    cases i with
    | zero => simp
    | succ i =>
      have hlow : e % 2 ^ w / 2 ^ w = 0 := Nat.div_eq_of_lt (Nat.mod_lt _ (Nat.two_pow_pos w))
      rw [Nat.mul_succ, Nat.add_comm (w * i), Nat.pow_add, ← Nat.div_div_eq_div_mul, List.foldr_cons,
        Nat.add_mul_div_right _ _ (Nat.two_pow_pos w), hlow, Nat.zero_add]
      exact ih (Nat.lt_of_succ_lt_succ hi)

/-- A register assembled from elements holds each of them, cut to its width. -/
theorem wideElem_wideOf {w : Nat} {es : List Nat} (hw : 0 < w) (hlen : w * es.length ≤ 512) {i : Nat} (hi : i < es.length) :
    wideElem (wideOf w es) w i = es[i] % 2 ^ w := by
  have htop : w * i + w ≤ 512 := Nat.le_trans (Nat.mul_le_mul_left w hi) hlen
  have hsplit : 512 = w * i + (512 - w * i) := by omega
  rw [wideElem_eq_digit _ hw, wideOf, BitVec.toNat_ofNat, hsplit, Nat.pow_add, Nat.mod_mul_right_div_self,
    Nat.mod_mod_of_dvd _ (Nat.pow_dvd_pow 2 (by omega)), foldr_pack_digit w es hi]

/-! ### The element-wise write of R138 -/

theorem Flags.or_empty (a : Flags) : a.or {} = a := by simp [Flags.or]

/-- Flags raised by active elements only, whatever stands in the others: leaving those out is the same. -/
theorem foldl_flags_active (p : Nat → Bool) (f : Nat → Nat × Flags) (old : Nat → Nat) (l : List Nat) (a : Flags) :
    (l.map fun i => if p i then f i else (old i, {})).foldl (fun a e => a.or e.2) a =
      (l.filter p).foldl (fun a i => a.or (f i).2) a := by
  induction l generalizing a with
  | nil => rfl
  | cons i l ih =>
    by_cases hp : p i = true
    · simp only [List.map_cons, List.foldl_cons, List.filter_cons, hp, if_true, ih]
    · simp only [List.map_cons, List.foldl_cons, List.filter_cons, hp, Bool.false_eq_true, if_false, Flags.or_empty, ih]

section
variable (th : Thread) (w n : Nat) (k : BitVec 3) (z : Bool) (wd : BitVec 5) (f : Nat → Nat × Flags)

/-- Of the thread, the write changes wide registers and raises the flags of the active elements. -/
theorem Thread.wideWrite_frame : th.wideWrite w n k z wd f = { th with
    w := (th.wideWrite w n k z wd f).w, fpstat := th.fpstat ||| BitVec.ofNat 64 (activeFlags th k n f).bits } := by
  unfold activeFlags
  rw [← foldl_flags_active _ f fun i => if z then 0 else wideElem (th.getW wd) w i]
  rfl

/-- Every wide register but the destination is left alone. -/
theorem Thread.getW_wideWrite_ne {r : BitVec 5} (h : r ≠ wd) : (th.wideWrite w n k z wd f).getW r = th.getW r :=
  th.getW_setW_ne _ h

/-- What the destination holds after the write, element by element. -/
theorem Thread.wideElem_wideWrite (hw : 0 < w) (hn : w * n ≤ 512) {i : Nat} (hi : i < n) :
    wideElem ((th.wideWrite w n k z wd f).getW wd) w i =
      if th.active k i then (f i).1 % 2 ^ w else if z then 0 else wideElem (th.getW wd) w i := by
  have hreg : (th.wideWrite w n k z wd f).getW wd = wideOf w (((upTo n).map fun i =>
      if th.active k i then f i else (if z then 0 else wideElem (th.getW wd) w i, {})).map (·.1)) := th.getW_setW_same wd _
  rw [hreg, wideElem_wideOf hw (by simpa [upTo] using hn) (by simpa [upTo] using hi)]
  simp only [upTo, List.map_map, List.getElem_map, List.getElem_range, Function.comp_apply]
  split
  · rfl
  split
  · exact Nat.zero_mod _
  · exact wideElem_mod _ hw i

/-! ### Element-wise instructions on the node -/

/-- An effect on one thread leaves the rest of the node alone. -/
theorem onlyThread_threadDo (s : State) (t : Fin 512) (g : Thread → Thread) : onlyThread s (s.threadDo t.val g) t :=
  ⟨rfl, fun _ hk => s.thread_threadDo_ne g hk⟩

/-- The element-wise write, done by a thread of the node, is an element-wise result (R138). -/
theorem wroteElems_threadDo (s : State) (t : Fin 512) (hw : 0 < w) (hn : w * n ≤ 512) {g : Thread → Nat → Nat × Flags}
    (hg : g (s.thread t.val) = f) :
    wroteElems t w n k z wd f s (s.threadDo t.val fun th => th.wideWrite w n k z wd (g th)) := by
  refine ⟨onlyThread_threadDo s t _, ?_, fun i hi => ?_, fun r hr => ?_⟩ <;> rw [State.thread_threadDo_same, hg]
  · exact congrArg Thread.step (Thread.wideWrite_frame (s.thread t.val) w n k z wd f)
  · exact (s.thread t.val).wideElem_wideWrite w n k z wd f hw hn hi
  · exact (s.thread t.val).getW_wideWrite_ne w n k z wd f hr

end

/-- Issuing changes only the cycles of the thread, so what does not depend on those is the same on the node as issued. -/
theorem State.thread_issued_congr {α : Type} (s : State) (t : Fin 512) {g : Thread → α}
    (hg : ∀ c, g { s.thread t.val with cycles := c } = g (s.thread t.val)) : g ((s.issued t).thread t.val) = g (s.thread t.val) := by
  obtain ⟨-, -, -, hth, -⟩ := s.issued_only t
  rw [hth, hg]

/-- A wide instruction whose element type is allowed has its effect on the thread of the node as issued. -/
theorem issues_wideExec {c : Instr} {t : Fin 512} {word ign : Nat} {s : State} {g : Thread → Thread} {P : State → State → Prop}
    (hc : exec c s = .next (wideExec t word ign true g s)) (hP : P (s.issued t) ((s.issued t).threadDo t.val g)) :
    Issues c t word s P ign := by
  intro hrun
  refine ⟨_, hc, ?_⟩
  rw [wideExec, State.coreExec_canRun hrun, if_pos rfl]
  exact hP

/-- An element-wise instruction gives each active element the function of the sources as they were before it issued. -/
theorem issues_wideWrite {c : Instr} {t : Fin 512} {word ign : Nat} {s : State} {et : ElemType} {k : BitVec 3} {z : Bool} {wd : BitVec 5}
    {g : Thread → Nat → Nat × Flags}
    (hc : exec c s = .next (wideExec t word ign true (fun th => th.wideWrite et.width et.count k z wd (g th)) s))
    (hg : ∀ cyc, g { s.thread t.val with cycles := cyc } = g (s.thread t.val)) :
    Issues c t word s (wroteElems t et.width et.count k z wd (g (s.thread t.val))) ign :=
  issues_wideExec hc <|
    wroteElems_threadDo et.width et.count k z wd _ (s.issued t) t et.width_pos (Nat.le_of_eq et.width_mul_count) (s.thread_issued_congr t hg)

/-! ### Fused multiply-add (R139) -/

/-- FT names the four floating element types in the order of R139. -/
theorem ftElem_of_mem : ∀ x ∈ ([(0, .f64), (1, .f32), (2, .f16), (3, .bf16)] : List (BitVec 2 × ElemType)), ftElem x.1 = x.2 := by
  decide

/-- A fused multiply-add on element `i` of three wide registers of a thread, with either sign of the product and of the addend. -/
def Thread.fmaElem (th : Thread) (et : ElemType) (negProduct negAddend : Bool) (ws1 ws2 ws3 : BitVec 5) (i : Nat) : Nat × Flags :=
  fpFma et.fmt et.fmt th.rm negProduct negAddend
    (wideElem (th.getW ws1) et.width i) (wideElem (th.getW ws2) et.width i) (wideElem (th.getW ws3) et.width i)

/-- The shared body of the four is an element-wise write of `Thread.fmaElem`. -/
theorem wideFma_eq (t : Fin 512) (op : Nat) (ft : BitVec 2) (k : BitVec 3) (z : Bool) (wd ws1 ws2 ws3 : BitVec 5)
    (negProduct negAddend : Bool) (s : State) :
    wideFma t op ft k z wd ws1 ws2 ws3 negProduct negAddend s = wideExec t (encW3 op wd ws1 ws2 ws3 k z ft) noField true
      (fun th => th.wideWrite (ftElem ft).width (ftElem ft).count k z wd
        (th.fmaElem (ftElem ft) negProduct negAddend ws1 ws2 ws3)) s := rfl

/-- The four give each active element the fused product and addend of the sources as they were before the instruction issued. -/
theorem issues_wideFma {c : Instr} {t : Fin 512} {op : Nat} {ft : BitVec 2} {k : BitVec 3} {z : Bool} {wd ws1 ws2 ws3 : BitVec 5}
    {negProduct negAddend : Bool} {s : State}
    (hc : exec c s = .next (wideFma t op ft k z wd ws1 ws2 ws3 negProduct negAddend s)) :
    Issues c t (encW3 op wd ws1 ws2 ws3 k z ft) s (wroteElems t (ftElem ft).width (ftElem ft).count k z wd
      ((s.thread t.val).fmaElem (ftElem ft) negProduct negAddend ws1 ws2 ws3)) := by
  rw [wideFma_eq] at hc
  exact issues_wideWrite (g := fun th => th.fmaElem (ftElem ft) negProduct negAddend ws1 ws2 ws3) hc fun _ => rfl

/-- Settles O18: each of the four runs `wideFma` with its own two signs, on the element type that FT names. -/
theorem wideFusedMultiplyAdd : Obligations.WideFusedMultiplyAdd := by
  rintro s t k z wd ws1 ws2 ws3 ⟨ft, et⟩ hx
  obtain rfl : ftElem ft = et := ftElem_of_mem _ hx
  exact ⟨issues_wideFma rfl, issues_wideFma rfl, issues_wideFma rfl, issues_wideFma rfl⟩

end Sys2Proof.Machine
end

section
/-!
PROOFS. What a request of this node leaves by: the switch (R238, R240, R242). Sending changes the switch, its ports, the registers and
what the node has sent, and takes back nothing that it has sent. Where a path to the target is up, the packet finds a first hop whatever
route class it takes: a non-minimal route is considered only through a first hop that is up.
-/

namespace Sys2Proof

/-- The group that a packet goes to next (R240). -/
def Packet.towards (k : Packet) : Nat :=
  if k.nonmin ∧ ¬ k.ingroup ∧ ¬ k.passed then k.inter.toNat % 512 else k.target.toNat % 2 ^ 14 / 32

/-- The member of its own group that a packet goes to next (R240). -/
def Packet.member (k : Packet) : Nat := if k.nonmin ∧ k.ingroup ∧ ¬ k.passed then k.inter.toNat % 32 else k.target.toNat % 32

end Sys2Proof

namespace Sys2Proof.Machine

/-! ### What sending changes -/

/-- `u` is `s` after the switch has worked: only the switch, its ports, registers and what has been sent may differ, and all that had
been sent stays sent. -/
def State.Switched (s u : State) : Prop :=
  ∃ sw ports regs out, u = { s with sw := sw, ports := ports, regs := regs, out := out } ∧ s.out ⊆ out

variable {s t u : State}

theorem State.Switched.refl (s : State) : s.Switched s := ⟨_, _, _, _, rfl, List.Subset.refl _⟩

theorem State.Switched.trans (h : s.Switched t) (h' : t.Switched u) : s.Switched u := by
  obtain ⟨_, _, _, _, rfl, ho⟩ := h
  obtain ⟨_, _, _, _, rfl, ho'⟩ := h'
  exact ⟨_, _, _, _, rfl, List.Subset.trans ho ho'⟩

theorem State.Switched.frame (h : s.Switched u) : u = { s with sw := u.sw, ports := u.ports, regs := u.regs, out := u.out } := by
  obtain ⟨_, _, _, _, rfl, _⟩ := h
  rfl

theorem State.Switched.mem_out (h : s.Switched u) {m : OutMsg} (hm : m ∈ s.out) : m ∈ u.out := by
  obtain ⟨_, _, _, _, rfl, ho⟩ := h
  exact ho hm

theorem State.switched_bump (s : State) (r : Reg) (n i : Nat) : s.Switched (s.bump r n i) := ⟨_, _, _, _, rfl, List.Subset.refl _⟩

theorem State.switched_bump64 (s : State) (r : Reg) (n i : Nat) : s.Switched (s.bump64 r n i) := ⟨_, _, _, _, rfl, List.Subset.refl _⟩

theorem State.switched_onPort (s : State) (p : Nat) (f : Port → Port) : s.Switched (s.onPort p f) :=
  ⟨_, _, _, _, rfl, List.Subset.refl _⟩

theorem State.switched_emit (s : State) (m : OutMsg) : s.Switched (s.emit m) := ⟨_, _, _, _, rfl, List.subset_append_left _ _⟩

theorem State.switched_sendFrame (s : State) (p : Nat) (bs : List Block) (flags : Nat) : s.Switched (s.sendFrame p bs flags) :=
  ((s.switched_onPort _ _).trans (State.switched_bump64 _ _ _ _)).trans (State.switched_emit _ _)

theorem State.switched_portPump (s : State) (p fuel : Nat) : s.Switched (s.portPump p fuel) := by
  induction fuel generalizing s with
  | zero => exact .refl s
  | succ fuel ih =>
    unfold State.portPump
    dsimp only
    split
    · exact .refl s
    · have taken := fun x n => (s.switched_onPort p x).trans (State.switched_bump _ rFportCreditStall n p)
      split
      · exact taken _ _
      · exact ((taken _ _).trans (State.switched_sendFrame _ _ _ _)).trans (ih _)

theorem State.switched_portGo (s : State) (p : Nat) : s.Switched (s.portGo p) := s.switched_portPump _ _

theorem State.switched_sendPacket (s : State) (k : Packet) (p : Nat) : s.Switched (s.sendPacket k p) :=
  ((s.switched_onPort _ _).trans (State.switched_emit _ _)).trans (State.switched_portGo _ _)

theorem State.switched_forward (s : State) (k : Packet) : s.Switched (s.forward k) := by
  unfold State.forward
  split
  · next re _ =>
    cases re
    · exact s.switched_sendPacket _ _
    · exact (s.switched_bump _ _ _).trans (State.switched_sendPacket _ _ _)
  · exact s.switched_bump _ _ _

/-- Choosing a route class turns the rotation of candidates on, and changes nothing else. -/
theorem State.routeClass_state (s : State) (n : Nat) (c : Cargo) :
    ∃ i j, (s.routeClass n c).2 = { s with sw := { s.sw with lastMember := i, lastGroup := j } } := by
  unfold State.routeClass
  dsimp only
  split
  · exact ⟨_, _, rfl⟩
  split
  · split <;> exact ⟨_, _, rfl⟩
  · split <;> exact ⟨_, _, rfl⟩

theorem State.switched_routeClass (s : State) (n : Nat) (c : Cargo) : s.Switched (s.routeClass n c).2 := by
  obtain ⟨i, j, h⟩ := s.routeClass_state n c
  exact h ▸ ⟨_, _, _, _, rfl, List.Subset.refl _⟩

theorem State.switched_inject (s : State) (target : Nat) (c : Cargo) : s.Switched (s.inject target c) := by
  unfold State.inject
  split
  · dsimp only
    split
    · exact s.switched_sendPacket _ _
    · exact s.switched_bump _ _ _
  · exact (s.switched_routeClass _ _).trans (State.switched_forward _ _)
  · exact s.switched_bump _ _ _

/-! ### The packet that leaves -/

/-- The packet of a cargo to a node as its source forms it on a minimal route (R240). -/
def minPacket (n : Nat) (c : Cargo) : Packet := { rflags := 0, hops := 0, inter := 0, target := BitVec.ofNat 16 n, cargo := c }

/-- A packet that is queued on a port leaves, with one hop more. -/
theorem State.packet_mem_sendPacket (s : State) (k : Packet) (p : Nat) :
    OutMsg.packet p { k with hops := k.hops + 1 } ∈ (s.sendPacket k p).out :=
  (State.switched_portGo _ p).mem_out (List.mem_append_right _ (List.mem_singleton_self _))

theorem State.viaGroup_cargo {k k' : Packet} {p : Nat} {re : Bool} (h : s.viaGroup k = some (p, k', re)) : k'.cargo = k.cargo := by
  unfold State.viaGroup at h
  split at h
  · exact nomatch h
  · obtain ⟨q, -, hq⟩ := List.exists_of_findSome?_eq_some h
    split at hq
    · obtain ⟨g, -, hg⟩ := Option.map_eq_some_iff.mp hq
      cases hg
      rfl
    · exact nomatch hq

theorem State.viaMember_cargo {k k' : Packet} {d p : Nat} {re : Bool} (h : s.viaMember k d = some (p, k', re)) :
    k'.cargo = k.cargo := by
  unfold State.viaMember at h
  dsimp only at h
  split at h
  · exact nomatch h
  · obtain ⟨x, -, hx⟩ := Option.map_eq_some_iff.mp h
    cases hx
    rfl

/-- The hop of a packet to a member of the own group. -/
def State.localHop (s : State) (k : Packet) (m : Nat) : Option (Nat × Packet × Bool) :=
  if s.carries k.cargo (localPort (s.nodeId % 32) m) then some (localPort (s.nodeId % 32) m, k, false) else s.viaMember k m

/-- The exits to a group whose global port is up. -/
def State.upExits (s : State) (g : Nat) : List (Nat × Nat) := (s.exits g).filter fun e => s.portUp e.1 e.2

/-- The hop of a packet to another group. -/
def State.groupHop (s : State) (k : Packet) (g : Nat) : Option (Nat × Packet × Bool) :=
  match s.bestExit (s.upExits g) with
  | some e =>
    if s.portKeyed (s.exitHop e) then some (s.exitHop e, k, false)
    else
      match s.bestExit ((s.upExits g).filter fun x => s.portKeyed (s.exitHop x)) with
      | some x => some (s.exitHop x, k.setFlag 3, true)
      | none => if e.1 = s.nodeId % 32 then s.viaGroup k else s.viaMember k e.1
  | none => s.viaGroup k

/-- The next hop lies in the own group or leads to another. -/
theorem State.nextHop_eq (s : State) (k : Packet) :
    s.nextHop k = if k.towards = s.nodeId / 32 then s.localHop k k.member else s.groupHop k k.towards := rfl

theorem State.localHop_cargo {k k' : Packet} {m p : Nat} {re : Bool} (h : s.localHop k m = some (p, k', re)) :
    k'.cargo = k.cargo := by
  unfold State.localHop at h
  split at h
  · cases h; rfl
  · exact State.viaMember_cargo h

theorem State.groupHop_cargo {k k' : Packet} {g p : Nat} {re : Bool} (h : s.groupHop k g = some (p, k', re)) :
    k'.cargo = k.cargo := by
  unfold State.groupHop at h
  split at h
  · split at h
    · cases h; rfl
    split at h
    · cases h; rfl
    split at h
    · exact State.viaGroup_cargo h
    · exact State.viaMember_cargo h
  · exact State.viaGroup_cargo h

/-- A switch sends a packet on with the cargo it has. -/
theorem State.nextHop_cargo {k k' : Packet} {p : Nat} {re : Bool} (h : s.nextHop k = some (p, k', re)) : k'.cargo = k.cargo := by
  rw [State.nextHop_eq] at h
  split at h
  · exact State.localHop_cargo h
  · exact State.groupHop_cargo h

/-- A packet that has a next hop leaves with its cargo. -/
theorem State.packet_mem_forward {k : Packet} (h : (s.nextHop k).isSome = true) :
    ∃ port k', OutMsg.packet port k' ∈ (s.forward k).out ∧ k'.cargo = k.cargo := by
  obtain ⟨⟨p, k', re⟩, hk⟩ := Option.isSome_iff_exists.mp h
  refine ⟨p, { k' with hops := k'.hops + 1 }, ?_, (State.nextHop_cargo hk :)⟩
  unfold State.forward
  rw [hk]
  exact State.packet_mem_sendPacket _ _ _

/-! ### The routes of a source -/

theorem leastOf_isSome {α : Type} (f : α → Nat) {xs : List α} (h : xs ≠ []) : (leastOf f xs).isSome = true := by
  cases xs with
  | nil => exact absurd rfl h
  | cons x xs => unfold leastOf; split <;> rfl

/-- Among exits there is a best one. -/
theorem State.bestExit_isSome (s : State) {es : List (Nat × Nat)} {e : Nat × Nat} (h : e ∈ es) : (s.bestExit es).isSome = true := by
  unfold State.bestExit
  dsimp only
  rw [Option.isSome_or, Bool.or_eq_true]
  by_cases he : e.1 = s.nodeId % 32
  · exact .inl (leastOf_isSome _ (List.ne_nil_of_mem (List.mem_filter.mpr ⟨h, by simpa using he⟩)))
  · exact .inr (leastOf_isSome _ (List.ne_nil_of_mem (List.mem_filter.mpr ⟨h, by simpa using he⟩)))

theorem nextAfter_mem {last x : Nat} {xs : List Nat} (h : nextAfter last xs = some x) : x ∈ xs := by
  unfold nextAfter at h
  rcases Option.or_eq_some_iff.mp h with h | ⟨-, h⟩
  · exact List.mem_of_find?_eq_some h
  · exact List.mem_of_head? h

/-- A member that the own port is keyed to is reached. -/
theorem State.localHop_isSome {k : Packet} {m : Nat} (h : s.portKeyed (localPort (s.nodeId % 32) m) = true) :
    (s.localHop k m).isSome = true := by
  unfold State.localHop State.carries
  rw [h, Bool.true_or, if_pos rfl]
  rfl

/-- A group with an exit that is up, behind a first hop that is keyed, is reached. -/
theorem State.groupHop_isSome {k : Packet} {g : Nat} {e : Nat × Nat} (he : e ∈ s.exits g) (hup : s.portUp e.1 e.2 = true)
    (hkey : s.portKeyed (s.exitHop e) = true) : (s.groupHop k g).isSome = true := by
  have hmem : e ∈ s.upExits g := List.mem_filter.mpr ⟨he, hup⟩
  obtain ⟨x, hx⟩ := Option.isSome_iff_exists.mp (s.bestExit_isSome hmem)
  obtain ⟨y, hy⟩ := Option.isSome_iff_exists.mp (s.bestExit_isSome (es := (s.upExits g).filter fun x =>
    s.portKeyed (s.exitHop x)) (List.mem_filter.mpr ⟨hmem, hkey⟩))
  unfold State.groupHop
  rw [hx]
  dsimp only
  rw [hy]
  split <;> rfl

/-- The packet of a cargo to a node through a member of the own group. -/
def viaMemberPacket (n : Nat) (c : Cargo) (x : Nat) : Packet :=
  { ((minPacket n c).setFlag 0).setFlag 1 with inter := BitVec.ofNat 16 x }

/-- The packet of a cargo to a node through another group. -/
def viaGroupPacket (n : Nat) (c : Cargo) (g : Nat) : Packet := { (minPacket n c).setFlag 0 with inter := BitVec.ofNat 16 g }

/-- NONMIN and INGROUP are set, PASSED is not. -/
theorem viaMemberPacket_rflags (n : Nat) (c : Cargo) (x : Nat) : (viaMemberPacket n c x).rflags = 3 :=
  (by decide : BitVec.ofNat 8 (withBit (BitVec.ofNat 8 (withBit 0 0 true)).toNat 1 true) = 3)

/-- NONMIN is set, INGROUP and PASSED are not. -/
theorem viaGroupPacket_rflags (n : Nat) (c : Cargo) (g : Nat) : (viaGroupPacket n c g).rflags = 1 :=
  (by decide : BitVec.ofNat 8 (withBit 0 0 true) = 1)

theorem viaMemberPacket_towards {n : Nat} (c : Cargo) (x : Nat) (hn : n < 2 ^ 14) : (viaMemberPacket n c x).towards = n / 32 := by
  have htarget : (viaMemberPacket n c x).target.toNat = n := Nat.mod_eq_of_lt (by omega)
  unfold Packet.towards Packet.nonmin Packet.ingroup Packet.passed
  rw [viaMemberPacket_rflags, if_neg (by decide), htarget, Nat.mod_eq_of_lt hn]

theorem viaMemberPacket_member (n : Nat) (c : Cargo) {x : Nat} (hx : x < 32) : (viaMemberPacket n c x).member = x := by
  have hinter : (viaMemberPacket n c x).inter.toNat = x := Nat.mod_eq_of_lt (by omega)
  unfold Packet.member Packet.nonmin Packet.ingroup Packet.passed
  rw [viaMemberPacket_rflags, if_pos (by decide), hinter, Nat.mod_eq_of_lt hx]

theorem viaGroupPacket_towards (n : Nat) (c : Cargo) {g : Nat} (hg : g < 512) : (viaGroupPacket n c g).towards = g := by
  have hinter : (viaGroupPacket n c g).inter.toNat = g := Nat.mod_eq_of_lt (by omega)
  unfold Packet.towards Packet.nonmin Packet.ingroup Packet.passed
  rw [viaGroupPacket_rflags, if_pos (by decide), hinter, Nat.mod_eq_of_lt hg]

/-- A route through a candidate member has a first hop. -/
theorem State.nextHop_viaMember (s : State) {n x : Nat} (c : Cargo) (hn : n < 2 ^ 14) (hg : n / 32 = s.nodeId / 32)
    (hx : x ∈ s.membersVia (n % 32)) : (s.nextHop (viaMemberPacket n c x)).isSome = true := by
  obtain ⟨hlt, hkey⟩ := List.mem_filter.mp hx
  rw [State.nextHop_eq, viaMemberPacket_towards c x hn, if_pos hg, viaMemberPacket_member n c (List.mem_range.mp hlt)]
  exact State.localHop_isSome (Bool.and_eq_true_iff.mp hkey).2

/-- G − 1 is a field of nine bits. -/
theorem State.groupsLess1_lt (s : State) : s.groupsLess1 < 512 := Nat.mod_lt _ (by decide)

/-- A route through a candidate group has a first hop. -/
theorem State.nextHop_viaGroup (s : State) (n : Nat) {tg g : Nat} (c : Cargo) (hg : g ∈ s.groupsVia tg) :
    (s.nextHop (viaGroupPacket n c g)).isSome = true := by
  obtain ⟨hlt, hg⟩ := List.mem_filter.mp hg
  simp only [Bool.and_eq_true, decide_eq_true_eq, List.any_eq_true] at hg
  obtain ⟨⟨-, hne⟩, e, he, hup, hkey⟩ := hg
  have hlt : g < 512 := by have := List.mem_range.mp hlt; have := s.groupsLess1_lt; omega
  rw [State.nextHop_eq, viaGroupPacket_towards n c hlt, if_neg hne]
  exact State.groupHop_isSome he hup hkey

/-- Where the minimal route has a first hop, the route class that the source takes has one too, in the state it leaves. -/
theorem State.nextHop_routeClass (s : State) {n : Nat} (c : Cargo) (hn : n < 2 ^ 14) (h : (s.nextHop (minPacket n c)).isSome = true) :
    ((s.routeClass n c).2.nextHop (s.routeClass n c).1).isSome = true ∧ (s.routeClass n c).1.cargo = c := by
  unfold State.routeClass
  dsimp only
  split
  · exact ⟨h, rfl⟩
  split
  · next hg =>
    split
    · next x hx =>
      split
      · exact ⟨s.nextHop_viaMember c hn hg (nextAfter_mem hx), rfl⟩
      · exact ⟨h, rfl⟩
    · exact ⟨h, rfl⟩
  · split
    · next g hg =>
      split
      · exact ⟨s.nextHop_viaGroup n c (nextAfter_mem hg), rfl⟩
      · exact ⟨h, rfl⟩
    · exact ⟨h, rfl⟩

/-- A target is reached at a node number of 14 bits. -/
theorem State.attach_lt {target n : Nat} (h : s.attach target = some n) : n < 2 ^ 14 := by
  unfold State.attach at h
  split at h
  · cases h; exact Nat.mod_lt _ (by decide)
  · obtain ⟨⟨m, p⟩, hg, rfl⟩ := Option.map_eq_some_iff.mp h
    unfold State.gateway at hg
    dsimp only at hg
    split at hg
    · cases hg; exact Nat.mod_lt _ (by decide)
    · exact nomatch hg

/-- A gateway that hangs on a port of this node is reached. -/
theorem State.attach_of_gatePort {target p : Nat} (h : s.gatePort target = some p) : ∃ n, s.attach target = some n := by
  unfold State.gatePort at h
  unfold State.attach
  split at h
  · exact nomatch h
  · next ht =>
    rw [if_neg ht]
    split at h
    · next n _ hg => exact ⟨n, by rw [hg]; rfl⟩
    · exact nomatch h

/-- Where a path to the target is up, what is put on the fabric leaves in a packet. -/
theorem State.packet_mem_inject (s : State) {target : Nat} {c : Cargo} (h : s.pathTo target c = true) :
    ∃ port k, OutMsg.packet port k ∈ (s.inject target c).out ∧ k.cargo = c := by
  unfold State.pathTo at h
  unfold State.inject
  split at h
  · next p hp =>
    obtain ⟨n, hn⟩ := State.attach_of_gatePort hp
    rw [hp, hn]
    dsimp only
    rw [if_pos h]
    exact ⟨p, _, State.packet_mem_sendPacket _ _ _, rfl⟩
  · next n hp hn =>
    rw [hp, hn]
    obtain ⟨hop, hcargo⟩ := s.nextHop_routeClass c (State.attach_lt hn) h
    obtain ⟨port, k, hk, hkc⟩ := State.packet_mem_forward hop
    exact ⟨port, k, hk, hkc.trans hcargo⟩
  · exact nomatch h

end Sys2Proof.Machine
end

section
/-!
PROOFS. The declaration of a dead target (R209). What follows the entry of the target in the list (its FXP_DEAD entry, the error, the
failed system requests, the log and the report) leaves memory, the time, the list and FXP_DEAD_COUNT alone.
-/

namespace Sys2Proof.Machine

/-! ### What leaves the list of dead targets alone -/

/-- Memory, the time, the list of dead targets and FXP_DEAD_COUNT are in `u` as in `s`. -/
structure State.DeadKept (s u : State) : Prop where
  mem : u.mem = s.mem
  now : u.now = s.now
  dead : u.fxp.dead = s.fxp.dead
  count : u.rd rFxpDeadCount = s.rd rFxpDeadCount

variable {s t u : State}

theorem State.DeadKept.refl (s : State) : s.DeadKept s := ⟨rfl, rfl, rfl, rfl⟩

theorem State.DeadKept.trans (h : s.DeadKept t) (h' : t.DeadKept u) : s.DeadKept u :=
  ⟨h'.mem.trans h.mem, h'.now.trans h.now, h'.dead.trans h.dead, h'.count.trans h.count⟩

theorem State.DeadKept.ite {c : Prop} [Decidable c] (ht : s.DeadKept t) (hu : s.DeadKept u) : s.DeadKept (if c then t else u) := by
  split
  · exact ht
  · exact hu

theorem State.DeadKept.foldl {α : Type} {l : List α} {f : State → α → State} (s : State)
    (h : ∀ t : State, ∀ a ∈ l, t.DeadKept (f t a)) :
    s.DeadKept (l.foldl f s) :=
  List.foldlRecOn l f (.refl s) fun t ht a ha => ht.trans (h t a ha)

theorem State.deadKept_regSet (s : State) {k : Nat} (v : Word) (h : k ≠ regKey tyFxp 0 0xA8) : s.DeadKept (s.regSet k v) :=
  ⟨rfl, rfl, rfl, congrArg BitVec.toNat (s.regGet_regSet_ne v h.symm)⟩

theorem State.deadKept_wr (s : State) {r : Reg} {i o : Nat} (v : Nat) (h : regKey r.ty i (r.off + o) ≠ regKey tyFxp 0 0xA8) :
    s.DeadKept (s.wr r v i o) := s.deadKept_regSet _ h

theorem State.deadKept_bump (s : State) {r : Reg} (h : regKey r.ty 0 r.off ≠ regKey tyFxp 0 0xA8) : s.DeadKept (s.bump r) :=
  s.deadKept_wr _ h

/-- The header of a page lies below its own registers (Table 18-2). -/
theorem State.deadKept_setHdr (s : State) (ty i v : Nat) {o : Nat} (ho : o < 0x80) : s.DeadKept (s.setHdr ty i o v) :=
  s.deadKept_regSet _ (by unfold regKey; omega)

/-! ### Errors, reports and the log -/

theorem State.deadKept_msix (s : State) (v : Nat) : s.DeadKept (s.msix v) := by
  unfold State.msix
  split
  · exact .refl s
  split <;> exact ⟨rfl, rfl, rfl, rfl⟩

theorem State.deadKept_intEdge (s s1 : State) : s1.DeadKept (s.intEdge s1) :=
  let sum := State.DeadKept.ite (s1.deadKept_setHdr _ _ _ (by decide)) (.refl s1)
  .ite (sum.trans (State.deadKept_msix _ _)) sum

theorem State.deadKept_refuse (s : State) (ty inst code info0 info1 : Nat) : s.DeadKept (s.refuse ty inst code info0 info1) := by
  have hdr := fun (t : State) (v o : Nat) (ho : o < 0x80) => t.deadKept_setHdr ty inst v ho
  exact (((hdr s code hErrCode (by decide)).trans (hdr _ (info0 % 2 ^ 32) hErrInfo0 (by decide))).trans
    (hdr _ (info1 % 2 ^ 32) hErrInfo1 (by decide))).trans ((hdr _ _ hIntStat (by decide)).trans (State.deadKept_intEdge _ _))

theorem State.deadKept_raise (s : State) (ty inst code info0 info1 : Nat) : s.DeadKept (s.raise ty inst code info0 info1) :=
  .ite (.refl s) (s.deadKept_refuse _ _ _ _ _)

theorem State.deadKept_takeReport (s : State) (b : List Byte) : s.DeadKept (s.takeReport b) := by
  unfold State.takeReport
  dsimp only
  have pend := s.deadKept_wr (r := rHbrPend) (i := 0) (o := 0)
  split
  · exact .ite (pend _ (by decide)) ((pend _ (by decide)).trans (State.deadKept_msix _ _))
  split
  · exact s.deadKept_bump (by decide)
  · have queue : s.DeadKept { s with hbr := { s.hbr with queue := s.hbr.queue ++ [b] } } := ⟨rfl, rfl, rfl, rfl⟩
    have count := queue.trans (State.deadKept_wr _ (r := rHbrRptCount) (i := 0) (o := 0) (s.hbr.queue.length + 1) (by decide))
    exact .ite (count.trans (State.deadKept_msix _ _)) count

theorem State.deadKept_postReport (s : State) (b : List Byte) : s.DeadKept (s.postReport b) :=
  .ite (s.deadKept_takeReport b) (.ite ⟨rfl, rfl, rfl, rfl⟩ ⟨rfl, rfl, rfl, rfl⟩)

theorem State.deadKept_power (s : State) (p : Power) : s.DeadKept { s with power := p } := ⟨rfl, rfl, rfl, rfl⟩

theorem State.deadKept_askGrant (s : State) (d : Nat) (on : Bool) : s.DeadKept (s.askGrant d on) := by
  unfold State.askGrant
  exact (s.deadKept_power _).trans (State.deadKept_bump _ (r := rPwrWakeReq) (by decide))

theorem State.deadKept_syncRefresh (s : State) : s.DeadKept s.syncRefresh := by
  refine .foldl s fun t i hi => ?_
  have hi : i < 16 := List.mem_range.mp hi
  have flag := fun v => t.deadKept_wr (r := rHbmcStat) (i := i) (o := 0) v (by simp only [regKey]; omega)
  exact .ite (flag _) (.ite (flag _) (.refl t))

theorem State.deadKept_syncClk (s : State) : s.DeadKept s.syncClk := by
  have clk := fun v => s.deadKept_wr (r := rClkState) (i := 0) (o := 0) v (by decide)
  have stat := fun (t : State) v => t.deadKept_wr (r := rPwrStat) (i := 0) (o := 0) v (by decide)
  exact (((clk _).trans (stat _ _)).trans (stat _ _)).trans (State.deadKept_syncRefresh _)

theorem State.deadKept_syncGrants (s : State) : s.DeadKept s.syncGrants :=
  (State.DeadKept.foldl s fun t _ _ => .ite (.refl t) (t.deadKept_askGrant _ _)).trans (State.deadKept_syncClk _)

theorem State.deadKept_useHbm (s : State) (u : HbmUse) : s.DeadKept (s.useHbm u) :=
  (s.deadKept_power _).trans (State.deadKept_syncGrants _)

theorem State.deadKept_logPost (s : State) (src lvl point a0 a1 : Nat) (fine : Bool) :
    s.DeadKept (s.logPost src lvl point a0 a1 fine) := by
  have queue := fun q : List (List Byte) => (⟨rfl, rfl, rfl, rfl⟩ : s.DeadKept { s with log := { s.log with queue := q } })
  unfold State.logPost
  dsimp only
  split
  · exact .refl s
  split
  · exact s.deadKept_bump (by decide)
  split
  · exact ((queue _).trans (State.deadKept_setHdr _ _ _ _ (by decide))).trans (State.deadKept_useHbm _ _)
  · exact queue _

theorem State.deadKept_fwLog (s : State) (fwp lvl point a0 a1 : Nat) (fine : Bool) : s.DeadKept (s.fwLog fwp lvl point a0 a1 fine) :=
  .ite (.refl s) (s.deadKept_logPost _ _ _ _ _ _)

/-! ### Failed system requests -/

theorem State.deadKept_reqs (s : State) (reqs : List OutReq) (synced : List Nat) :
    s.DeadKept { s with fxp := { s.fxp with reqs := reqs, synced := synced } } := ⟨rfl, rfl, rfl, rfl⟩

theorem State.deadKept_ackSeq (s : State) (k seq : Nat) : s.DeadKept (s.ackSeq k seq) := by
  unfold State.ackSeq
  dsimp only
  split <;> exact ⟨rfl, rfl, rfl, rfl⟩

theorem State.deadKept_dropCopy (s : State) (r : OutReq) (c : Nat × Nat) (answered : Bool) : s.DeadKept (s.dropCopy r c answered) :=
  (s.deadKept_reqs _ _).trans (State.deadKept_ackSeq _ _ _)

theorem State.deadKept_relayFail (s : State) (offset code : Nat) : s.DeadKept (s.relayFail offset code) := by
  have last := fun (t : State) v => t.deadKept_wr (r := rHbrRelayLast) (i := 0) (o := 0) v (by decide)
  unfold State.relayFail
  exact (s.deadKept_bump (by decide)).trans ((last _ _).trans (State.deadKept_msix _ _))

theorem State.deadKept_relayValue (s : State) (offset v : Nat) : s.DeadKept (s.relayValue offset v) := ⟨rfl, rfl, rfl, rfl⟩

theorem State.deadKept_systemFailed (s : State) (r : OutReq) (code : Nat) : s.DeadKept (s.systemFailed r code) := by
  unfold State.systemFailed
  cases r.owner with
  | relayRead off => exact (s.deadKept_relayFail _ _).trans (State.deadKept_relayValue _ _ _)
  | relayWrite off => exact s.deadKept_relayFail _ _
  | report => exact s.deadKept_bump (by decide)
  | thread | ring | homeCopy | notice | ckpt | rank | restore | holdAt => exact .refl s

theorem State.deadKept_failSystem (s : State) (r : OutReq) (c : Nat × Nat) : s.DeadKept (s.failSystem r c) :=
  (s.deadKept_dropCopy _ _ _).trans (State.deadKept_systemFailed _ _ _)

/-! ### The declaration -/

/-- The node with a target entered in the list of dead targets. -/
def State.enterDead (s : State) (target : Nat) : State :=
  { s with fxp := { s.fxp with dead := s.fxp.dead ++ [({ target := target, since := s.now } : Dead)] } }

/-- The node with a target in its first free FXP_DEAD entry, if one is free. -/
def State.showDead (s : State) (target : Nat) : State :=
  match s.deadSlot with
  | some i => s.wr rFxpDead (2 ^ 31 + target) 0 (4 * i)
  | none => s

/-- The first free FXP_DEAD entry is one of sixteen. -/
theorem State.deadSlot_lt {i : Nat} (h : s.deadSlot = some i) : i < 16 := List.mem_range.mp (List.mem_of_find?_eq_some h)

theorem State.deadKept_showDead (s : State) (target : Nat) : s.DeadKept (s.showDead target) := by
  unfold State.showDead
  split
  · next i hi =>
    have hi := State.deadSlot_lt hi
    exact s.deadKept_wr _ (by simp only [regKey]; omega)
  · exact .refl s

/-- A declaration enters the target and counts it; what follows leaves list and count alone. -/
theorem State.declareDead_kept (s : State) (target : Nat) :
    (((s.enterDead target).showDead target).bump rFxpDeadCount).DeadKept (s.declareDead target) := by
  refine (((State.DeadKept.ite (State.deadKept_raise _ _ _ _ _ _) (.refl _)).trans (.foldl _ fun t x _ => ?_)).trans
    (State.deadKept_fwLog _ _ _ _ _ _ _)).trans (State.deadKept_postReport _ _)
  split
  · split
    · exact t.deadKept_failSystem _ _
    · exact .refl t
  · exact .refl t

theorem State.mem_declareDead (s : State) (target : Nat) : (s.declareDead target).mem = s.mem :=
  (s.declareDead_kept target).mem.trans (State.deadKept_showDead _ target).mem

theorem State.now_declareDead (s : State) (target : Nat) : (s.declareDead target).now = s.now :=
  (s.declareDead_kept target).now.trans (State.deadKept_showDead _ target).now

/-- A target that was not dead is, from now on. -/
theorem State.deadOf_declareDead {target : Nat} (h : s.deadOf target = none) :
    (s.declareDead target).deadOf target = some ⟨target, s.now, false⟩ := by
  have hdead : (s.declareDead target).fxp.dead = s.fxp.dead ++ [⟨target, s.now, false⟩] :=
    (s.declareDead_kept target).dead.trans (State.deadKept_showDead _ target).dead
  unfold State.deadOf at h ⊢
  rw [hdead, List.find?_append, h]
  simp

/-- A declaration counts once, up to the end of the counter. -/
theorem State.deadCount_declareDead (s : State) (target : Nat) :
    (s.declareDead target).rd rFxpDeadCount = min (s.rd rFxpDeadCount + 1) 0xFFFFFFFF := by
  have hcount : ((s.enterDead target).showDead target).rd rFxpDeadCount = s.rd rFxpDeadCount := (State.deadKept_showDead _ target).count
  rw [(s.declareDead_kept target).count, State.bump, State.rd_wr_same, hcount]
  omega

/-- A copy whose target is not dead yet has it declared dead when it is lost. -/
theorem State.targetLost_alive {r : OutReq} {c : Nat × Nat} (h : s.deadOf c.1 = none) : s.targetLost r c = s.declareDead c.1 := by
  unfold State.targetLost
  rw [h]
  rfl

/-- A copy whose target is dead already fails alone, if it is one of the system stream. -/
theorem State.targetLost_dead {r : OutReq} {c : Nat × Nat} (h : s.deadOf c.1 ≠ none) :
    s.targetLost r c = if r.owner.sys then s.failSystem r c else s := by
  unfold State.targetLost
  rw [if_neg (by simpa using h)]

end Sys2Proof.Machine
end

section
/-!
PROOFS. How a request ends at its source (R193, R200, R202, R208, R209, R211, R340): responses, resends, dead targets and their
fallback, and floor updates. Each command answers the state that its rule names; what is put on the fabric is `State.inject`, from a node
in which only the transaction engine and the registers have been brought up to date.
-/

namespace Sys2Proof.Machine

variable {s : State} {p : Rsp} {r : OutReq} {c : Nat × Nat}

/-! ### Responses -/

/-- The copy `c` of the outstanding request `r` is the one that a response answers (R193). -/
def State.fits (s : State) (p : Rsp) (r : OutReq) (c : Nat × Nat) : Prop :=
  r ∈ s.fxp.reqs ∧ c ∈ r.copies ∧ r.sent.isSome = true ∧ c.1 % 2 ^ 14 = p.src.toNat % 2 ^ 14 ∧ r.tag = some p.tag.toNat ∧
    c.2 = p.seq.toNat

/-- The copy found for a response is one that it answers. -/
theorem State.fits_of_matching (h : s.matching p = some (r, c)) : s.fits p r c := by
  obtain ⟨r', hr, h⟩ := List.exists_of_findSome?_eq_some h
  split at h
  · next hsent =>
    obtain ⟨c', hc, heq⟩ := Option.map_eq_some_iff.mp h
    cases heq
    have hfound := List.find?_some hc
    rw [decide_eq_true_eq] at hfound
    exact ⟨hr, List.mem_of_find?_eq_some hc, hsent.2, hfound.1, hsent.1, hfound.2⟩
  · exact nomatch h

/-- A response that answers no copy finds none. -/
theorem State.matching_eq_none (h : ∀ r c, ¬ s.fits p r c) : s.matching p = none :=
  Option.eq_none_iff_forall_ne_some.mpr fun x hx => h x.1 x.2 (State.fits_of_matching hx)

/-- In BOOT the port discards a response (R340). -/
theorem State.response_booting (p : Rsp) (err : Bool) (h : s.boot.booting = true) : s.response p err = s.bump rFswDiscard := by
  unfold State.response
  rw [if_pos h]

/-- A response that answers no copy is counted, and nothing else (R193). -/
theorem State.response_stale (err : Bool) (h : s.boot.booting = false) (hm : s.matching p = none) :
    s.response p err = s.bump rFxpRspStale := by
  unfold State.response
  rw [h, hm]
  rfl

/-- A response that answers a copy takes it off, and its owner and whatever waited go on (R193, R197, R208). -/
theorem State.response_matching (err : Bool) (h : s.boot.booting = false) (hm : s.matching p = some (r, c)) :
    s.response p err =
      if err then (((s.dropCopy r c true).bump rFxpErrRsp).failed r c.1 p.err.toNat false).goOn
      else ((s.dropCopy r c true).ended r (p.data.take r.wants)).goOn := by
  unfold State.response
  rw [h, hm]
  rfl

/-! ### What is sent -/

/-- The node that a request of a stream leaves, with its counts brought up to date. -/
def State.leaving (s : State) (sys : Bool) : State :=
  let late := s.job.isNone && s.ckpt.restore.isNone
  let s1 := if sys then s else { s with fxp := { s.fxp with
    lastOut := some s.now, quiet := if late then some s.now else s.fxp.quiet } }
  s1.bump64 rFxpReqOut

theorem State.sendReq_eq (s : State) (sys : Bool) (target typ : Nat) (q : Req) :
    s.sendReq sys target typ q = (s.leaving sys).inject target (.request (BitVec.ofNat 8 typ) q) := rfl

theorem State.leaving_frame (s : State) (sys : Bool) :
    s.leaving sys = { s with fxp := (s.leaving sys).fxp, regs := (s.leaving sys).regs } := by cases sys <;> rfl

theorem State.leaving_carried (s : State) (sys : Bool) : (s.leaving sys).fxp.carried = s.fxp.carried := by cases sys <;> rfl

theorem State.leaving_reqs (s : State) (sys : Bool) : (s.leaving sys).fxp.reqs = s.fxp.reqs := by cases sys <;> rfl

/-! ### Resends (R200) -/

section
variable {tag : BitVec 13} {dst : BitVec 16} {t0 : Nat}

/-- A copy is put on the fabric once more, with the next RETRY, and the resend is counted. -/
def State.resendCopy (s : State) (r : OutReq) (c : Nat × Nat) : State :=
  let n := SMap.get 0 r.resent c.1 + 1
  let r1 := { r with resent := SMap.set 0 r.resent c.1 n }
  (({ s with fxp := { s.fxp with reqs := s.fxp.reqs.map fun x => if x = r then r1 else x } }).sendCopy r1 n c).bump rFxpRetries

/-- A resend takes place at its time where a path is up, and else loses the target. -/
theorem execRequestResend_eq {d : Nat} (ho : s.outstanding tag.toNat dst.toNat = some (r, c)) (hs : r.sent = some t0)
    (hd : resendAt[SMap.get 0 r.resent c.1]? = some d) (hdead : r.owner.sys = true ∨ s.deadOf c.1 = none) :
    let v := { s with now := max s.now (t0 + d) }
    execRequestResend tag dst s = .next (if v.pathTo c.1 r.cargo then v.resendCopy r c else (v.targetLost r c).goOn) := by
  have hsend : ¬ (!r.owner.sys && (s.deadOf c.1).isSome) = true := by
    rcases hdead with h | h <;> simp [h]
  unfold execRequestResend
  rw [ho]
  dsimp only
  split
  · next hs' hd' =>
    cases hs.symm.trans hs'
    cases hd.symm.trans hd'
    rw [if_neg hsend]
    cases ({ s with now := max s.now (t0 + d) } : State).pathTo c.1 r.cargo <;> rfl
  · next hno => exact (hno t0 d hs hd).elim

/-- A resent copy is the request with its own sequence, the floor of its stream and the number of the resend. -/
theorem State.resendCopy_inject (s : State) (r : OutReq) (c : Nat × Nat) : ∃ (w : State) (q : Req),
    s.resendCopy r c = (w.inject c.1 (.request (BitVec.ofNat 8 r.typ.code) q)).bump rFxpRetries ∧
    w = { s with fxp := w.fxp, regs := w.regs } ∧ q.seq = BitVec.ofNat 32 c.2 ∧ q.payload = r.req.payload ∧
    q.dst = BitVec.ofNat 16 (c.1 % 2 ^ 15) ∧ q.ackFloor = BitVec.ofNat 32 (SMap.get 0 s.fxp.acked (streamKey c.1 r.owner.sys)) ∧
    q.orig = BitVec.ofNat 8 (r.owner.orig + 8 * (SMap.get 0 r.resent c.1 + 1)) :=
  ⟨State.leaving _ r.owner.sys, _, rfl, State.leaving_frame _ _, rfl, rfl, rfl, rfl, rfl⟩

/-! ### Dead targets (R209) -/

/-- At the end of the retry window the target of a copy is lost. -/
theorem execDeadTarget_eq (ho : s.outstanding tag.toNat dst.toNat = some (r, c)) (hs : r.sent = some t0) :
    execDeadTarget tag dst s = .next (({ s with now := max s.now (t0 + 2000000) } : State).targetLost r c).goOn := by
  unfold execDeadTarget
  rw [ho]
  dsimp only
  rw [hs]

end

/-! ### The fallback (R211) -/

/-- An entry of the list of dead targets is replaced by another one of the same target. -/
theorem find_map_replace {l : List Dead} {target : Nat} {d d' : Dead} (h : l.find? (fun x => x.target = target) = some d)
    (ht : d'.target = d.target) :
    (l.map fun x => if x = d then d' else x).find? (fun x => x.target = target) = some d' := by
  have hp : (fun x : Dead => decide (x.target = target)) ∘ (fun x => if x = d then d' else x) =
      fun x => decide (x.target = target) := by
    funext x
    by_cases hx : x = d
    · simp [hx, ht]
    · simp [hx]
  rw [List.find?_map, hp, h]
  simp

/-- The requests without the job requests' copies to a target. -/
def withoutCopiesTo (target : Nat) (reqs : List OutReq) : List OutReq :=
  reqs.filterMap fun r =>
    if r.owner.sys then some r
    else
      let left := r.copies.filter fun c => c.1 ≠ target
      if left = [] then none else some { r with copies := left }

/-- The node in which the fallback of a dead target has been entered: no job request has a copy to it, and every sequence that its job
stream gave out counts as acknowledged. -/
def State.fallenBack (s : State) (d : Dead) : State :=
  let k := streamKey d.target false
  let v := { s with now := max s.now (d.since + s.rd rFxpDeadLimit * 1000000) }
  { v with fxp := { v.fxp with
    dead := v.fxp.dead.map fun x => if x = d then { x with fellBack := true } else x
    reqs := withoutCopiesTo d.target v.fxp.reqs
    acked := SMap.set 0 v.fxp.acked k (SMap.get 0 v.fxp.next k)
    ackedAt := SMap.set 0 v.fxp.ackedAt k v.now
    marks := v.fxp.marks.filter fun m => m.1 ≠ k } }

/-- The fallback fails each copy that was outstanding, faults the fences that wait for the target, and lets the rest go on. -/
theorem execDeadFallback_eq {target : BitVec 16} {d : Dead} (hd : s.deadOf target.toNat = some d) (hf : d.fellBack = false)
    (hj : s.job ≠ none) :
    execDeadFallback target s = .next (((s.copiesTo false d.target).foldl (fun t x => t.failed x.1 d.target eDeadTarget true)
      (s.fallenBack d)).fenceFaults d.target).goOn := by
  have hgo : ¬ (d.fellBack = true ∨ s.job.isNone = true) := by simp [hf, hj]
  unfold execDeadFallback
  rw [hd]
  dsimp only
  rw [if_neg hgo]
  rfl

/-- The entry of the target says that its fallback has been taken. -/
theorem State.deadOf_fallenBack {target : Nat} {d : Dead} (hd : s.deadOf target = some d) :
    (s.fallenBack d).deadOf target = some { d with fellBack := true } := by
  have hmap : (s.fallenBack d).fxp.dead = s.fxp.dead.map fun x => if x = d then { d with fellBack := true } else x :=
    List.map_congr_left fun x _ => by split <;> simp_all
  unfold State.deadOf
  rw [hmap]
  exact find_map_replace hd rfl

/-- No job request has a copy to the target any more. -/
theorem State.copiesTo_fallenBack (s : State) (d : Dead) : (s.fallenBack d).copiesTo false d.target = [] := by
  refine List.flatMap_eq_nil_iff.mpr fun r hr => ?_
  split
  · next hsys =>
    obtain ⟨r', -, h⟩ := List.mem_filterMap.mp hr
    split at h
    · next hsys' => cases h; rw [hsys] at hsys'; exact nomatch hsys'
    dsimp only at h
    split at h
    · exact nomatch h
    · cases h
      simp [List.filter_filter]
  · rfl

/-! ### Floor updates (R202) -/

section
variable {node : BitVec 14} {sys : Bool}

/-- FLOOR_UPD as this node sends it: only the floor of its stream. -/
def State.floorReq (s : State) (node : BitVec 14) (sys : Bool) : Req :=
  { opf := 0, flags := 0, orig := BitVec.ofNat 8 (1 + sys.toNat), src := BitVec.ofNat 16 s.nodeId, dst := node.setWidth 16
    tag := 0, sess := if sys then 0 else BitVec.ofNat 16 s.sess, seq := 0
    ackFloor := BitVec.ofNat 32 (SMap.get 0 s.fxp.acked (streamKey node.toNat sys)), age := 0, len := 0, addr := 0, payload := [] }

/-- The node in which the acknowledged sequence of a stream counts as carried, 20 us after it advanced. -/
def State.floorCarried (s : State) (k : Nat) : State :=
  { s with
    now := max s.now (SMap.get 0 s.fxp.ackedAt k + 20000)
    fxp := { s.fxp with carried := SMap.set 0 s.fxp.carried k (SMap.get 0 s.fxp.acked k) } }

/-- A floor that has not been carried goes to a target that lives and has a path. -/
theorem execFloorUpdSend_due
    (hk : SMap.get 0 s.fxp.carried (streamKey node.toNat sys) ≠ SMap.get 0 s.fxp.acked (streamKey node.toNat sys))
    (hd : sys = true ∨ s.deadOf node.toNat = none) (hp : ∀ q, s.pathTo node.toNat (.request 0x0A q) = true) :
    execFloorUpdSend node sys s =
      .next ((s.floorCarried (streamKey node.toNat sys)).sendReq sys node.toNat 0x0A (s.floorReq node sys)) := by
  have hsend : ¬ (!sys && (s.deadOf node.toNat).isSome) = true := by
    rcases hd with h | h <;> simp [h]
  unfold execFloorUpdSend
  dsimp only
  rw [if_neg fun h => h.elim hk fun h => h.elim hsend fun h => h (hp _)]
  rfl

/-- A floor that has been carried is not sent again. -/
theorem execFloorUpdSend_carried
    (hk : SMap.get 0 s.fxp.carried (streamKey node.toNat sys) = SMap.get 0 s.fxp.acked (streamKey node.toNat sys)) :
    execFloorUpdSend node sys s = .next s := by
  unfold execFloorUpdSend
  exact if_pos (.inl hk)

end

/-- Settles O49: each command answers the state that its rule names, by the lemma about its `exec` function, and what `State.inject` puts
on the fabric leaves in a packet wherever a path is up. -/
theorem requestEnds : Obligations.RequestEnds := by
  refine ⟨fun s p tag dst node sys => ⟨?_, ?_, ?_, fun r c t0 d ho hs hd hdead => ?_, fun r c t0 ho hs => ?_, ?_, ?_, ?_⟩,
    fun v target c => ⟨(v.switched_inject target c).frame, v.packet_mem_inject⟩⟩
  · rintro hb u rfl
    have hnext (p : Rsp) (err : Bool) : (.next (s.response p err) : Outcome) = .next (s.bump rFswDiscard) :=
      congrArg _ (State.response_booting p err hb)
    exact ⟨hnext p false, hnext { p with data := [] } false, hnext p true⟩
  · intro hb hnone
    have hstale := fun err => State.response_stale err hb (State.matching_eq_none hnone)
    exact ⟨⟨_, rfl, hstale false⟩, ⟨_, rfl, State.response_stale (p := { p with data := [] }) false hb
      (State.matching_eq_none hnone)⟩, ⟨_, rfl, hstale true⟩⟩
  · intro r c hb hm
    refine ⟨State.fits_of_matching hm, ⟨_, rfl, State.response_matching false hb hm⟩, ⟨_, rfl, ?_⟩,
      ⟨_, rfl, State.response_matching true hb hm⟩⟩
    simpa using State.response_matching (p := { p with data := [] }) false hb hm
  · have hexec := execRequestResend_eq ho hs hd hdead
    refine ⟨fun hp => ⟨_, hexec, ?_⟩, fun hp => ⟨_, hexec, if_neg (by simp [hp])⟩⟩
    rw [if_pos hp]
    exact State.resendCopy_inject _ r c
  · have hexec := execDeadTarget_eq ho hs
    refine ⟨fun hd => ?_, fun hd => ?_⟩
    · rw [State.targetLost_alive (s := { s with now := max s.now (t0 + 2000000) }) hd] at hexec
      exact ⟨_, hexec, _, rfl, State.now_declareDead _ _, State.mem_declareDead _ _, State.deadOf_declareDead hd,
        State.deadCount_declareDead _ _⟩
    · rw [State.targetLost_dead (s := { s with now := max s.now (t0 + 2000000) }) hd] at hexec
      exact ⟨_, hexec, rfl⟩
  · intro d hd hf hj
    exact ⟨_, execDeadFallback_eq hd hf hj, s.fallenBack d, rfl, rfl, State.deadOf_fallenBack hd, s.copiesTo_fallenBack d, rfl,
      SMap.get_set_same _ _ _ _⟩
  · intro hk hd hp
    refine ⟨_, execFloorUpdSend_due hk hd hp, (s.floorCarried _).leaving sys, s.floorReq node sys, State.sendReq_eq _ _ _ _ _,
      State.leaving_frame _ _, ?_, State.leaving_reqs _ _, rfl, rfl, rfl⟩
    rw [State.leaving_carried]
    exact SMap.get_set_same _ _ _ _
  · exact fun hk => ⟨s, execFloorUpdSend_carried hk, rfl⟩

end Sys2Proof.Machine
end

section
/-!
PROOFS. Loads before stage LOAD, PERST_N during a load, and reads of the log ring (R349, R371). A refusal, an interrupt and the end of
a use of HBM each write a few named registers; every other register, memory, the load in progress and what has been sent stay. So the
effects of a command are read off register by register.
-/

namespace Sys2Proof.Machine

variable {s t u : State} {k : Nat}

/-! ### What stays besides a few registers -/

/-- From `s` to `u`, memory, the load in progress and the register at key `k` stay, and nothing that has been sent is taken back. -/
structure State.KeptAt (k : Nat) (s u : State) : Prop where
  mem : u.mem = s.mem
  fwLoad : u.fwLoad = s.fwLoad
  out : ∃ rest, u.out = s.out ++ rest
  reg : u.regGet k = s.regGet k

theorem State.KeptAt.refl (k : Nat) (s : State) : s.KeptAt k s := ⟨rfl, rfl, ⟨[], (List.append_nil _).symm⟩, rfl⟩

theorem State.KeptAt.trans (h : s.KeptAt k t) (h' : t.KeptAt k u) : s.KeptAt k u := by
  obtain ⟨a, ha⟩ := h.out
  obtain ⟨b, hb⟩ := h'.out
  exact ⟨h'.mem.trans h.mem, h'.fwLoad.trans h.fwLoad, ⟨a ++ b, by rw [hb, ha, List.append_assoc]⟩, h'.reg.trans h.reg⟩

theorem State.KeptAt.ite {c : Prop} [Decidable c] (ht : s.KeptAt k t) (hu : s.KeptAt k u) : s.KeptAt k (if c then t else u) := by
  split
  · exact ht
  · exact hu

theorem State.KeptAt.foldl {α : Type} {l : List α} {f : State → α → State} (s : State)
    (h : ∀ t : State, ∀ a ∈ l, t.KeptAt k (f t a)) : s.KeptAt k (l.foldl f s) :=
  List.foldlRecOn l f (.refl k s) fun t ht a ha => ht.trans (h t a ha)

/-- A header register that stays reads the same. -/
theorem State.KeptAt.hdr {ty i o : Nat} (h : s.KeptAt (regKey ty i o) u) : u.hdr ty i o = s.hdr ty i o :=
  congrArg BitVec.toNat h.reg

/-- A field of a register that stays reads the same. -/
theorem State.KeptAt.fld {r : Reg} {i hi lo : Nat} (h : s.KeptAt (regKey r.ty i r.off) u) : u.fld r hi lo i = s.fld r hi lo i :=
  congrArg (fun w : Word => bitsOf w.toNat hi lo) h.reg

theorem State.keptAt_regSet (s : State) {j : Nat} (v : Word) (h : k ≠ j) : s.KeptAt k (s.regSet j v) :=
  ⟨rfl, rfl, ⟨[], (List.append_nil _).symm⟩, s.regGet_regSet_ne v h⟩

/-- A write to a register at another offset of a page. -/
theorem State.keptAt_wr_off (s : State) {r : Reg} {i : Nat} (v : Nat) (h : k % 4096 ≠ r.off % 4096) : s.KeptAt k (s.wr r v i) :=
  s.keptAt_regSet _ fun e => h (e ▸ regKey_mod _ _ _)

theorem State.keptAt_setHdr_off (s : State) {ty i o : Nat} (v : Nat) (h : k % 4096 ≠ o % 4096) : s.KeptAt k (s.setHdr ty i o v) :=
  s.keptAt_regSet _ fun e => h (e ▸ regKey_mod _ _ _)

/-! ### Interrupts and refusals (R356, R357) -/

theorem State.keptAt_msix (s : State) (v : Nat) : s.KeptAt k (s.msix v) := by
  unfold State.msix
  split
  · exact .refl k s
  split
  · exact ⟨rfl, rfl, ⟨[], (List.append_nil _).symm⟩, rfl⟩
  · exact ⟨rfl, rfl, ⟨_, rfl⟩, rfl⟩

/-- What follows a change of an interrupt register writes no register but INT_STAT of the HBR page. -/
theorem State.keptAt_intEdge (s s1 : State) (h : k % 4096 ≠ hIntStat) : s1.KeptAt k (s.intEdge s1) :=
  let sum := State.KeptAt.ite (s1.keptAt_setHdr_off _ h) (.refl k s1)
  .ite (sum.trans (State.keptAt_msix _ _)) sum

/-- Setting an interrupt writes no register but INT_STAT. -/
theorem State.keptAt_setInt (s : State) (ty i bits : Nat) (h : k % 4096 ≠ hIntStat) : s.KeptAt k (s.setInt ty i bits) :=
  (s.keptAt_setHdr_off _ h).trans (s.keptAt_intEdge _ h)

/-- A refusal writes no register above the header. -/
theorem State.keptAt_refuse (s : State) (ty i code info0 info1 : Nat) (h : 0x80 ≤ k % 4096) :
    s.KeptAt k (s.refuse ty i code info0 info1) :=
  have hdr (t : State) (v : Nat) {o : Nat} (ho : o < 0x80) : t.KeptAt k (t.setHdr ty i o v) := t.keptAt_setHdr_off v (by omega)
  (((hdr s _ (by decide)).trans (hdr _ _ (by decide))).trans (hdr _ _ (by decide))).trans
    (State.keptAt_setInt _ _ _ _ (Nat.ne_of_gt (Nat.lt_of_lt_of_le (by decide) h)))

/-- What a refusal leaves in the error registers of its page (R356). -/
theorem State.hdr_refuse (s : State) (ty i code info0 info1 : Nat) :
    let u := s.refuse ty i code info0 info1
    u.hdr ty i hErrCode = code % 2 ^ 64 ∧ u.hdr ty i hErrInfo0 = info0 % 2 ^ 32 ∧ u.hdr ty i hErrInfo1 = info1 % 2 ^ 32 := by
  have int (t : State) {o : Nat} (ho : o % 4096 ≠ hIntStat) : (t.setInt ty i iErr).hdr ty i o = t.hdr ty i o :=
    (t.keptAt_setInt ty i iErr (by rwa [regKey_mod])).hdr
  have ne (t : State) (v : Nat) {o o' : Nat} (ho : o % 4096 ≠ o' % 4096) : (t.setHdr ty i o' v).hdr ty i o = t.hdr ty i o :=
    (t.keptAt_setHdr_off v (by rwa [regKey_mod])).hdr
  have same (t : State) (o v : Nat) : (t.setHdr ty i o v).hdr ty i o = v % 2 ^ 64 := t.rd_wr_same ⟨ty, o⟩ v i 0
  unfold State.refuse
  refine ⟨?_, ?_, ?_⟩
  · rw [int _ (by decide), ne _ _ (by decide), ne _ _ (by decide), same]
  · rw [int _ (by decide), ne _ _ (by decide), same]
    omega
  · rw [int _ (by decide), same]
    omega

/-- An event code that is not informational is written at once (R356). -/
theorem State.raise_eq_refuse (s : State) (ty i : Nat) {code : Nat} (info0 info1 : Nat) (h : isInfo code = false) :
    s.raise ty i code info0 info1 = s.refuse ty i code info0 info1 := by
  unfold State.raise
  rw [h]
  rfl

/-! ### The end of a use of HBM (R14) -/

/-- The type of the page that a key belongs to. -/
theorem regKey_type (ty : Nat) {i o : Nat} (hi : i < 512) (ho : o < 4096) : regKey ty i o / 2 ^ 21 = ty := by
  unfold regKey
  omega

/-- A write to a page of another type. -/
theorem State.keptAt_wr_type (s : State) {r : Reg} {i : Nat} (v : Nat) (hi : i < 512) (ho : r.off < 4096) (h : k / 2 ^ 21 ≠ r.ty) :
    s.KeptAt k (s.wr r v i) :=
  s.keptAt_regSet _ fun e => h (e ▸ regKey_type r.ty hi ho)

theorem State.keptAt_power (s : State) (p : Power) : s.KeptAt k { s with power := p } :=
  ⟨rfl, rfl, ⟨[], (List.append_nil _).symm⟩, rfl⟩

section
variable (hk : k / 2 ^ 21 = tyFwp)
include hk

theorem State.keptAt_askGrant (s : State) (d : Nat) (on : Bool) : s.KeptAt k (s.askGrant d on) := by
  unfold State.askGrant
  exact (s.keptAt_power _).trans (State.keptAt_wr_type _ (r := rPwrWakeReq) _ (by decide) (by decide) (hk ▸ by decide))

theorem State.keptAt_syncRefresh (s : State) : s.KeptAt k s.syncRefresh := by
  refine .foldl s fun t i hi => ?_
  have hi : i < 16 := List.mem_range.mp hi
  have flag (v : Bool) : t.KeptAt k (t.setFlag rHbmcStat 0 v i) := t.keptAt_wr_type _ (by omega) (by decide) (hk ▸ by decide)
  exact .ite (flag _) (.ite (flag _) (.refl k t))

theorem State.keptAt_syncClk (s : State) : s.KeptAt k s.syncClk := by
  have clk (v : Nat) : s.KeptAt k (s.wr rClkState v) := s.keptAt_wr_type v (by decide) (by decide) (hk ▸ by decide)
  have stat (t : State) (b : Nat) (v : Bool) : t.KeptAt k (t.setFlag rPwrStat b v) :=
    t.keptAt_wr_type _ (by decide) (by decide) (hk ▸ by decide)
  exact (((clk _).trans (stat _ _ _)).trans (stat _ _ _)).trans (State.keptAt_syncRefresh hk _)

theorem State.keptAt_syncGrants (s : State) : s.KeptAt k s.syncGrants :=
  (State.KeptAt.foldl s fun t _ _ => .ite (.refl k t) (State.keptAt_askGrant hk t _ _)).trans (State.keptAt_syncClk hk _)

/-- The end of a use of HBM writes no register of an FWP page. -/
theorem State.keptAt_dropHbm (s : State) (v : HbmUse) : s.KeptAt k (s.dropHbm v) :=
  (s.keptAt_power _).trans (State.keptAt_syncGrants hk _)

end

/-! ### Fields of a register -/

/-- A field reads what was written to it, to its width. -/
theorem bitsOf_withBits (v hi lo x : Nat) : bitsOf (withBits v hi lo x) hi lo = x % 2 ^ (hi + 1 - lo) := by
  unfold withBits bitsOf
  have hlo : 0 < 2 ^ lo := Nat.two_pow_pos lo
  generalize 2 ^ (hi + 1 - lo) = m
  have hq := Nat.div_add_mod (v / 2 ^ lo) m
  have hv : v - v / 2 ^ lo % m * 2 ^ lo = v % 2 ^ lo + m * (v / 2 ^ lo / m) * 2 ^ lo := by
    have hsplit := Nat.div_add_mod v (2 ^ lo)
    rw [← hq, Nat.mul_comm (2 ^ lo), Nat.add_mul, Nat.add_comm, ← Nat.add_assoc] at hsplit
    exact Nat.sub_eq_of_eq_add hsplit.symm
  rw [hv, Nat.add_assoc, ← Nat.add_mul, Nat.add_mul_div_right _ _ hlo, Nat.div_eq_of_lt (Nat.mod_lt _ hlo),
    Nat.zero_add, Nat.mul_add_mod, Nat.mod_mod]

/-- A field reads what was written to it. -/
theorem State.fld_setFld_same (s : State) (r : Reg) {hi lo : Nat} (v i : Nat) (hlo : lo ≤ hi) (hhi : hi < 64) :
    (s.setFld r hi lo v i).fld r hi lo i = v % 2 ^ (hi + 1 - lo) := by
  have hcut (x : Nat) : bitsOf (x % 2 ^ 64) hi lo = bitsOf x hi lo := by
    have hword : 2 ^ 64 = 2 ^ lo * 2 ^ (64 - lo) := by rw [← Nat.pow_add, Nat.add_sub_of_le (by omega)]
    unfold bitsOf
    rw [hword, Nat.mod_mul_right_div_self, Nat.mod_mod_of_dvd _ (Nat.pow_dvd_pow 2 (by omega))]
  unfold State.setFld State.fld
  rw [State.rd_wr_same, hcut, bitsOf_withBits]

/-! ### Image loads (R371) -/

/-- START before stage LOAD is refused. -/
theorem State.startLoad_before_load (i : Nat) (hb : s.boot.held = false) (hs : s.fld rAonBootStat 2 0 < 4) :
    s.startLoad i = (s.refuse tyFwp i eState 0x094 3).setInt tyFwp i iDone := by
  unfold State.startLoad
  rw [hb, if_neg Bool.false_ne_true, if_pos (.inl (Nat.ne_of_lt hs))]

/-- FWP_LOAD before stage LOAD is refused, on the node in which the host has written address and length. -/
theorem execFwpLoad_before_load (i : Fin 6) (host : Word) (len : BitVec 32) (hb : s.boot.held = false)
    (hs : s.fld rAonBootStat 2 0 < 4) : execFwpLoad i host len s =
      .next ((((s.wr rFwpLoadHost host.toNat i.val).wr rFwpLoadLen len.toNat i.val).refuse tyFwp i.val eState 0x094 3).setInt
        tyFwp i.val iDone) := by
  have hstage : ((s.wr rFwpLoadHost host.toNat i.val).wr rFwpLoadLen len.toNat i.val).fld rAonBootStat 2 0 < 4 := by
    unfold State.fld at hs ⊢
    rwa [State.rd_wr_off _ _ (by decide), State.rd_wr_off _ _ (by decide)]
  unfold execFwpLoad
  rw [hb, if_neg Bool.false_ne_true, State.startLoad_before_load (s := (s.wr _ _ _).wr _ _ _) i.val hb hstage]

/-- The address and length of an image are no part of FWP_STAT. -/
theorem State.keptAt_loadArgs (s : State) (host len i : Nat) :
    s.KeptAt (regKey tyFwp i 0x080) ((s.wr rFwpLoadHost host i).wr rFwpLoadLen len i) :=
  (s.keptAt_wr_off _ (by rw [regKey_mod]; decide)).trans (State.keptAt_wr_off _ _ (by rw [regKey_mod]; decide))

/-- A refused START leaves its code on the page of the processor, whose FWP_STAT stays. -/
theorem State.refusedStart_spec (s : State) (i : Nat) :
    let u := (s.refuse tyFwp i eState 0x094 3).setInt tyFwp i iDone
    u.hdr tyFwp i hErrCode = eState ∧ s.KeptAt (regKey tyFwp i 0x080) u :=
  have int {o : Nat} (ho : o % 4096 ≠ hIntStat) :=
    (s.refuse tyFwp i eState 0x094 3).keptAt_setInt (k := regKey tyFwp i o) tyFwp i iDone (by rwa [regKey_mod])
  ⟨(int (o := hErrCode) (by decide)).hdr.trans (s.hdr_refuse _ _ _ _ _).1,
    (s.keptAt_refuse _ _ _ _ _ (Nat.le_of_eq (regKey_mod tyFwp _ 0x080).symm)).trans (int (by decide))⟩

/-- A load that is refused ends; its processor is in the state before START, with the code on its page (R339, R371). -/
theorem State.refuseLoad_spec {l : FwLoad} {code : Nat} (info0 : Nat) (hl : s.fwLoad = some l) (hi : l.inst < 512)
    (hcode : code < 2 ^ 64) (hinfo : isInfo code = false) :
    let u := s.refuseLoad code info0
    u.fwLoad = none ∧ u.fld rFwpStat 3 0 l.inst = l.prior % 16 ∧ u.hdr tyFwp l.inst hErrCode = code ∧ u.mem = s.mem := by
  let s1 := s.setFld rFwpStat 3 0 l.prior l.inst
  let s2 := s1.refuse tyFwp l.inst code info0 0
  have heq : s.refuseLoad code info0 = (({ s2 with fwLoad := none }).setInt tyFwp l.inst iDone).dropHbm (.fwLoad l.inst) := by
    unfold State.refuseLoad
    rw [hl]
    dsimp only
    rw [State.raise_eq_refuse _ _ _ _ _ hinfo]
  have htail {o : Nat} (ho : o < 4096) (hne : o ≠ hIntStat) :
      ({ s2 with fwLoad := none } : State).KeptAt (regKey tyFwp l.inst o) (s.refuseLoad code info0) :=
    heq ▸ (State.keptAt_setInt _ _ _ _ (by rwa [regKey_mod, Nat.mod_eq_of_lt ho])).trans
      (State.keptAt_dropHbm (regKey_type tyFwp hi ho) _ _)
  have hstat := htail (o := 0x80) (by decide) (by decide)
  have hrefuse : s1.KeptAt (regKey tyFwp l.inst 0x80) s2 := s1.keptAt_refuse _ _ _ _ _ (Nat.le_of_eq (regKey_mod tyFwp _ 0x080).symm)
  refine ⟨hstat.fwLoad, ?_, ?_, hstat.mem.trans hrefuse.mem⟩
  · have hset : s1.fld rFwpStat 3 0 l.inst = l.prior % 16 := s.fld_setFld_same rFwpStat _ _ (by decide) (by decide)
    exact (hstat.fld (r := rFwpStat)).trans ((hrefuse.fld (r := rFwpStat)).trans hset)
  · exact (htail (o := hErrCode) (by decide) (by decide)).hdr.trans ((s1.hdr_refuse _ _ _ _ _).1.trans (Nat.mod_eq_of_lt hcode))

/-- The bridge after PERST_N has fallen, besides the load. -/
def State.perstFell (s : State) : State :=
  let s1 := { s with pins := { s.pins with perstN := false } }
  { s1.wr rHbrStat 0 with hbr := { s1.hbr with msixPend := 0 } }

/-- PERST_N falling stops a load in LOADING. -/
theorem execHostBridgeReset_loading {l : FwLoad} (hb : s.boot.held = false) (hp : s.pins.perstN = true) (hl : s.fwLoad = some l)
    (hst : l.staged = false) : execHostBridgeReset s = .next (s.perstFell.refuseLoad eState 0) := by
  unfold execHostBridgeReset
  rw [if_neg (by simp [hp])]
  dsimp only
  rw [if_neg (by simp [hb])]
  split
  · next l' hl' =>
    cases hl.symm.trans hl'
    rw [if_neg (by simp [hst])]
    rfl
  · next hl' => cases hl.symm.trans hl'

/-! ### The log ring (R349) -/

/-- The row of DBG_LOG_SEL: 64 bits that a write may set. -/
abbrev rowLogSel : RegRow := ⟨0x090, 8, 1, .rw, 0, 2 ^ 64 - 1, 0, 0⟩

/-- The row of DBG_LOG_DATA0 to 3. -/
abbrev rowLogData : RegRow := ⟨0x098, 8, 4, .ro, 0, 0, 0, 0⟩

theorem writeHits_logSel (v : Nat) : writeHits tyDbg 0x090 8 v = some [(rowLogSel, 0x090, v)] := by
  have hrow : coverRow tyDbg 0x090 = some rowLogSel := by decide
  unfold writeHits
  rw [hrow]
  rfl

/-- No value of DBG_LOG_SEL is refused, and all its bits are taken. -/
theorem State.writeReg_logSel (s : State) {v : Nat} (org : Nat) (node : Option Nat) (hv : v < 2 ^ 64) :
    s.writeReg rowLogSel tyDbg 0 0x090 v org node = (s.wr rDbgLogSel v, eNone) := by
  have hmask : v &&& 2 ^ 64 - 1 = v := by rw [Nat.and_two_pow_sub_one_eq_mod, Nat.mod_eq_of_lt hv]
  have herr : s.writeErr tyDbg 0x090 v = eNone := rfl
  unfold State.writeReg
  simp only [hmask, herr, Nat.sub_self, Nat.and_zero, Nat.zero_or]
  rfl

/-- A write of all 8 bytes of DBG_LOG_SEL through the window (R349, R353). -/
theorem State.winWrite_logSel (s : State) {v : Nat} {org : Nat} (horg : org ≠ orgSmbus) (hv : v < 2 ^ 64) :
    s.winWrite (tyDbg * 2 ^ 21 + 0x090) 8 v org = (s.wr rDbgLogSel v, eNone) := by
  have hpage : s.winWrite (tyDbg * 2 ^ 21 + 0x090) 8 v org = s.writePage tyDbg 0 0x090 8 v org none none := rfl
  rw [hpage]
  unfold State.writePage
  rw [if_neg (by decide), if_neg horg, if_neg (by decide), if_neg (by decide), writeHits_logSel]
  dsimp only [List.foldl_cons, List.foldl_nil]
  rw [if_neg (by decide), State.writeReg_logSel s org none hv]
  rfl

/-- REGISTER_WRITE of the host to DBG_LOG_SEL. -/
theorem execRegisterWrite_logSel (v : Word) (hb : s.boot.held = false) :
    execRegisterWrite .host (BitVec.ofNat 27 (tyDbg * 2 ^ 21 + 0x090)) 8 v s = .next (s.wr rDbgLogSel v.toNat) := by
  have hv : v.toNat % 2 ^ (8 * (8 : BitVec 8).toNat) = v.toNat := Nat.mod_eq_of_lt v.isLt
  have hwrite := s.winWrite_logSel (org := orgOf .host) (by decide) v.isLt
  unfold execRegisterWrite
  rw [if_neg (by simp [hb]), hv]
  exact congrArg (fun r : State × Nat => (.next r.1 : Outcome)) hwrite

/-- The ring holds a sequence from its tail to below its head. -/
theorem State.logEntry_eq_none (s : State) (n : Nat) : s.logEntry n = none ↔ ¬ (s.rd rDbgLogTail ≤ n ∧ n < s.rd rDbgLogHead) := by
  unfold State.logEntry
  split
  · next h => exact ⟨(nomatch ·), fun hn => absurd h hn⟩
  · next h => exact ⟨fun _ => h, fun _ => rfl⟩

theorem State.logEntry_held {n : Nat} (h : s.rd rDbgLogTail ≤ n ∧ n < s.rd rDbgLogHead) :
    s.logEntry n = some (s.peekN (s.slotBase 6 + 32 * (n % 262144)) 32) := if_pos h

theorem natLE_lt (bs : List Byte) : natLE bs < 256 ^ bs.length := by
  induction bs with
  | nil => decide
  | cons b bs ih =>
    have := b.isLt
    rw [natLE, List.length_cons, Nat.pow_succ]
    omega

/-- Eight bytes of a record make a word. -/
theorem fieldLE_lt_word (bs : List Byte) (off : Nat) : fieldLE bs off 8 < 2 ^ 64 :=
  calc fieldLE bs off 8 < 256 ^ ((bs.drop off).take 8).length := natLE_lt _
    _ ≤ 256 ^ 8 := Nat.pow_le_pow_right (by decide) (List.length_take_le _ _)

/-- DBG_LOG_DATA0 to 3 show the entry selected. -/
theorem State.regView_logData (s : State) (q : Fin 4) : (s.regView tyDbg 0 (0x98 + 8 * q.val)).toNat =
    fieldLE ((s.logEntry (s.rd rDbgLogSel)).getD []) (8 * q.val) 8 := by
  have hcomputed : s.computed tyDbg 0 (0x98 + 8 * q.val) =
      some (fieldLE ((s.logEntry (s.rd rDbgLogSel)).getD []) (8 * q.val) 8) :=
    match q with
    | 0 | 1 | 2 | 3 => rfl
  unfold State.regView
  rw [hcomputed, BitVec.toNat_ofNat, Nat.mod_eq_of_lt (fieldLE_lt_word _ _)]

/-- Both halves of one of DBG_LOG_DATA0 to 3 lie in the row of the four. -/
theorem coverRow_logData : ∀ q : Fin 4, coverRow tyDbg (0x98 + 8 * q.val) = some rowLogData ∧
    coverRow tyDbg (0x98 + 8 * q.val + 4) = some rowLogData := by decide

/-- A read of one of DBG_LOG_DATA0 to 3 puts its two halves together. -/
theorem readPageIn_logData (view : Nat → Nat → Nat → Word) (q : Fin 4) :
    readPageIn view tyDbg 0 (0x98 + 8 * q.val) 8 = (view tyDbg 0 (0x98 + 8 * q.val)).toNat := by
  obtain ⟨hlow, hhigh⟩ := coverRow_logData q
  have hbase : rowLogData.off + (0x98 + 8 * q.val - rowLogData.off) / 8 * 8 = 0x98 + 8 * q.val := by dsimp only; omega
  have hbase' : rowLogData.off + (0x98 + 8 * q.val + 4 - rowLogData.off) / 8 * 8 = 0x98 + 8 * q.val := by dsimp only; omega
  have hlo : readWordIn view tyDbg 0 (0x98 + 8 * q.val) = (view tyDbg 0 (0x98 + 8 * q.val)).toNat % 2 ^ 32 := by
    unfold readWordIn
    rw [hlow, if_neg (by omega)]
    dsimp only
    rw [if_neg (by decide), hbase, Nat.sub_self, Nat.mul_zero, Nat.pow_zero, Nat.div_one]
  have hhi : readWordIn view tyDbg 0 (0x98 + 8 * q.val + 4) = (view tyDbg 0 (0x98 + 8 * q.val)).toNat / 2 ^ 32 := by
    unfold readWordIn
    rw [hhigh, if_neg (by omega)]
    dsimp only
    rw [if_neg (by decide), hbase', Nat.add_sub_cancel_left]
    have := (view tyDbg 0 (0x98 + 8 * q.val)).isLt
    omega
  unfold readPageIn
  rw [if_pos rfl, hlo, hhi, Nat.add_comm, Nat.div_add_mod]

/-- The node after a read has answered a value and used up the free values. -/
def State.answeredRead (s : State) (v : Nat) : State := { s with fresh := s.fresh + 1, out := s.out ++ [.value v] }

/-- LOG_READ of the host reads one of DBG_LOG_DATA0 to 3. -/
theorem execLogRead_host (q : Fin 4) (s : State) : execLogRead q .host s =
    .next ((s.emit (.value (fieldLE ((s.logEntry (s.rd rDbgLogSel)).getD []) (8 * q.val) 8))).readDone
      tyDbg (0x98 + 8 * q.val) 8) := by
  unfold execLogRead State.readPage
  rw [readPageIn_logData, State.regView_logData]

/-- The ring holds the sequence in DBG_LOG_SEL. -/
def State.logSelHeld (s : State) : Prop := s.rd rDbgLogTail ≤ s.rd rDbgLogSel ∧ s.rd rDbgLogSel < s.rd rDbgLogHead

/-- A read of DBG_LOG_DATA at a sequence that the ring holds only uses up the free values. -/
theorem State.readDone_held (q : Fin 4) (h : s.logSelHeld) :
    s.readDone tyDbg (0x98 + 8 * q.val) 8 = { s with fresh := s.fresh + 1 } := by
  have hsome : s.logEntry (s.rd rDbgLogSel) ≠ none := fun hnone => (s.logEntry_eq_none _).mp hnone h
  unfold State.readDone
  dsimp only
  exact if_neg fun ⟨_, _, _, hnone⟩ => hsome (Option.isNone_iff_eq_none.mp hnone)

/-- At any other sequence it also reports the sequence. -/
theorem State.readDone_outside (q : Fin 4) (h : ¬ s.logSelHeld) : s.readDone tyDbg (0x98 + 8 * q.val) 8 =
    ({ s with fresh := s.fresh + 1 } : State).refuse tyDbg 0 eRange (s.rd rDbgLogSel % 2 ^ 32) (s.rd rDbgLogSel / 2 ^ 32) := by
  have hnone : s.logEntry (s.rd rDbgLogSel) = none := (s.logEntry_eq_none _).mpr h
  unfold State.readDone
  dsimp only
  rw [State.raise_eq_refuse _ _ _ _ _ (by decide)]
  exact if_pos ⟨rfl, by omega, by omega, Option.isNone_iff_eq_none.mpr hnone⟩

/-- A read at a sequence that the ring holds answers bytes of its entry. -/
theorem execLogRead_held (q : Fin 4) (h : s.logSelHeld) : execLogRead q .host s =
    .next (s.answeredRead (fieldLE (s.peekN (s.slotBase 6 + 32 * (s.rd rDbgLogSel % 262144)) 32) (8 * q.val) 8)) := by
  rw [execLogRead_host, State.logEntry_held h, State.readDone_held (s := s.emit _) q h]
  rfl

/-- A read at any other sequence answers 0 and reports the sequence. -/
theorem execLogRead_outside (q : Fin 4) (h : ¬ s.logSelHeld) : execLogRead q .host s =
    .next ((s.answeredRead 0).refuse tyDbg 0 eRange (s.rd rDbgLogSel % 2 ^ 32) (s.rd rDbgLogSel / 2 ^ 32)) := by
  have hnone : s.logEntry (s.rd rDbgLogSel) = none := (s.logEntry_eq_none _).mpr h
  have hzero : fieldLE [] (8 * q.val) 8 = 0 := by simp [fieldLE, natLE]
  rw [execLogRead_host, hnone, Option.getD_none, hzero, State.readDone_outside (s := s.emit _) q h]
  rfl

/-- Settles O57: a refused START and a stopped load leave the registers that `State.KeptAt` sets apart; a write of DBG_LOG_SEL is one
register write; a read of DBG_LOG_DATA splits on whether the ring holds the sequence selected. -/
theorem loadsBeforeStageAndLogReads : Obligations.LoadsBeforeStageAndLogReads := by
  intro s p host v len q hb
  refine ⟨fun hstage => ?_, fun l hp hl hi hst => ?_, ?_, fun hheld => ?_, fun hheld => ?_⟩
  · obtain ⟨hcode, hkept⟩ := State.refusedStart_spec ((s.wr rFwpLoadHost host.toNat p.val).wr rFwpLoadLen len.toNat p.val) p.val
    have hstat := (s.keptAt_loadArgs host.toNat len.toNat p.val).trans hkept
    exact ⟨_, execFwpLoad_before_load p host len hb hstage, hcode, hstat.fwLoad, hstat.fld (r := rFwpStat), hstat.mem⟩
  · exact ⟨_, execHostBridgeReset_loading hb hp hl hst, State.refuseLoad_spec 0 hl (by omega) (by decide) (by decide)⟩
  · exact ⟨_, execRegisterWrite_logSel v hb, rfl, (s.rd_wr_same _ _ _ _).trans (Nat.mod_eq_of_lt v.isLt),
      fun k hk => s.regGet_regSet_ne _ hk⟩
  · exact ⟨_, execLogRead_held q hheld, rfl, rfl⟩
  · have hkept := (s.answeredRead 0).keptAt_refuse (k := regKey tyDbg 0 0x090) tyDbg 0 eRange (s.rd rDbgLogSel % 2 ^ 32)
      (s.rd rDbgLogSel / 2 ^ 32) (by decide)
    obtain ⟨hcode, hinfo0, hinfo1⟩ := (s.answeredRead 0).hdr_refuse tyDbg 0 eRange (s.rd rDbgLogSel % 2 ^ 32) (s.rd rDbgLogSel / 2 ^ 32)
    have hsel : s.rd rDbgLogSel < 2 ^ 64 := (s.regGet _).isLt
    obtain ⟨rest, hout⟩ := hkept.out
    exact ⟨_, execLogRead_outside q hheld, hkept.mem, ⟨rest, hout.trans (List.append_assoc _ _ _)⟩, hcode,
      hinfo0.trans (Nat.mod_mod _ _), hinfo1.trans (Nat.mod_eq_of_lt (by omega))⟩

end Sys2Proof.Machine
end
